-- ==== Sys2Proof/Word.lean ====
section
/-!
DEFINITION. Word.lean: the words of the QK9 and the operand types of its instructions and events
(spec/00 R4, spec/05 R141 and R152, spec/22 R385). Plain data only.
-/

namespace Sys2Proof

abbrev Byte := BitVec 8
/-- A scalar register, an address, a control register. -/
abbrev Word := BitVec 64
/-- One lane's 32 bits of a lane register. -/
abbrev Lane32 := BitVec 32
/-- A mask of a team: bit l is lane l (R27). -/
abbrev Mask := BitVec 1024

/-- `len` bits of the number `w` from bit `lo` upward (R10's x[hi:lo]). -/
def bitsOf (w lo len : Nat) : BitVec len := BitVec.ofNat len (w >>> lo)

/-- The fields of a 96-bit lane word except CLASS and OP (R152). -/
structure LaneFields where
  mask  : BitVec 4
  rnd   : BitVec 3
  ty    : BitVec 4
  sat   : BitVec 1
  d     : BitVec 8
  a     : BitVec 8
  b     : BitVec 8
  stall : BitVec 4
  post  : BitVec 5
  reuse : BitVec 1
  mod   : BitVec 6
  imm   : BitVec 32
  deriving DecidableEq, Repr, Inhabited

/-- One 46-bit half of a pair word (R162). -/
structure PairHalf where
  op6   : BitVec 6
  mask  : BitVec 4
  rnd2  : BitVec 2
  ty3   : BitVec 3
  d     : BitVec 8
  a     : BitVec 8
  b     : BitVec 8
  stall : BitVec 4
  rsvd  : BitVec 3
  deriving DecidableEq, Repr, Inhabited

/-- The PCIe function or the firmware that reaches a register (R373, R374, R422). -/
inductive Fn where
  /-- physical function 0: the hypervisor -/
  | pf
  /-- virtual function n -/
  | vf (n : BitVec 6)
  /-- the management firmware itself -/
  | mgmt
  deriving DecidableEq, Repr, Inhabited

/-- A register of the device that is reached by its offset in a block. -/
inductive RegAddr where
  /-- the block of queue q (R374) -/
  | queue (q : BitVec 13) (off : BitVec 7)
  /-- the management core (R397, R410, R450, R452) -/
  | mgmt (off : BitVec 12)
  /-- the debug block of a core (R423 to R431) -/
  | debug (core : BitVec 6) (off : BitVec 12)
  /-- the error block of a virtual function (R445) -/
  | errors (vf : BitVec 6) (off : BitVec 6)
  /-- the time block of a virtual function (R464) -/
  | time (vf : BitVec 6) (off : BitVec 6)
  /-- the telemetry registers (R468) -/
  | telemetry (off : BitVec 7)
  /-- entry n of the launch table of a tag (R378) -/
  | launchTable (tag : BitVec 16) (entry : BitVec 12)
  /-- word w of route entry n (R451) -/
  | route (n : BitVec 12) (w : BitVec 1)
  deriving DecidableEq, Repr, Inhabited

/-- The three claimable units of a debug block (R422). -/
inductive DbgUnit where
  | dbg | ctr | rc
  deriving DecidableEq, Repr, Inhabited

/-- The units of the self-test and of the lifetime records (R441). -/
inductive UnitClass where
  | quarter | bank | lineCache | router | channel | link
  deriving DecidableEq, Repr, Inhabited

/-- What one refresh of the telemetry measures (R468): power, five temperatures, core rail. -/
structure Telemetry where
  power : BitVec 32
  temps : List (BitVec 16)
  vcore : BitVec 16
  deriving DecidableEq, Repr, Inhabited

/-- How a firmware image slot of the module flash is taken by the boot ROM (R418). -/
structure FwImage where
  body   : List Byte
  sig    : List Byte
  svn    : Word
  config : List Byte
  /-- the Peryord root public key, which the image brings; the ROM holds its hash -/
  rootKey : List Byte := []
  deriving DecidableEq, Repr, Inhabited

/-- What a revocation request asks for (R389): the resource words it names, in order, the deadline in cycles of
device time, and where the hamper of the tag lies. Its fields are those of the runtime page. -/
structure RevocationRequest where
  resources : List Word
  reason    : Nat
  grace     : Nat
  deriving DecidableEq, Repr, Inhabited

/-- Why a 96-bit word is not a lane instruction (R154, R155, R159, R161). -/
inductive LaneReject where
  /-- CLASS 0xB, 0xC or 0xD -/
  | unassignedClass
  /-- CLASS 0xE, a block header inside a block -/
  | headerClass
  /-- an OP that R159 leaves unassigned in its class -/
  | unassignedOp
  deriving DecidableEq, Repr, Inhabited

end Sys2Proof
end

