-- ==== Sys2Proof/Syntax.lean ====
section
/-!
DEFINITION. Syntax.lean: the operations of the QK9, one constructor for each row of spec/opcode_table.json: the scalar
words (R141 to R151), the lane words (R152 to R159) with their fields as one record, the pair word (R162), and the
hardware events of spec/95. An event names its subject either by its operands or, where a unit and an item suffice, by
the fields `unit` and `item` of State, as a scalar instruction acts on the team `cur` of State. (Lean's runtime allows
operands only in an inductive's first 245 constructors: the events that need none stand last.)
-/

namespace Sys2Proof

/-- One row of the opcode table. -/
inductive Instr where
  /-- IADD (R169): Scalar 64-bit add of two registers, setting N, Z, C and V. -/
  | iadd (d : BitVec 6) (a : BitVec 6) (b : BitVec 6)
  /-- ISUB (R169): Scalar 64-bit subtract, setting the flags. -/
  | isub (d : BitVec 6) (a : BitVec 6) (b : BitVec 6)
  /-- IMUL (R169): Scalar multiply, low 64 bits. -/
  | imul (d : BitVec 6) (a : BitVec 6) (b : BitVec 6)
  /-- IMULH (R169): High 64 bits of the signed 128-bit product. -/
  | imulh (d : BitVec 6) (a : BitVec 6) (b : BitVec 6)
  /-- IMULHU (R169): High 64 bits of the unsigned 128-bit product. -/
  | imulhu (d : BitVec 6) (a : BitVec 6) (b : BitVec 6)
  /-- IDIV (R170): Signed division truncated toward zero, with defined divide-by-zero results or DIVFAULT under CHK. -/
  | idiv (d : BitVec 6) (a : BitVec 6) (b : BitVec 6)
  /-- IDIVU (R170): Unsigned division with defined divide-by-zero result. -/
  | idivu (d : BitVec 6) (a : BitVec 6) (b : BitVec 6)
  /-- IREM (R170): Signed remainder with the sign of a. -/
  | irem (d : BitVec 6) (a : BitVec 6) (b : BitVec 6)
  /-- IREMU (R170): Unsigned remainder. -/
  | iremu (d : BitVec 6) (a : BitVec 6) (b : BitVec 6)
  /-- AND (R169): Scalar bitwise AND. -/
  | and (d : BitVec 6) (a : BitVec 6) (b : BitVec 6)
  /-- OR (R169): Scalar bitwise OR. -/
  | or (d : BitVec 6) (a : BitVec 6) (b : BitVec 6)
  /-- XOR (R169): Scalar bitwise XOR. -/
  | xor (d : BitVec 6) (a : BitVec 6) (b : BitVec 6)
  /-- SHL (R169): Shift left by b[5:0]. -/
  | shl (d : BitVec 6) (a : BitVec 6) (b : BitVec 6)
  /-- SHR (R169): Logical shift right by b[5:0]. -/
  | shr (d : BitVec 6) (a : BitVec 6) (b : BitVec 6)
  /-- SAR (R169): Arithmetic shift right by b[5:0]. -/
  | sar (d : BitVec 6) (a : BitVec 6) (b : BitVec 6)
  /-- IMIN (R169): Signed minimum. -/
  | imin (d : BitVec 6) (a : BitVec 6) (b : BitVec 6)
  /-- IMAX (R169): Signed maximum. -/
  | imax (d : BitVec 6) (a : BitVec 6) (b : BitVec 6)
  /-- IMINU (R169): Unsigned minimum. -/
  | iminu (d : BitVec 6) (a : BitVec 6) (b : BitVec 6)
  /-- IMAXU (R169): Unsigned maximum. -/
  | imaxu (d : BitVec 6) (a : BitVec 6) (b : BitVec 6)
  /-- CMP (R169): Computes a minus b for the flags only. -/
  | cmp (a : BitVec 6) (b : BitVec 6)
  /-- SXT8 (R169): Sign-extends the low 8 bits. -/
  | sxt8 (d : BitVec 6) (a : BitVec 6)
  /-- SXT16 (R169): Sign-extends the low 16 bits. -/
  | sxt16 (d : BitVec 6) (a : BitVec 6)
  /-- SXT32 (R169): Sign-extends the low 32 bits. -/
  | sxt32 (d : BitVec 6) (a : BitVec 6)
  /-- SEL_CC (R169): Selects a or b by a condition on the flags. -/
  | selCc (d : BitVec 6) (a : BitVec 6) (b : BitVec 6) (c : BitVec 4)
  /-- IADDI (R171): Adds a sign-extended or ext-extended immediate, setting flags. -/
  | iaddi (d : BitVec 6) (a : BitVec 6) (i : BitVec 14)
  /-- IMULI (R171): Multiplies by an immediate. -/
  | imuli (d : BitVec 6) (a : BitVec 6) (i : BitVec 14)
  /-- ANDI (R171): ANDs with an immediate. -/
  | andi (d : BitVec 6) (a : BitVec 6) (i : BitVec 14)
  /-- ORI (R171): ORs with an immediate. -/
  | ori (d : BitVec 6) (a : BitVec 6) (i : BitVec 14)
  /-- XORI (R171): XORs with an immediate. -/
  | xori (d : BitVec 6) (a : BitVec 6) (i : BitVec 14)
  /-- SHLI (R171): Shifts left by an immediate 0 to 63. -/
  | shli (d : BitVec 6) (a : BitVec 6) (n : BitVec 6)
  /-- SHRI (R171): Logical shift right by an immediate. -/
  | shri (d : BitVec 6) (a : BitVec 6) (n : BitVec 6)
  /-- SARI (R171): Arithmetic shift right by an immediate. -/
  | sari (d : BitVec 6) (a : BitVec 6) (n : BitVec 6)
  /-- CMPI (R171): Sets flags from a minus an immediate. -/
  | cmpi (a : BitVec 6) (i : BitVec 14)
  /-- BR_CC (R172): Conditional PC-relative branch. -/
  | brCc (c : BitVec 4) (d : BitVec 22)
  /-- CALL (R172): Writes the return address to s1 and branches. -/
  | call (d : BitVec 22)
  /-- JR (R172): Jumps to the address in a register. -/
  | jr (a : BitVec 6)
  /-- CALLR (R172): Calls the address in a register, writing s1. -/
  | callr (a : BitVec 6)
  /-- RET (R172): Jumps to s1. -/
  | ret
  /-- DBNZ (R172): Decrements a counter and branches if the result is non-zero. -/
  | dbnz (d : BitVec 6) (i : BitVec 14)
  /-- LD_S (R175): Scalar load from an S-address, zero-extended. -/
  | ldS (d : BitVec 6) (a : BitVec 6) (b : BitVec 6) (s : BitVec 4) (c : BitVec 2) (z : BitVec 2)
  /-- LD_G (R175): Scalar load from a G-address, zero-extended. -/
  | ldG (d : BitVec 6) (a : BitVec 6) (b : BitVec 6) (s : BitVec 4) (c : BitVec 2) (z : BitVec 2)
  /-- ST_S (R175): Scalar store to an S-address through the store-delay queue. -/
  | stS (d : BitVec 6) (a : BitVec 6) (b : BitVec 6) (s : BitVec 4) (c : BitVec 2) (z : BitVec 2)
  /-- ST_G (R175): Scalar store to a G-address through the store-delay queue. -/
  | stG (d : BitVec 6) (a : BitVec 6) (b : BitVec 6) (s : BitVec 4) (c : BitVec 2) (z : BitVec 2)
  /-- ATOM_ADD_S (R177): Scalar atomic add at an S-address, returning old. -/
  | atomAddS (d : BitVec 6) (a : BitVec 6) (b : BitVec 6) (z : BitVec 1)
  /-- ATOM_MIN_S (R177): Scalar atomic signed minimum at an S-address. -/
  | atomMinS (d : BitVec 6) (a : BitVec 6) (b : BitVec 6) (z : BitVec 1)
  /-- ATOM_MAX_S (R177): Scalar atomic signed maximum at an S-address. -/
  | atomMaxS (d : BitVec 6) (a : BitVec 6) (b : BitVec 6) (z : BitVec 1)
  /-- ATOM_MINU_S (R177): Scalar atomic unsigned minimum at an S-address. -/
  | atomMinuS (d : BitVec 6) (a : BitVec 6) (b : BitVec 6) (z : BitVec 1)
  /-- ATOM_MAXU_S (R177): Scalar atomic unsigned maximum at an S-address. -/
  | atomMaxuS (d : BitVec 6) (a : BitVec 6) (b : BitVec 6) (z : BitVec 1)
  /-- ATOM_AND_S (R177): Scalar atomic AND at an S-address. -/
  | atomAndS (d : BitVec 6) (a : BitVec 6) (b : BitVec 6) (z : BitVec 1)
  /-- ATOM_OR_S (R177): Scalar atomic OR at an S-address. -/
  | atomOrS (d : BitVec 6) (a : BitVec 6) (b : BitVec 6) (z : BitVec 1)
  /-- ATOM_XOR_S (R177): Scalar atomic XOR at an S-address. -/
  | atomXorS (d : BitVec 6) (a : BitVec 6) (b : BitVec 6) (z : BitVec 1)
  /-- ATOM_EXCH_S (R177): Scalar atomic exchange at an S-address. -/
  | atomExchS (d : BitVec 6) (a : BitVec 6) (b : BitVec 6) (z : BitVec 1)
  /-- ATOM_CAS_S (R177): Scalar compare-and-swap at an S-address. -/
  | atomCasS (d : BitVec 6) (a : BitVec 6) (b : BitVec 6) (z : BitVec 1)
  /-- ATOM_FADD_S (R178): Scalar binary32 atomic add at an S-address with ABSENT identity. -/
  | atomFaddS (d : BitVec 6) (a : BitVec 6) (b : BitVec 6)
  /-- ATOM_FMAX_S (R178): Scalar binary32 atomic maximum at an S-address. -/
  | atomFmaxS (d : BitVec 6) (a : BitVec 6) (b : BitVec 6)
  /-- ATOM_FMIN_S (R178): Scalar binary32 atomic minimum at an S-address. -/
  | atomFminS (d : BitVec 6) (a : BitVec 6) (b : BitVec 6)
  /-- ATOM_ADD_G (R177): Scalar atomic add at a G-address. -/
  | atomAddG (d : BitVec 6) (a : BitVec 6) (b : BitVec 6) (z : BitVec 1)
  /-- ATOM_MIN_G (R177): Scalar atomic signed minimum at a G-address. -/
  | atomMinG (d : BitVec 6) (a : BitVec 6) (b : BitVec 6) (z : BitVec 1)
  /-- ATOM_MAX_G (R177): Scalar atomic signed maximum at a G-address. -/
  | atomMaxG (d : BitVec 6) (a : BitVec 6) (b : BitVec 6) (z : BitVec 1)
  /-- ATOM_MINU_G (R177): Scalar atomic unsigned minimum at a G-address. -/
  | atomMinuG (d : BitVec 6) (a : BitVec 6) (b : BitVec 6) (z : BitVec 1)
  /-- ATOM_MAXU_G (R177): Scalar atomic unsigned maximum at a G-address. -/
  | atomMaxuG (d : BitVec 6) (a : BitVec 6) (b : BitVec 6) (z : BitVec 1)
  /-- ATOM_AND_G (R177): Scalar atomic AND at a G-address. -/
  | atomAndG (d : BitVec 6) (a : BitVec 6) (b : BitVec 6) (z : BitVec 1)
  /-- ATOM_OR_G (R177): Scalar atomic OR at a G-address. -/
  | atomOrG (d : BitVec 6) (a : BitVec 6) (b : BitVec 6) (z : BitVec 1)
  /-- ATOM_XOR_G (R177): Scalar atomic XOR at a G-address. -/
  | atomXorG (d : BitVec 6) (a : BitVec 6) (b : BitVec 6) (z : BitVec 1)
  /-- ATOM_EXCH_G (R177): Scalar atomic exchange at a G-address. -/
  | atomExchG (d : BitVec 6) (a : BitVec 6) (b : BitVec 6) (z : BitVec 1)
  /-- ATOM_CAS_G (R177): Scalar compare-and-swap at a G-address. -/
  | atomCasG (d : BitVec 6) (a : BitVec 6) (b : BitVec 6) (z : BitVec 1)
  /-- ATOM_FADD_G (R178): Scalar binary32 atomic add at a G-address. -/
  | atomFaddG (d : BitVec 6) (a : BitVec 6) (b : BitVec 6)
  /-- ATOM_FMAX_G (R178): Scalar binary32 atomic maximum at a G-address. -/
  | atomFmaxG (d : BitVec 6) (a : BitVec 6) (b : BitVec 6)
  /-- ATOM_FMIN_G (R178): Scalar binary32 atomic minimum at a G-address. -/
  | atomFminG (d : BitVec 6) (a : BitVec 6) (b : BitVec 6)
  /-- FADD_F32 (R179): Scalar binary32 add with a rounding mode. -/
  | faddF32 (d : BitVec 6) (a : BitVec 6) (b : BitVec 6) (r : BitVec 3)
  /-- FSUB_F32 (R179): Scalar binary32 subtract. -/
  | fsubF32 (d : BitVec 6) (a : BitVec 6) (b : BitVec 6) (r : BitVec 3)
  /-- FMUL_F32 (R179): Scalar binary32 multiply. -/
  | fmulF32 (d : BitVec 6) (a : BitVec 6) (b : BitVec 6) (r : BitVec 3)
  /-- FFMA_F32 (R179): Scalar binary32 fused multiply-add into D. -/
  | ffmaF32 (d : BitVec 6) (a : BitVec 6) (b : BitVec 6) (r : BitVec 3)
  /-- FMIN_F32 (R179): Scalar binary32 minimum. -/
  | fminF32 (d : BitVec 6) (a : BitVec 6) (b : BitVec 6)
  /-- FMAX_F32 (R179): Scalar binary32 maximum. -/
  | fmaxF32 (d : BitVec 6) (a : BitVec 6) (b : BitVec 6)
  /-- FCMP_F32 (R180): Scalar binary32 compare setting N, Z, C, V. -/
  | fcmpF32 (a : BitVec 6) (b : BitVec 6)
  /-- CVT_F32_S32 (R179): Converts a signed 32-bit integer to binary32. -/
  | cvtF32S32 (d : BitVec 6) (a : BitVec 6) (r : BitVec 3)
  /-- CVT_S32_F32 (R181): Converts binary32 to a clamped signed 32-bit integer. -/
  | cvtS32F32 (d : BitVec 6) (a : BitVec 6) (r : BitVec 3)
  /-- LRUN (R37): Checks a lane-block header and enqueues its lane instructions into the lane queue. -/
  | lrun (d : BitVec 26)
  /-- LRUNR (R182): As lrun, with the header at a G-address in a register. -/
  | lrunr (a : BitVec 6)
  /-- LSYNC (R182): Completes when every earlier lane instruction has issued. -/
  | lsync
  /-- LQCNT (R182): Reads the number of unissued lane instructions in the queue. -/
  | lqcnt (d : BitVec 6)
  /-- WAIT (R183): Holds the scalar stream until a token counts n or fewer operations. -/
  | wait (k : BitVec 4) (n : BitVec 6)
  /-- TKRD (R184): Reads a token's count and cancel flag and clears the flag. -/
  | tkrd (d : BitVec 6) (k : BitVec 4)
  /-- FMTSET (R187): Writes FMT after the validity test. -/
  | fmtset (a : BitVec 6)
  /-- FMTGET (R187): Reads FMT. -/
  | fmtget (d : BitVec 6)
  /-- SRSEED (R187): Writes SRSEED and SRCTR. -/
  | srseed (a : BitVec 6) (b : BitVec 6)
  /-- MAND (R188): Whole-mask AND. -/
  | mand (d : BitVec 6) (a : BitVec 6) (b : BitVec 6)
  /-- MOR (R188): Whole-mask OR. -/
  | mor (d : BitVec 6) (a : BitVec 6) (b : BitVec 6)
  /-- MXOR (R188): Whole-mask XOR. -/
  | mxor (d : BitVec 6) (a : BitVec 6) (b : BitVec 6)
  /-- MNOT (R188): Whole-mask NOT. -/
  | mnot (d : BitVec 6) (a : BitVec 6)
  /-- MCOUNT (R188): Counts live set bits of a mask. -/
  | mcount (d : BitVec 6) (a : BitVec 6)
  /-- MFIRST (R188): Finds the lowest live set bit of a mask. -/
  | mfirst (d : BitVec 6) (a : BitVec 6)
  /-- MTEST (R188): Sets MZ and MA from a mask. -/
  | mtest (a : BitVec 6)
  /-- MSET (R188): Sets mask bits in a range of lane indices. -/
  | mset (d : BitVec 6) (a : BitVec 6) (b : BitVec 6)
  /-- QSET (R189): Writes one field of a stream slot. -/
  | qset (a : BitVec 6) (b : BitVec 6) (f : BitVec 4)
  /-- QGET (R189): Reads one field of a stream slot. -/
  | qget (d : BitVec 6) (b : BitVec 6) (f : BitVec 4)
  /-- BAR (R264): Arrives at a group barrier after a group-scope acqrel wait and departs with a status at phase completion. -/
  | bar (d : BitVec 6) (n : BitVec 4)
  /-- BAR_GANG (R264): Arrives at a gang barrier of the gang. -/
  | barGang (d : BitVec 6) (n : BitVec 4)
  /-- STEXP (R266): Adds bytes to a stile's pending transactions. -/
  | stexp (a : BitVec 6) (b : BitVec 6)
  /-- STARR (R266): Removes one pending arrival from a stile as a release. -/
  | starr (a : BitVec 6) (s : BitVec 4)
  /-- STTEST (R266): Reads a stile's status and phase without waiting. -/
  | sttest (d : BitVec 6) (a : BitVec 6) (b : BitVec 6) (s : BitVec 4)
  /-- STWAIT (R266): Stalls until a stile's phase differs from the one last seen. -/
  | stwait (d : BitVec 6) (a : BitVec 6) (b : BitVec 6) (s : BitVec 4)
  /-- YIELD (R268): Leaves the issue rotation with a continuation at YIELDPC, optionally parked on a stile. -/
  | yield (d : BitVec 6) (a : BitVec 6) (b : BitVec 6)
  /-- MWAIT (R269): Watches a sector and parks until it is written. -/
  | mwait (d : BitVec 6) (a : BitVec 6) (b : BitVec 6)
  /-- FENCE (R262): Orders the team's accesses at a scope, waiting for writes, reductions and postcards as required. -/
  | fence (s : BitVec 4) (c : BitVec 2)
  /-- SUB (R270): Creates a subscription entry in the publishing core's postcard table. -/
  | sub (d : BitVec 6) (a : BitVec 6) (b : BitVec 6)
  /-- UNSUB (R271): Ends a subscription after its postcards are applied. -/
  | unsub (d : BitVec 6) (a : BitVec 6)
  /-- SUBFLUSH (R271): Waits until postcards of earlier writes are applied. -/
  | subflush (d : BitVec 6) (a : BitVec 6)
  /-- LAUNCH (R195): Submits a launch descriptor to a device queue and returns a status. -/
  | launch (d : BitVec 6) (a : BitVec 6)
  /-- CGET (R190): Reads a control register. -/
  | cget (d : BitVec 6) (r : BitVec 6)
  /-- CSET (R190): Writes a control register with its checks and effects. -/
  | cset (a : BitVec 6) (r : BitVec 6)
  /-- TLBW (R191): Writes a translation-buffer slot after ownership and frame checks. -/
  | tlbw (d : BitVec 6) (a : BitVec 6) (b : BitVec 6)
  /-- TLBI (R192): Invalidates one slot or every owned slot of the quarter. -/
  | tlbi (a : BitVec 6)
  /-- TLBR_W0 (R193): Reads word 0 of a translation slot. -/
  | tlbrW0 (d : BitVec 6) (a : BitVec 6)
  /-- TLBR_W1 (R193): Reads word 1 of a translation slot. -/
  | tlbrW1 (d : BitVec 6) (a : BitVec 6)
  /-- NOP (R196): Does nothing. -/
  | nop
  /-- HALT (R199): Waits for issue, tokens, stores and reductions, then ends the team. -/
  | halt
  /-- ERET (R198): Returns from the tenant-level handler after the token hold and resumption tests. -/
  | eret
  /-- BRK (R197): Raises BREAK, or halts under a debugger. -/
  | brk
  /-- TRAP (R197): Raises the cause named in a register with a TRAPVAL. -/
  | trap (a : BitVec 6) (b : BitVec 6)
  /-- MARK (R196): Writes a trace mark record. -/
  | mark (a : BitVec 6)
  /-- EXT (R145): Prefix supplying high immediate bits to the next instruction. -/
  | ext (i : BitVec 26)
  /-- UNASSIGNED_SCALAR_WORD (R147): A fetched scalar word whose OP, FN or fixed-zero fields match no assigned instruction traps ILLEGAL at its own address. -/
  | unassignedScalarWord (word : BitVec 32)
  /-- LANE_IADD (R206): Lane integer add. -/
  | laneIadd (f : LaneFields)
  /-- LANE_ISUB (R206): Lane integer subtract. -/
  | laneIsub (f : LaneFields)
  /-- LANE_IMUL (R206): Lane integer multiply. -/
  | laneImul (f : LaneFields)
  /-- LANE_IMULHI (R206): Lane high half of the product. -/
  | laneImulhi (f : LaneFields)
  /-- LANE_IMAD (R206): Lane integer multiply-add. -/
  | laneImad (f : LaneFields)
  /-- LANE_IDIV (R207): Lane integer division with defined zero-divisor results. -/
  | laneIdiv (f : LaneFields)
  /-- LANE_IREM (R207): Lane integer remainder. -/
  | laneIrem (f : LaneFields)
  /-- LANE_IMIN (R206): Lane integer minimum. -/
  | laneImin (f : LaneFields)
  /-- LANE_IMAX (R206): Lane integer maximum. -/
  | laneImax (f : LaneFields)
  /-- LANE_IABS (R206): Lane integer absolute value. -/
  | laneIabs (f : LaneFields)
  /-- LANE_INEG (R206): Lane integer negation. -/
  | laneIneg (f : LaneFields)
  /-- LANE_MOV (R206): Lane bit copy or immediate move. -/
  | laneMov (f : LaneFields)
  /-- LANE_LFN3 (R208): Applies a three-input bitwise function table. -/
  | laneLfn3 (f : LaneFields)
  /-- LANE_ISHL (R209): Lane shift left. -/
  | laneIshl (f : LaneFields)
  /-- LANE_ISHR (R209): Lane logical shift right. -/
  | laneIshr (f : LaneFields)
  /-- LANE_ISAR (R209): Lane arithmetic shift right. -/
  | laneIsar (f : LaneFields)
  /-- LANE_IROT (R209): Lane rotate left. -/
  | laneIrot (f : LaneFields)
  /-- LANE_BFEXT (R210): Extracts a bit field. -/
  | laneBfext (f : LaneFields)
  /-- LANE_BFINS (R210): Inserts a bit field. -/
  | laneBfins (f : LaneFields)
  /-- LANE_BFREV (R210): Reverses 32 bits. -/
  | laneBfrev (f : LaneFields)
  /-- LANE_POPC (R210): Counts one bits. -/
  | lanePopc (f : LaneFields)
  /-- LANE_CLZ (R210): Counts leading zeros. -/
  | laneClz (f : LaneFields)
  /-- LANE_CTZ (R210): Counts trailing zeros. -/
  | laneCtz (f : LaneFields)
  /-- LANE_ICMP (R211): Integer compare writing one mask per element. -/
  | laneIcmp (f : LaneFields)
  /-- LANE_FCMP (R211): Floating compare writing one mask per element. -/
  | laneFcmp (f : LaneFields)
  /-- LANE_SEL (R213): Per-lane select by a selector mask. -/
  | laneSel (f : LaneFields)
  /-- LANE_VOTE (R214): Warp vote writing whole mask words. -/
  | laneVote (f : LaneFields)
  /-- LANE_FADD (R225): Lane floating add. -/
  | laneFadd (f : LaneFields)
  /-- LANE_FSUB (R225): Lane floating subtract. -/
  | laneFsub (f : LaneFields)
  /-- LANE_FMUL (R225): Lane floating multiply. -/
  | laneFmul (f : LaneFields)
  /-- LANE_FFMA (R225): Lane fused multiply-add with one rounding. -/
  | laneFfma (f : LaneFields)
  /-- LANE_FMIN (R226): Lane floating minimum copying bits. -/
  | laneFmin (f : LaneFields)
  /-- LANE_FMAX (R226): Lane floating maximum copying bits. -/
  | laneFmax (f : LaneFields)
  /-- LANE_FABS (R226): Clears the sign bit. -/
  | laneFabs (f : LaneFields)
  /-- LANE_FNEG (R226): Inverts the sign bit. -/
  | laneFneg (f : LaneFields)
  /-- LANE_FCLASS (R227): Writes a class code per element. -/
  | laneFclass (f : LaneFields)
  /-- LANE_FRCP (R228): Correctly rounded reciprocal. -/
  | laneFrcp (f : LaneFields)
  /-- LANE_FRSQ (R228): Correctly rounded reciprocal square root. -/
  | laneFrsq (f : LaneFields)
  /-- LANE_FSQRT (R228): Correctly rounded square root. -/
  | laneFsqrt (f : LaneFields)
  /-- LANE_FEXP2 (R230): Approximate base-2 exponential. -/
  | laneFexp2 (f : LaneFields)
  /-- LANE_FLOG2 (R230): Approximate base-2 logarithm. -/
  | laneFlog2 (f : LaneFields)
  /-- LANE_FSIN (R230): Approximate sine. -/
  | laneFsin (f : LaneFields)
  /-- LANE_FCOS (R230): Approximate cosine. -/
  | laneFcos (f : LaneFields)
  /-- LANE_FTANH (R230): Approximate hyperbolic tangent. -/
  | laneFtanh (f : LaneFields)
  /-- LANE_CVT (R234): Converts elements between types over register spans. -/
  | laneCvt (f : LaneFields)
  /-- LANE_FRND (R236): Rounds elements to integral values. -/
  | laneFrnd (f : LaneFields)
  /-- LANE_BPACK (R238): Packs a block record per warp into a block image. -/
  | laneBpack (f : LaneFields)
  /-- LANE_BUNPACK (R239): Unpacks a block image into lanes. -/
  | laneBunpack (f : LaneFields)
  /-- LANE_BSCALE (R240): Moves the scale of block records. -/
  | laneBscale (f : LaneFields)
  /-- LANE_FPRES (R241): Tests elements for presence into masks. -/
  | laneFpres (f : LaneFields)
  /-- LANE_FDFLT (R242): Replaces ABSENT elements with a default. -/
  | laneFdflt (f : LaneFields)
  /-- LANE_HIST (R243): Bins values into a histogram slot. -/
  | laneHist (f : LaneFields)
  /-- LANE_SHFL (R215): Moves values between lanes of a warp. -/
  | laneShfl (f : LaneFields)
  /-- LANE_QUAD (R217): Exchanges values within quads, helper lanes included. -/
  | laneQuad (f : LaneFields)
  /-- LANE_WRED (R220): Warp reduction by a fixed butterfly posting a token. -/
  | laneWred (f : LaneFields)
  /-- LANE_TRED (R220): Team reduction posting a token. -/
  | laneTred (f : LaneFields)
  /-- LANE_LD (R251): Lane load posting a token. -/
  | laneLd (f : LaneFields)
  /-- LANE_ST (R252): Lane store through the store-delay queue. -/
  | laneSt (f : LaneFields)
  /-- LANE_PREF (R254): Prefetch of lines into the line cache. -/
  | lanePref (f : LaneFields)
  /-- LANE_ATOM_ADD (R256): Returning lane atomic add. -/
  | laneAtomAdd (f : LaneFields)
  /-- LANE_ATOM_MIN (R256): Returning lane atomic minimum. -/
  | laneAtomMin (f : LaneFields)
  /-- LANE_ATOM_MAX (R256): Returning lane atomic maximum. -/
  | laneAtomMax (f : LaneFields)
  /-- LANE_ATOM_AND (R256): Returning lane atomic AND. -/
  | laneAtomAnd (f : LaneFields)
  /-- LANE_ATOM_OR (R256): Returning lane atomic OR. -/
  | laneAtomOr (f : LaneFields)
  /-- LANE_ATOM_XOR (R256): Returning lane atomic XOR. -/
  | laneAtomXor (f : LaneFields)
  /-- LANE_ATOM_EXCH (R256): Returning lane atomic exchange. -/
  | laneAtomExch (f : LaneFields)
  /-- LANE_ATOM_CAS (R256): Returning lane compare-and-swap. -/
  | laneAtomCas (f : LaneFields)
  /-- LANE_ATOM_FADD (R257): Returning lane floating atomic add. -/
  | laneAtomFadd (f : LaneFields)
  /-- LANE_ATOM_FMAX (R257): Returning lane floating atomic maximum. -/
  | laneAtomFmax (f : LaneFields)
  /-- LANE_ATOM_FMIN (R257): Returning lane floating atomic minimum. -/
  | laneAtomFmin (f : LaneFields)
  /-- LANE_RED_ADD (R258): No-return reduction add. -/
  | laneRedAdd (f : LaneFields)
  /-- LANE_RED_MIN (R258): No-return reduction minimum. -/
  | laneRedMin (f : LaneFields)
  /-- LANE_RED_MAX (R258): No-return reduction maximum. -/
  | laneRedMax (f : LaneFields)
  /-- LANE_RED_AND (R258): No-return reduction AND. -/
  | laneRedAnd (f : LaneFields)
  /-- LANE_RED_OR (R258): No-return reduction OR. -/
  | laneRedOr (f : LaneFields)
  /-- LANE_RED_XOR (R258): No-return reduction XOR. -/
  | laneRedXor (f : LaneFields)
  /-- LANE_RED_FADD (R258): No-return floating reduction add. -/
  | laneRedFadd (f : LaneFields)
  /-- LANE_RED_FMAX (R258): No-return floating reduction maximum. -/
  | laneRedFmax (f : LaneFields)
  /-- LANE_RED_FMIN (R258): No-return floating reduction minimum. -/
  | laneRedFmin (f : LaneFields)
  /-- MMA (R283): Checks the B range and hands one matrix step command to the sequencer. -/
  | mma (f : LaneFields)
  /-- MMLOOP (R284): Checks all ranges and hands a looped matrix command to the sequencer. -/
  | mmloop (f : LaneFields)
  /-- MMZERO (R286): Command that clears a tile to its granted state. -/
  | mmzero (f : LaneFields)
  /-- MMDRAIN (R288): Command that verifies, converts and drains tile rows to registers or scratchpad. -/
  | mmdrain (f : LaneFields)
  /-- MMCHECK (R289): Command that verifies and repairs tile rows by checksum. -/
  | mmcheck (f : LaneFields)
  /-- PAIR_WORD (R165): Issues two lane half-operations in one cycle on pipes X and Y. -/
  | pairWord (x : PairHalf) (y : PairHalf)
  /-- QUEUE_ENABLE (R379): EN goes from 0 to 1, starting the queue's period. -/
  | queueEnable (fn : Fn) (queue : Nat)
  /-- SUBMIT (R375): A host write to SUBMIT reads, checks and queues a descriptor and writes a response. -/
  | submit (fn : Fn) (queue : Nat) (addr : Word)
  /-- LAUNCH_PACKET (R378): A scale-out launch frame is admitted by the launch table and submitted, or answered with status 4. -/
  | launchPacket (frame : List Byte)
  /-- REVOCATION_REQUEST (R389): Management posts a request, arrives on the mailbox stile and delivers REVOKE. -/
  | revocationRequest (tag : Nat) (req : RevocationRequest)
  /-- RESOURCE_SEIZURE (R392): The abort engine seizes one resource, saves contents to the hamper and records the loss. -/
  | resourceSeizure (resource : Word) (reason : Nat) (reqid : Nat)
  /-- RESOURCE_GRANT (R384): Management brings a resource to its granted state and writes its ownership entry. -/
  | resourceGrant (resource : Word) (tag : Nat) (world : Nat) (shared : Bool)
  /-- CLAIM_REQUEST (R423): REQ requests a debug unit, granting it or starting a timed revocation. -/
  | claimRequest (fn : Fn) (core : Nat) (unit : DbgUnit)
  /-- CLAIM_RELEASE (R423): REL releases a debug unit. -/
  | claimRelease (fn : Fn) (core : Nat) (unit : DbgUnit)
  /-- CLAIM_DEADLINE (R423): A claim revocation's DEADL passes and the unit passes to the hypervisor. -/
  | claimDeadline (core : Nat) (unit : DbgUnit)
  /-- HALTCTL_HALT (R425): Halts a team at its next exact point. -/
  | haltctlHalt (fn : Fn) (core : Nat) (quarter : Nat) (slot : Nat)
  /-- HALTCTL_RESUME (R425): Resumes a halted team. -/
  | haltctlResume (fn : Fn) (core : Nat) (quarter : Nat) (slot : Nat)
  /-- HALTCTL_STEP (R425): Executes one instruction of a halted team, then halts. -/
  | haltctlStep (fn : Fn) (core : Nat) (quarter : Nat) (slot : Nat)
  /-- HALTCTL_SAVE (R425): Saves a team with KIND 5. -/
  | haltctlSave (fn : Fn) (core : Nat) (quarter : Nat) (slot : Nat)
  /-- TRACE_ENABLE (R427): EN from 0 to 1 resets HEAD, TAIL and DROP. -/
  | traceEnable (fn : Fn) (core : Nat)
  /-- ROLL_CALL_ENABLE (R428): EN from 0 to 1 resets the ring and records START. -/
  | rollCallEnable (fn : Fn) (core : Nat) (quarter : Nat)
  /-- COUNTER_SAVE (R432): Writes the counter session image. -/
  | counterSave (fn : Fn) (core : Nat)
  /-- COUNTER_LOAD (R432): Loads the counter session image, marking unsupported events. -/
  | counterLoad (fn : Fn) (core : Nat)
  /-- STRIKE (R435): A strike sensor report rolls covered quarters back 64 cycles and replays. -/
  | strike (quarters : List Nat)
  /-- SELF_TEST (R441): Management self-tests a unit after an error and classes it. -/
  | selfTest (unit : UnitClass) (number : Nat) (lasting : Bool)
  /-- PARTITION_JOIN (R450): The fabric manager sets PARTID over the link service channel. -/
  | partitionJoin (partid : Nat)
  /-- QUIESCE (R456): QUIESCE(E) marks lost routes DEAD, raises CHECKPOINT, drains and holds fabric access. -/
  | quiesce (epoch : Nat) (lost : List Nat)
  /-- PTM_EXCHANGE (R463): A PTM exchange slews or steps device time toward host time. -/
  | ptmExchange (hostTime : Word)
  /-- TELEMETRY_REFRESH (R468): Telemetry registers are refreshed every 100 us. -/
  | telemetryRefresh (reading : Telemetry)
  /-- REGISTER_WRITE (R7): A write to a register with no behaviour of its own sets its RW fields. -/
  | registerWrite (fn : Fn) (reg : RegAddr) (value : Word)
  /-- FIXED_LATENCY_WRITE_BACK (R296): A fixed-latency pass writes back its result and releases any posted token. Of operation item of team unit. -/
  | fixedLatencyWriteBack
  /-- LOAD_DELIVERY (R251): Loaded data arrives in the destination and the token is released. Of operation item of team unit. -/
  | loadDelivery
  /-- ATOMIC_RETURN (R257): A returning atomic's old value arrives in D and the token releases. Of operation item of team unit. -/
  | atomicReturn
  /-- REDUCTION_COMPLETE (R220): A wred or tred writes its results and counts and releases its token. Of operation item of team unit. -/
  | reductionComplete
  /-- STORE_DELAY_DEPARTURE (R122): A write 64 cycles old leaves the quarter's store-delay queue. Of the oldest entry of team unit. -/
  | storeDelayDeparture
  /-- WRITE_PERFORMED (R252): A write is performed at its bank or home, releasing any POST. Of write item of team unit. -/
  | writePerformed
  /-- REDUCTION_LINE_PERFORMED (R121): A sent reduction line is performed at its home as per-element read-modify-writes. Of buffered line item of core unit. -/
  | reductionLinePerformed
  /-- MATRIX_COMMAND_START (R275): The sequencer starts the next command once the earlier one has finished. Of quarter unit. -/
  | matrixCommandStart
  /-- MATRIX_STEP (R281): One 64x32 tile step accumulates present products. Of quarter unit. -/
  | matrixStep
  /-- MATRIX_COMMAND_COMPLETE (R275): A matrix command makes its last write and releases its token. Of quarter unit. -/
  | matrixCommandComplete
  /-- CREW_ARRIVAL (R291): A crewed command reaches its sequencer front; the last arrival starts or cancels the operation. Of quarter unit. -/
  | crewArrival
  /-- FERRY_GO (R261): A store to a channel's GO word waits for BUSY, checks the transfer and starts it. Of channel unit, numbered 64 x core + channel. -/
  | ferryGo
  /-- FERRY_LINE_PERFORMED (R343): A destination line is performed and subtracted from the stile's PTRANS. Of destination line item of channel unit, numbered 64 x core + channel. -/
  | ferryLinePerformed
  /-- POSTCARD_CLOSE (R117): An open postcard closes when its 64 mesh cycles expire. Of entry unit, numbered 32 x core + entry. -/
  | postcardClose
  /-- POSTCARD_APPLICATION (R351): A postcard is applied in one step at the subscriber's bank. Of the oldest closed postcard of entry unit, numbered 32 x core + entry. -/
  | postcardApplication
  /-- TRAP_ENTRY (R304): A trap stops the team, delivers pending results, writes the trap state and enters the handler. Of team unit. -/
  | trapEntry
  /-- ESCALATION (R396): A trap with INH = 1 writes an escalation record and stops the team. Of team unit. -/
  | escalation
  /-- DISPATCHER_ROUND (R380): The dispatcher places, restores and reserves heads of queues in deadline order. -/
  | dispatcherRound
  /-- HEAD_AGE_EXPIRY (R380): A blocked head reaches AGE and reserves a region. Of queue unit. -/
  | headAgeExpiry
  /-- YIELD_DEADLINE (R316): YIELD_CYCLES runs out after P and forces a save. Of team unit. -/
  | yieldDeadline
  /-- TEAM_SAVE (R399): A team is stopped, drained and written to its rucksack, becoming Saved. Of team unit. -/
  | teamSave
  /-- QUEUE_PERIOD_EXPIRY (R379): A queue deadline passes; DEADL advances and USED resets. Of queue unit. -/
  | queuePeriodExpiry
  /-- BUDGET_OVERRUN (R379): USED reaches BUDGET; the queue stops placing and OVERRUN is delivered. Of queue unit. -/
  | budgetOverrun
  /-- REVOCATION_REPLY (R390): The reply store is performed and named resources leave the tag. Of tag unit. -/
  | revocationReply
  /-- REVOCATION_DEADLINE (R391): DEADLINE passes and unreleased resources go to the abort engine. Of tag unit. -/
  | revocationDeadline
  /-- ESCALATION_END (R397): ACTION END makes an escalated team Exited. Of team unit. -/
  | escalationEnd
  /-- ESCALATION_RESUME (R397): ACTION RESUME lets an escalated team continue. Of team unit. -/
  | escalationResume
  /-- ESCALATION_SAVE (R397): ACTION SAVE saves an escalated team with KIND 5. Of team unit. -/
  | escalationSave
  /-- WCTL_KEY_LOAD (R410): Writing V = 1 over 0 loads fresh keys into a slot. Of key slot unit. -/
  | wctlKeyLoad
  /-- WCTL_KEY_ERASE (R410): Writing V = 0 erases a slot's keys unless the world is still assigned. Of key slot unit. -/
  | wctlKeyErase
  /-- WCTL_GO (R415): GO starts a key rotation of the slot's world. Of key slot unit. -/
  | wctlGo
  /-- ROTATION_LINE (R415): The rotation engine rewrites one line under new keys and advances the tideline. -/
  | rotationLine
  /-- FRAME_EVICT (R414): The page engine writes out a frame with a new version to host memory. Of frame unit, to host address item. -/
  | frameEvict
  /-- FRAME_RETURN (R414): The page engine writes back a frame that it wrote out, poisoning it if checks fail. Of frame unit, from host address item. -/
  | frameReturn
  /-- FRAME_SCRUB (R416): A frame is overwritten raw with zeros and its flash bit set. Of frame unit. -/
  | frameScrub
  /-- BOOT (R418): Reset runs the boot ROM, identity derivation and signed firmware verification. -/
  | boot
  /-- POWER_LOSS (R469): Loss of the 48 V rail erases all volatile state. -/
  | powerLoss
  /-- THERMAL_TRIP (R466): A sensor at 115 degrees C resets the device at once. -/
  | thermalTrip
  /-- ATTESTATION_REPORT (R419): Management answers the latest ATTSEQ with a signed report and a mailbox arrival. Of tag unit. -/
  | attestationReport
  /-- ROLL_CALL_SAMPLE (R428): At each period a sampler records the next resident team or counts a drop. Of quarter unit. -/
  | rollCallSample
  /-- LIFETIME_FLUSH (R443): Every 10 minutes lifetime records are written to flash. -/
  | lifetimeFlush
  /-- ERROR_BLOCK_CLEAR (R445): CLEAR sets every counter of a function's error block to 0. Of virtual function unit. -/
  | errorBlockClear
  /-- FLIT_CRC_FAILURE (R447): A flit fails its CRC and is resent, or the link is marked down at the eighth failure. Of link unit. -/
  | flitCrcFailure
  /-- LINK_UP (R452): A link trains and joins U. Of link unit. -/
  | linkUp
  /-- FABRIC_REQUEST_GIVE_UP (R454): A fabric request unanswered for 200 us fails with FABRIC. Of operation item of team unit. -/
  | fabricRequestGiveUp
  /-- STOPPED (R457): STOPPED(E) lets teams enter the rendezvous after every survivor drained. Of epoch unit. -/
  | stopped
  /-- FABRIC_RESUME (R459): RESUME(E) releases held fabric accesses, failing those to DEAD routes. Of epoch unit. -/
  | fabricResume
  /-- CLOCK_REDUCTION (R467): Power above PLIMIT or junction above 105 degrees C lowers the core clock by 250 MHz. -/
  | clockReduction
  /-- CLOCK_RAISE (R467): After 10 ms clear the core clock rises by 250 MHz. -/
  | clockRaise
  /-- PREFETCH_FETCH_ENDED (R254): Every fetch of a pref instruction has ended, releasing its optional POST. Of operation item of team unit. -/
  | prefetchFetchEnded
  /-- LINK_GOES_DOWN (R454): A scale-up link leaves the up state for a cause other than CRC exhaustion, such as losing training or its far end resetting, so in-flight requests are resent. Of link unit. -/
  | linkGoesDown
  /-- ORDERLY_SHUTDOWN (R443): At an orderly shutdown, management writes every lifetime record to module flash. -/
  | orderlyShutdown
  deriving DecidableEq, Repr

end Sys2Proof
end

