-- ==== Sys2Proof/Decode.lean ====
section
/-!
DEFINITION. Decode.lean: the decoder of scalar words (R141 to R151) and of lane words (R152 to R163), written from the
encoding tables of spec/05, and the encoder from the same tables. A scalar word that no row of R147 to R151 assigns
decodes to UNASSIGNED_SCALAR_WORD; a lane word that is no instruction is rejected by name.
-/

namespace Sys2Proof

/-- `len` bits of the number `w` from bit `lo`, as a number. -/
def fld (w lo len : Nat) : Nat := w / 2 ^ lo % 2 ^ len

/-- The same bits as a bit vector. -/
def bfld (w lo len : Nat) : BitVec len := BitVec.ofNat len (fld w lo len)

/-- The little-endian bytes of a number (R5). -/
def leBytes : Nat → Nat → List Byte
  | 0, _ => []
  | n + 1, w => BitVec.ofNat 8 w :: leBytes n (w / 256)

/-- The number that bytes hold, the first least significant (R5). -/
def leNat : List Byte → Nat
  | [] => 0
  | b :: bs => b.toNat + 256 * leNat bs

/-! ### Scalar words -/

/-- OP 0x00 of R147. -/
def decodeOp00 (w : Nat) : Option Instr :=
  if fld w 0 8 = 0 then some (.iadd (bfld w 20 6) (bfld w 14 6) (bfld w 8 6))
  else if fld w 0 8 = 1 then some (.isub (bfld w 20 6) (bfld w 14 6) (bfld w 8 6))
  else if fld w 0 8 = 2 then some (.imul (bfld w 20 6) (bfld w 14 6) (bfld w 8 6))
  else if fld w 0 8 = 3 then some (.imulh (bfld w 20 6) (bfld w 14 6) (bfld w 8 6))
  else if fld w 0 8 = 4 then some (.imulhu (bfld w 20 6) (bfld w 14 6) (bfld w 8 6))
  else if fld w 0 8 = 5 then some (.idiv (bfld w 20 6) (bfld w 14 6) (bfld w 8 6))
  else if fld w 0 8 = 6 then some (.idivu (bfld w 20 6) (bfld w 14 6) (bfld w 8 6))
  else if fld w 0 8 = 7 then some (.irem (bfld w 20 6) (bfld w 14 6) (bfld w 8 6))
  else if fld w 0 8 = 8 then some (.iremu (bfld w 20 6) (bfld w 14 6) (bfld w 8 6))
  else if fld w 0 8 = 9 then some (.and (bfld w 20 6) (bfld w 14 6) (bfld w 8 6))
  else if fld w 0 8 = 10 then some (.or (bfld w 20 6) (bfld w 14 6) (bfld w 8 6))
  else if fld w 0 8 = 11 then some (.xor (bfld w 20 6) (bfld w 14 6) (bfld w 8 6))
  else if fld w 0 8 = 12 then some (.shl (bfld w 20 6) (bfld w 14 6) (bfld w 8 6))
  else if fld w 0 8 = 13 then some (.shr (bfld w 20 6) (bfld w 14 6) (bfld w 8 6))
  else if fld w 0 8 = 14 then some (.sar (bfld w 20 6) (bfld w 14 6) (bfld w 8 6))
  else if fld w 0 8 = 15 then some (.imin (bfld w 20 6) (bfld w 14 6) (bfld w 8 6))
  else if fld w 0 8 = 16 then some (.imax (bfld w 20 6) (bfld w 14 6) (bfld w 8 6))
  else if fld w 0 8 = 17 then some (.iminu (bfld w 20 6) (bfld w 14 6) (bfld w 8 6))
  else if fld w 0 8 = 18 then some (.imaxu (bfld w 20 6) (bfld w 14 6) (bfld w 8 6))
  else if fld w 0 8 = 19 ∧ fld w 20 6 = 0 then some (.cmp (bfld w 14 6) (bfld w 8 6))
  else if fld w 0 14 = 20 then some (.sxt8 (bfld w 20 6) (bfld w 14 6))
  else if fld w 0 14 = 21 then some (.sxt16 (bfld w 20 6) (bfld w 14 6))
  else if fld w 0 14 = 22 then some (.sxt32 (bfld w 20 6) (bfld w 14 6))
  else if fld w 4 4 = 2 then some (.selCc (bfld w 20 6) (bfld w 14 6) (bfld w 8 6) (bfld w 0 4))
  else none

/-- OP 0x01 of R147. -/
def decodeOp01 (w : Nat) : Option Instr :=
  some (.iaddi (bfld w 20 6) (bfld w 14 6) (bfld w 0 14))

/-- OP 0x02 of R147. -/
def decodeOp02 (w : Nat) : Option Instr :=
  some (.imuli (bfld w 20 6) (bfld w 14 6) (bfld w 0 14))

/-- OP 0x03 of R147. -/
def decodeOp03 (w : Nat) : Option Instr :=
  some (.andi (bfld w 20 6) (bfld w 14 6) (bfld w 0 14))

/-- OP 0x04 of R147. -/
def decodeOp04 (w : Nat) : Option Instr :=
  some (.ori (bfld w 20 6) (bfld w 14 6) (bfld w 0 14))

/-- OP 0x05 of R147. -/
def decodeOp05 (w : Nat) : Option Instr :=
  some (.xori (bfld w 20 6) (bfld w 14 6) (bfld w 0 14))

/-- OP 0x06 of R147. -/
def decodeOp06 (w : Nat) : Option Instr :=
  if fld w 6 8 = 0 then some (.shli (bfld w 20 6) (bfld w 14 6) (bfld w 0 6))
  else none

/-- OP 0x07 of R147. -/
def decodeOp07 (w : Nat) : Option Instr :=
  if fld w 6 8 = 0 then some (.shri (bfld w 20 6) (bfld w 14 6) (bfld w 0 6))
  else none

/-- OP 0x08 of R147. -/
def decodeOp08 (w : Nat) : Option Instr :=
  if fld w 6 8 = 0 then some (.sari (bfld w 20 6) (bfld w 14 6) (bfld w 0 6))
  else none

/-- OP 0x09 of R147. -/
def decodeOp09 (w : Nat) : Option Instr :=
  if fld w 20 6 = 0 then some (.cmpi (bfld w 14 6) (bfld w 0 14))
  else none

/-- OP 0x10 of R147. -/
def decodeOp10 (w : Nat) : Option Instr :=
  some (.brCc (bfld w 22 4) (bfld w 0 22))

/-- OP 0x11 of R147. -/
def decodeOp11 (w : Nat) : Option Instr :=
  if fld w 22 4 = 0 then some (.call (bfld w 0 22))
  else none

/-- OP 0x12 of R147. -/
def decodeOp12 (w : Nat) : Option Instr :=
  if fld w 0 14 = 0 ∧ fld w 20 6 = 0 then some (.jr (bfld w 14 6))
  else if fld w 0 14 = 1 ∧ fld w 20 6 = 0 then some (.callr (bfld w 14 6))
  else if fld w 0 26 = 2 then some (.ret)
  else none

/-- OP 0x13 of R147. -/
def decodeOp13 (w : Nat) : Option Instr :=
  if fld w 14 6 = 0 then some (.dbnz (bfld w 20 6) (bfld w 0 14))
  else none

/-- OP 0x14 of R147. -/
def decodeOp14 (w : Nat) : Option Instr :=
  some (.ldS (bfld w 20 6) (bfld w 14 6) (bfld w 8 6) (bfld w 4 4) (bfld w 2 2) (bfld w 0 2))

/-- OP 0x15 of R147. -/
def decodeOp15 (w : Nat) : Option Instr :=
  some (.ldG (bfld w 20 6) (bfld w 14 6) (bfld w 8 6) (bfld w 4 4) (bfld w 2 2) (bfld w 0 2))

/-- OP 0x16 of R147. -/
def decodeOp16 (w : Nat) : Option Instr :=
  some (.stS (bfld w 20 6) (bfld w 14 6) (bfld w 8 6) (bfld w 4 4) (bfld w 2 2) (bfld w 0 2))

/-- OP 0x17 of R147. -/
def decodeOp17 (w : Nat) : Option Instr :=
  some (.stG (bfld w 20 6) (bfld w 14 6) (bfld w 8 6) (bfld w 4 4) (bfld w 2 2) (bfld w 0 2))

/-- OP 0x18 of R147. -/
def decodeOp18 (w : Nat) : Option Instr :=
  if fld w 0 3 = 0 ∧ fld w 4 4 = 0 then some (.atomAddS (bfld w 20 6) (bfld w 14 6) (bfld w 8 6) (bfld w 3 1))
  else if fld w 0 3 = 0 ∧ fld w 4 4 = 1 then some (.atomMinS (bfld w 20 6) (bfld w 14 6) (bfld w 8 6) (bfld w 3 1))
  else if fld w 0 3 = 0 ∧ fld w 4 4 = 2 then some (.atomMaxS (bfld w 20 6) (bfld w 14 6) (bfld w 8 6) (bfld w 3 1))
  else if fld w 0 3 = 0 ∧ fld w 4 4 = 3 then some (.atomMinuS (bfld w 20 6) (bfld w 14 6) (bfld w 8 6) (bfld w 3 1))
  else if fld w 0 3 = 0 ∧ fld w 4 4 = 4 then some (.atomMaxuS (bfld w 20 6) (bfld w 14 6) (bfld w 8 6) (bfld w 3 1))
  else if fld w 0 3 = 0 ∧ fld w 4 4 = 5 then some (.atomAndS (bfld w 20 6) (bfld w 14 6) (bfld w 8 6) (bfld w 3 1))
  else if fld w 0 3 = 0 ∧ fld w 4 4 = 6 then some (.atomOrS (bfld w 20 6) (bfld w 14 6) (bfld w 8 6) (bfld w 3 1))
  else if fld w 0 3 = 0 ∧ fld w 4 4 = 7 then some (.atomXorS (bfld w 20 6) (bfld w 14 6) (bfld w 8 6) (bfld w 3 1))
  else if fld w 0 3 = 0 ∧ fld w 4 4 = 8 then some (.atomExchS (bfld w 20 6) (bfld w 14 6) (bfld w 8 6) (bfld w 3 1))
  else if fld w 0 3 = 0 ∧ fld w 4 4 = 9 then some (.atomCasS (bfld w 20 6) (bfld w 14 6) (bfld w 8 6) (bfld w 3 1))
  else if fld w 0 8 = 160 then some (.atomFaddS (bfld w 20 6) (bfld w 14 6) (bfld w 8 6))
  else if fld w 0 8 = 176 then some (.atomFmaxS (bfld w 20 6) (bfld w 14 6) (bfld w 8 6))
  else if fld w 0 8 = 192 then some (.atomFminS (bfld w 20 6) (bfld w 14 6) (bfld w 8 6))
  else none

/-- OP 0x19 of R147. -/
def decodeOp19 (w : Nat) : Option Instr :=
  if fld w 0 3 = 0 ∧ fld w 4 4 = 0 then some (.atomAddG (bfld w 20 6) (bfld w 14 6) (bfld w 8 6) (bfld w 3 1))
  else if fld w 0 3 = 0 ∧ fld w 4 4 = 1 then some (.atomMinG (bfld w 20 6) (bfld w 14 6) (bfld w 8 6) (bfld w 3 1))
  else if fld w 0 3 = 0 ∧ fld w 4 4 = 2 then some (.atomMaxG (bfld w 20 6) (bfld w 14 6) (bfld w 8 6) (bfld w 3 1))
  else if fld w 0 3 = 0 ∧ fld w 4 4 = 3 then some (.atomMinuG (bfld w 20 6) (bfld w 14 6) (bfld w 8 6) (bfld w 3 1))
  else if fld w 0 3 = 0 ∧ fld w 4 4 = 4 then some (.atomMaxuG (bfld w 20 6) (bfld w 14 6) (bfld w 8 6) (bfld w 3 1))
  else if fld w 0 3 = 0 ∧ fld w 4 4 = 5 then some (.atomAndG (bfld w 20 6) (bfld w 14 6) (bfld w 8 6) (bfld w 3 1))
  else if fld w 0 3 = 0 ∧ fld w 4 4 = 6 then some (.atomOrG (bfld w 20 6) (bfld w 14 6) (bfld w 8 6) (bfld w 3 1))
  else if fld w 0 3 = 0 ∧ fld w 4 4 = 7 then some (.atomXorG (bfld w 20 6) (bfld w 14 6) (bfld w 8 6) (bfld w 3 1))
  else if fld w 0 3 = 0 ∧ fld w 4 4 = 8 then some (.atomExchG (bfld w 20 6) (bfld w 14 6) (bfld w 8 6) (bfld w 3 1))
  else if fld w 0 3 = 0 ∧ fld w 4 4 = 9 then some (.atomCasG (bfld w 20 6) (bfld w 14 6) (bfld w 8 6) (bfld w 3 1))
  else if fld w 0 8 = 160 then some (.atomFaddG (bfld w 20 6) (bfld w 14 6) (bfld w 8 6))
  else if fld w 0 8 = 176 then some (.atomFmaxG (bfld w 20 6) (bfld w 14 6) (bfld w 8 6))
  else if fld w 0 8 = 192 then some (.atomFminG (bfld w 20 6) (bfld w 14 6) (bfld w 8 6))
  else none

/-- OP 0x1C of R147. -/
def decodeOp1C (w : Nat) : Option Instr :=
  if fld w 3 5 = 0 then some (.faddF32 (bfld w 20 6) (bfld w 14 6) (bfld w 8 6) (bfld w 0 3))
  else if fld w 3 5 = 1 then some (.fsubF32 (bfld w 20 6) (bfld w 14 6) (bfld w 8 6) (bfld w 0 3))
  else if fld w 3 5 = 2 then some (.fmulF32 (bfld w 20 6) (bfld w 14 6) (bfld w 8 6) (bfld w 0 3))
  else if fld w 3 5 = 3 then some (.ffmaF32 (bfld w 20 6) (bfld w 14 6) (bfld w 8 6) (bfld w 0 3))
  else if fld w 0 8 = 32 then some (.fminF32 (bfld w 20 6) (bfld w 14 6) (bfld w 8 6))
  else if fld w 0 8 = 40 then some (.fmaxF32 (bfld w 20 6) (bfld w 14 6) (bfld w 8 6))
  else if fld w 0 8 = 48 ∧ fld w 20 6 = 0 then some (.fcmpF32 (bfld w 14 6) (bfld w 8 6))
  else if fld w 3 11 = 7 then some (.cvtF32S32 (bfld w 20 6) (bfld w 14 6) (bfld w 0 3))
  else if fld w 3 11 = 8 then some (.cvtS32F32 (bfld w 20 6) (bfld w 14 6) (bfld w 0 3))
  else none

/-- OP 0x20 of R147. -/
def decodeOp20 (w : Nat) : Option Instr :=
  some (.lrun (bfld w 0 26))

/-- OP 0x21 of R147. -/
def decodeOp21 (w : Nat) : Option Instr :=
  if fld w 0 14 = 0 ∧ fld w 20 6 = 0 then some (.lrunr (bfld w 14 6))
  else if fld w 0 26 = 1 then some (.lsync)
  else if fld w 0 20 = 2 then some (.lqcnt (bfld w 20 6))
  else none

/-- OP 0x22 of R147. -/
def decodeOp22 (w : Nat) : Option Instr :=
  if fld w 6 14 = 0 ∧ fld w 24 2 = 0 then some (.wait (bfld w 20 4) (bfld w 0 6))
  else none

/-- OP 0x23 of R147. -/
def decodeOp23 (w : Nat) : Option Instr :=
  if fld w 4 16 = 0 then some (.tkrd (bfld w 20 6) (bfld w 0 4))
  else none

/-- OP 0x24 of R147. -/
def decodeOp24 (w : Nat) : Option Instr :=
  if fld w 0 14 = 0 ∧ fld w 20 6 = 0 then some (.fmtset (bfld w 14 6))
  else if fld w 0 20 = 1 then some (.fmtget (bfld w 20 6))
  else if fld w 0 8 = 2 ∧ fld w 20 6 = 0 then some (.srseed (bfld w 14 6) (bfld w 8 6))
  else none

/-- OP 0x25 of R147. -/
def decodeOp25 (w : Nat) : Option Instr :=
  if fld w 0 8 = 0 then some (.mand (bfld w 20 6) (bfld w 14 6) (bfld w 8 6))
  else if fld w 0 8 = 1 then some (.mor (bfld w 20 6) (bfld w 14 6) (bfld w 8 6))
  else if fld w 0 8 = 2 then some (.mxor (bfld w 20 6) (bfld w 14 6) (bfld w 8 6))
  else if fld w 0 14 = 3 then some (.mnot (bfld w 20 6) (bfld w 14 6))
  else if fld w 0 14 = 4 then some (.mcount (bfld w 20 6) (bfld w 14 6))
  else if fld w 0 14 = 5 then some (.mfirst (bfld w 20 6) (bfld w 14 6))
  else if fld w 0 14 = 6 ∧ fld w 20 6 = 0 then some (.mtest (bfld w 14 6))
  else if fld w 0 8 = 7 then some (.mset (bfld w 20 6) (bfld w 14 6) (bfld w 8 6))
  else none

/-- OP 0x26 of R147. -/
def decodeOp26 (w : Nat) : Option Instr :=
  if fld w 4 4 = 0 ∧ fld w 20 6 = 0 then some (.qset (bfld w 14 6) (bfld w 8 6) (bfld w 0 4))
  else if fld w 4 4 = 1 ∧ fld w 14 6 = 0 then some (.qget (bfld w 20 6) (bfld w 8 6) (bfld w 0 4))
  else none

/-- OP 0x27 of R147. -/
def decodeOp27 (w : Nat) : Option Instr :=
  if fld w 4 16 = 0 then some (.bar (bfld w 20 6) (bfld w 0 4))
  else if fld w 4 16 = 1 then some (.barGang (bfld w 20 6) (bfld w 0 4))
  else none

/-- OP 0x28 of R147. -/
def decodeOp28 (w : Nat) : Option Instr :=
  if fld w 0 8 = 0 ∧ fld w 20 6 = 0 then some (.stexp (bfld w 14 6) (bfld w 8 6))
  else if fld w 0 4 = 1 ∧ fld w 8 6 = 0 ∧ fld w 20 6 = 0 then some (.starr (bfld w 14 6) (bfld w 4 4))
  else if fld w 0 4 = 2 then some (.sttest (bfld w 20 6) (bfld w 14 6) (bfld w 8 6) (bfld w 4 4))
  else if fld w 0 4 = 3 then some (.stwait (bfld w 20 6) (bfld w 14 6) (bfld w 8 6) (bfld w 4 4))
  else none

/-- OP 0x29 of R147. -/
def decodeOp29 (w : Nat) : Option Instr :=
  if fld w 0 8 = 0 then some (.yield (bfld w 20 6) (bfld w 14 6) (bfld w 8 6))
  else if fld w 0 8 = 1 then some (.mwait (bfld w 20 6) (bfld w 14 6) (bfld w 8 6))
  else none

/-- OP 0x2A of R147. -/
def decodeOp2A (w : Nat) : Option Instr :=
  if fld w 0 2 = 0 ∧ fld w 8 18 = 0 then some (.fence (bfld w 4 4) (bfld w 2 2))
  else none

/-- OP 0x2B of R147. -/
def decodeOp2B (w : Nat) : Option Instr :=
  if fld w 0 8 = 0 then some (.sub (bfld w 20 6) (bfld w 14 6) (bfld w 8 6))
  else if fld w 0 14 = 1 then some (.unsub (bfld w 20 6) (bfld w 14 6))
  else if fld w 0 14 = 2 then some (.subflush (bfld w 20 6) (bfld w 14 6))
  else none

/-- OP 0x2C of R147. -/
def decodeOp2C (w : Nat) : Option Instr :=
  if fld w 0 14 = 0 then some (.launch (bfld w 20 6) (bfld w 14 6))
  else none

/-- OP 0x2D of R147. -/
def decodeOp2D (w : Nat) : Option Instr :=
  if fld w 0 8 = 0 ∧ fld w 14 6 = 0 then some (.cget (bfld w 20 6) (bfld w 8 6))
  else if fld w 0 8 = 1 ∧ fld w 20 6 = 0 then some (.cset (bfld w 14 6) (bfld w 8 6))
  else none

/-- OP 0x2E of R147. -/
def decodeOp2E (w : Nat) : Option Instr :=
  if fld w 0 8 = 0 then some (.tlbw (bfld w 20 6) (bfld w 14 6) (bfld w 8 6))
  else if fld w 0 14 = 1 ∧ fld w 20 6 = 0 then some (.tlbi (bfld w 14 6))
  else if fld w 0 14 = 2 then some (.tlbrW0 (bfld w 20 6) (bfld w 14 6))
  else if fld w 0 14 = 258 then some (.tlbrW1 (bfld w 20 6) (bfld w 14 6))
  else none

/-- OP 0x2F of R147. -/
def decodeOp2F (w : Nat) : Option Instr :=
  if fld w 0 26 = 0 then some (.nop)
  else if fld w 0 26 = 1 then some (.halt)
  else if fld w 0 26 = 2 then some (.eret)
  else if fld w 0 26 = 3 then some (.brk)
  else if fld w 0 8 = 4 ∧ fld w 20 6 = 0 then some (.trap (bfld w 14 6) (bfld w 8 6))
  else if fld w 0 14 = 5 ∧ fld w 20 6 = 0 then some (.mark (bfld w 14 6))
  else none

/-- OP 0x3F of R147. -/
def decodeOp3F (w : Nat) : Option Instr :=
  some (.ext (bfld w 0 26))

/-- The instruction that R147 to R151 assign to a word; none when every row of the map refuses it. -/
def decodeAssigned (w : Nat) : Option Instr :=
  if fld w 26 6 = 0x00 then decodeOp00 w
  else if fld w 26 6 = 0x01 then decodeOp01 w
  else if fld w 26 6 = 0x02 then decodeOp02 w
  else if fld w 26 6 = 0x03 then decodeOp03 w
  else if fld w 26 6 = 0x04 then decodeOp04 w
  else if fld w 26 6 = 0x05 then decodeOp05 w
  else if fld w 26 6 = 0x06 then decodeOp06 w
  else if fld w 26 6 = 0x07 then decodeOp07 w
  else if fld w 26 6 = 0x08 then decodeOp08 w
  else if fld w 26 6 = 0x09 then decodeOp09 w
  else if fld w 26 6 = 0x10 then decodeOp10 w
  else if fld w 26 6 = 0x11 then decodeOp11 w
  else if fld w 26 6 = 0x12 then decodeOp12 w
  else if fld w 26 6 = 0x13 then decodeOp13 w
  else if fld w 26 6 = 0x14 then decodeOp14 w
  else if fld w 26 6 = 0x15 then decodeOp15 w
  else if fld w 26 6 = 0x16 then decodeOp16 w
  else if fld w 26 6 = 0x17 then decodeOp17 w
  else if fld w 26 6 = 0x18 then decodeOp18 w
  else if fld w 26 6 = 0x19 then decodeOp19 w
  else if fld w 26 6 = 0x1C then decodeOp1C w
  else if fld w 26 6 = 0x20 then decodeOp20 w
  else if fld w 26 6 = 0x21 then decodeOp21 w
  else if fld w 26 6 = 0x22 then decodeOp22 w
  else if fld w 26 6 = 0x23 then decodeOp23 w
  else if fld w 26 6 = 0x24 then decodeOp24 w
  else if fld w 26 6 = 0x25 then decodeOp25 w
  else if fld w 26 6 = 0x26 then decodeOp26 w
  else if fld w 26 6 = 0x27 then decodeOp27 w
  else if fld w 26 6 = 0x28 then decodeOp28 w
  else if fld w 26 6 = 0x29 then decodeOp29 w
  else if fld w 26 6 = 0x2A then decodeOp2A w
  else if fld w 26 6 = 0x2B then decodeOp2B w
  else if fld w 26 6 = 0x2C then decodeOp2C w
  else if fld w 26 6 = 0x2D then decodeOp2D w
  else if fld w 26 6 = 0x2E then decodeOp2E w
  else if fld w 26 6 = 0x2F then decodeOp2F w
  else if fld w 26 6 = 0x3F then decodeOp3F w
  else none

/-- The scalar decoder: total; a word that R147 leaves unassigned is an instruction that traps ILLEGAL. -/
def decodeScalar (w : Nat) : Instr := (decodeAssigned w).getD (.unassignedScalarWord (bfld w 0 32))

/-- The four bytes at a scalar address (R141). -/
def decodeScalarBytes (bs : List Byte) : Option Instr :=
  if bs.length = 4 then some (decodeScalar (leNat bs)) else none

/-! ### Lane words -/

/-- The fields of R152. -/
def laneFields (w : Nat) : LaneFields :=
  { mask := bfld w 80 4, rnd := bfld w 77 3, ty := bfld w 73 4, sat := bfld w 72 1, d := bfld w 64 8,
    a := bfld w 56 8, b := bfld w 48 8, stall := bfld w 44 4, post := bfld w 39 5, reuse := bfld w 38 1,
    mod := bfld w 32 6, imm := bfld w 0 32 }

/-- A half of a pair word (R162), from its lowest bit. -/
def pairHalf (w lo : Nat) : PairHalf :=
  { op6 := bfld w (lo + 40) 6, mask := bfld w (lo + 36) 4, rnd2 := bfld w (lo + 34) 2, ty3 := bfld w (lo + 31) 3,
    d := bfld w (lo + 23) 8, a := bfld w (lo + 15) 8, b := bfld w (lo + 7) 8, stall := bfld w (lo + 3) 4,
    rsvd := bfld w lo 3 }

/-- CLASS 0x0 of R159: the instruction of an OP. -/
def decodeClass0 (op : Nat) (f : LaneFields) : Except LaneReject Instr :=
  if op = 0x00 then .ok (.laneIadd f)
  else if op = 0x01 then .ok (.laneIsub f)
  else if op = 0x02 then .ok (.laneImul f)
  else if op = 0x03 then .ok (.laneImulhi f)
  else if op = 0x04 then .ok (.laneImad f)
  else if op = 0x05 then .ok (.laneIdiv f)
  else if op = 0x06 then .ok (.laneIrem f)
  else if op = 0x07 then .ok (.laneImin f)
  else if op = 0x08 then .ok (.laneImax f)
  else if op = 0x09 then .ok (.laneIabs f)
  else if op = 0x0A then .ok (.laneIneg f)
  else if op = 0x0B then .ok (.laneMov f)
  else .error .unassignedOp

/-- CLASS 0x1 of R159: the instruction of an OP. -/
def decodeClass1 (op : Nat) (f : LaneFields) : Except LaneReject Instr :=
  if op = 0x00 then .ok (.laneLfn3 f)
  else if op = 0x01 then .ok (.laneIshl f)
  else if op = 0x02 then .ok (.laneIshr f)
  else if op = 0x03 then .ok (.laneIsar f)
  else if op = 0x04 then .ok (.laneIrot f)
  else if op = 0x05 then .ok (.laneBfext f)
  else if op = 0x06 then .ok (.laneBfins f)
  else if op = 0x07 then .ok (.laneBfrev f)
  else if op = 0x08 then .ok (.lanePopc f)
  else if op = 0x09 then .ok (.laneClz f)
  else if op = 0x0A then .ok (.laneCtz f)
  else .error .unassignedOp

/-- CLASS 0x2 of R159: the instruction of an OP. -/
def decodeClass2 (op : Nat) (f : LaneFields) : Except LaneReject Instr :=
  if op = 0x00 then .ok (.laneIcmp f)
  else if op = 0x01 then .ok (.laneFcmp f)
  else if op = 0x02 then .ok (.laneSel f)
  else if op = 0x03 then .ok (.laneVote f)
  else .error .unassignedOp

/-- CLASS 0x3 of R159: the instruction of an OP. -/
def decodeClass3 (op : Nat) (f : LaneFields) : Except LaneReject Instr :=
  if op = 0x00 then .ok (.laneFadd f)
  else if op = 0x01 then .ok (.laneFsub f)
  else if op = 0x02 then .ok (.laneFmul f)
  else if op = 0x03 then .ok (.laneFfma f)
  else if op = 0x04 then .ok (.laneFmin f)
  else if op = 0x05 then .ok (.laneFmax f)
  else if op = 0x06 then .ok (.laneFabs f)
  else if op = 0x07 then .ok (.laneFneg f)
  else if op = 0x08 then .ok (.laneFclass f)
  else .error .unassignedOp

/-- CLASS 0x4 of R159: the instruction of an OP. -/
def decodeClass4 (op : Nat) (f : LaneFields) : Except LaneReject Instr :=
  if op = 0x00 then .ok (.laneFrcp f)
  else if op = 0x01 then .ok (.laneFrsq f)
  else if op = 0x02 then .ok (.laneFsqrt f)
  else if op = 0x03 then .ok (.laneFexp2 f)
  else if op = 0x04 then .ok (.laneFlog2 f)
  else if op = 0x05 then .ok (.laneFsin f)
  else if op = 0x06 then .ok (.laneFcos f)
  else if op = 0x07 then .ok (.laneFtanh f)
  else .error .unassignedOp

/-- CLASS 0x5 of R159: the instruction of an OP. -/
def decodeClass5 (op : Nat) (f : LaneFields) : Except LaneReject Instr :=
  if op = 0x00 then .ok (.laneCvt f)
  else if op = 0x01 then .ok (.laneFrnd f)
  else .error .unassignedOp

/-- CLASS 0x6 of R159: the instruction of an OP. -/
def decodeClass6 (op : Nat) (f : LaneFields) : Except LaneReject Instr :=
  if op = 0x00 then .ok (.laneBpack f)
  else if op = 0x01 then .ok (.laneBunpack f)
  else if op = 0x02 then .ok (.laneBscale f)
  else if op = 0x03 then .ok (.laneFpres f)
  else if op = 0x04 then .ok (.laneFdflt f)
  else if op = 0x05 then .ok (.laneHist f)
  else .error .unassignedOp

/-- CLASS 0x7 of R159: the instruction of an OP. -/
def decodeClass7 (op : Nat) (f : LaneFields) : Except LaneReject Instr :=
  if op = 0x00 then .ok (.laneShfl f)
  else if op = 0x01 then .ok (.laneQuad f)
  else if op = 0x02 then .ok (.laneWred f)
  else if op = 0x03 then .ok (.laneTred f)
  else .error .unassignedOp

/-- CLASS 0x8 of R159: the instruction of an OP. -/
def decodeClass8 (op : Nat) (f : LaneFields) : Except LaneReject Instr :=
  if op = 0x00 then .ok (.laneLd f)
  else if op = 0x01 then .ok (.laneSt f)
  else if op = 0x02 then .ok (.lanePref f)
  else .error .unassignedOp

/-- CLASS 0x9 of R159: the instruction of an OP. -/
def decodeClass9 (op : Nat) (f : LaneFields) : Except LaneReject Instr :=
  if op = 0x00 then .ok (.laneAtomAdd f)
  else if op = 0x01 then .ok (.laneAtomMin f)
  else if op = 0x02 then .ok (.laneAtomMax f)
  else if op = 0x03 then .ok (.laneAtomAnd f)
  else if op = 0x04 then .ok (.laneAtomOr f)
  else if op = 0x05 then .ok (.laneAtomXor f)
  else if op = 0x06 then .ok (.laneAtomExch f)
  else if op = 0x07 then .ok (.laneAtomCas f)
  else if op = 0x08 then .ok (.laneAtomFadd f)
  else if op = 0x09 then .ok (.laneAtomFmax f)
  else if op = 0x0A then .ok (.laneAtomFmin f)
  else if op = 0x10 then .ok (.laneRedAdd f)
  else if op = 0x11 then .ok (.laneRedMin f)
  else if op = 0x12 then .ok (.laneRedMax f)
  else if op = 0x13 then .ok (.laneRedAnd f)
  else if op = 0x14 then .ok (.laneRedOr f)
  else if op = 0x15 then .ok (.laneRedXor f)
  else if op = 0x18 then .ok (.laneRedFadd f)
  else if op = 0x19 then .ok (.laneRedFmax f)
  else if op = 0x1A then .ok (.laneRedFmin f)
  else .error .unassignedOp

/-- CLASS 0xA of R159: the instruction of an OP. -/
def decodeClassA (op : Nat) (f : LaneFields) : Except LaneReject Instr :=
  if op = 0x00 then .ok (.mma f)
  else if op = 0x01 then .ok (.mmloop f)
  else if op = 0x02 then .ok (.mmzero f)
  else if op = 0x03 then .ok (.mmdrain f)
  else if op = 0x04 then .ok (.mmcheck f)
  else .error .unassignedOp

/-- The lane decoder (R154, R155, R159, R161). -/
def decodeLane (w : Nat) : Except LaneReject Instr :=
  if fld w 92 4 = 0x0 then decodeClass0 (fld w 84 8) (laneFields w)
  else if fld w 92 4 = 0x1 then decodeClass1 (fld w 84 8) (laneFields w)
  else if fld w 92 4 = 0x2 then decodeClass2 (fld w 84 8) (laneFields w)
  else if fld w 92 4 = 0x3 then decodeClass3 (fld w 84 8) (laneFields w)
  else if fld w 92 4 = 0x4 then decodeClass4 (fld w 84 8) (laneFields w)
  else if fld w 92 4 = 0x5 then decodeClass5 (fld w 84 8) (laneFields w)
  else if fld w 92 4 = 0x6 then decodeClass6 (fld w 84 8) (laneFields w)
  else if fld w 92 4 = 0x7 then decodeClass7 (fld w 84 8) (laneFields w)
  else if fld w 92 4 = 0x8 then decodeClass8 (fld w 84 8) (laneFields w)
  else if fld w 92 4 = 0x9 then decodeClass9 (fld w 84 8) (laneFields w)
  else if fld w 92 4 = 0xA then decodeClassA (fld w 84 8) (laneFields w)
  else if fld w 92 4 = 0xF then .ok (.pairWord (pairHalf w 46) (pairHalf w 0))
  else if fld w 92 4 = 0xE then .error .headerClass
  else .error .unassignedClass

/-- The twelve bytes of a lane word (R5). -/
def decodeLaneBytes (bs : List Byte) : Option Instr :=
  if bs.length = 12 then (match decodeLane (leNat bs) with | .ok i => some i | .error _ => none) else none

/-- What the decoder reads from an instruction of `nbits` bits whose bits are `w`: up to 32 bits a scalar word, more a
lane word. -/
def decodeTableWord (nbits w : Nat) : Option Instr :=
  if nbits ≤ 32 then decodeScalarBytes (leBytes 4 w) else decodeLaneBytes (leBytes 12 w)

/-! ### The encoder -/

/-- Place a field at bit `lo`. -/
def put {n : Nat} (x : BitVec n) (lo : Nat) : Nat := x.toNat * 2 ^ lo

/-- The word of a lane instruction of class `cls` and operation `op` (R152). -/
def encodeLane (cls op : Nat) (f : LaneFields) : Nat :=
  cls * 2 ^ 92 + op * 2 ^ 84 + put f.mask 80 + put f.rnd 77 + put f.ty 73 + put f.sat 72 + put f.d 64 + put f.a 56
    + put f.b 48 + put f.stall 44 + put f.post 39 + put f.reuse 38 + put f.mod 32 + put f.imm 0

/-- A half of a pair word, as a 46-bit value (R162). -/
def encodeHalf (h : PairHalf) : Nat :=
  put h.op6 40 + put h.mask 36 + put h.rnd2 34 + put h.ty3 31 + put h.d 23 + put h.a 15 + put h.b 7 + put h.stall 3
    + put h.rsvd 0

/-- How many bits an instruction occupies in memory; 0 for a hardware event, which has no word. -/
def Instr.nbits : Instr → Nat
  | .iadd _ _ _ => 32
  | .isub _ _ _ => 32
  | .imul _ _ _ => 32
  | .imulh _ _ _ => 32
  | .imulhu _ _ _ => 32
  | .idiv _ _ _ => 32
  | .idivu _ _ _ => 32
  | .irem _ _ _ => 32
  | .iremu _ _ _ => 32
  | .and _ _ _ => 32
  | .or _ _ _ => 32
  | .xor _ _ _ => 32
  | .shl _ _ _ => 32
  | .shr _ _ _ => 32
  | .sar _ _ _ => 32
  | .imin _ _ _ => 32
  | .imax _ _ _ => 32
  | .iminu _ _ _ => 32
  | .imaxu _ _ _ => 32
  | .cmp _ _ => 32
  | .sxt8 _ _ => 32
  | .sxt16 _ _ => 32
  | .sxt32 _ _ => 32
  | .selCc _ _ _ _ => 32
  | .iaddi _ _ _ => 32
  | .imuli _ _ _ => 32
  | .andi _ _ _ => 32
  | .ori _ _ _ => 32
  | .xori _ _ _ => 32
  | .shli _ _ _ => 32
  | .shri _ _ _ => 32
  | .sari _ _ _ => 32
  | .cmpi _ _ => 32
  | .brCc _ _ => 32
  | .call _ => 32
  | .jr _ => 32
  | .callr _ => 32
  | .ret => 32
  | .dbnz _ _ => 32
  | .ldS _ _ _ _ _ _ => 32
  | .ldG _ _ _ _ _ _ => 32
  | .stS _ _ _ _ _ _ => 32
  | .stG _ _ _ _ _ _ => 32
  | .atomAddS _ _ _ _ => 32
  | .atomMinS _ _ _ _ => 32
  | .atomMaxS _ _ _ _ => 32
  | .atomMinuS _ _ _ _ => 32
  | .atomMaxuS _ _ _ _ => 32
  | .atomAndS _ _ _ _ => 32
  | .atomOrS _ _ _ _ => 32
  | .atomXorS _ _ _ _ => 32
  | .atomExchS _ _ _ _ => 32
  | .atomCasS _ _ _ _ => 32
  | .atomFaddS _ _ _ => 32
  | .atomFmaxS _ _ _ => 32
  | .atomFminS _ _ _ => 32
  | .atomAddG _ _ _ _ => 32
  | .atomMinG _ _ _ _ => 32
  | .atomMaxG _ _ _ _ => 32
  | .atomMinuG _ _ _ _ => 32
  | .atomMaxuG _ _ _ _ => 32
  | .atomAndG _ _ _ _ => 32
  | .atomOrG _ _ _ _ => 32
  | .atomXorG _ _ _ _ => 32
  | .atomExchG _ _ _ _ => 32
  | .atomCasG _ _ _ _ => 32
  | .atomFaddG _ _ _ => 32
  | .atomFmaxG _ _ _ => 32
  | .atomFminG _ _ _ => 32
  | .faddF32 _ _ _ _ => 32
  | .fsubF32 _ _ _ _ => 32
  | .fmulF32 _ _ _ _ => 32
  | .ffmaF32 _ _ _ _ => 32
  | .fminF32 _ _ _ => 32
  | .fmaxF32 _ _ _ => 32
  | .fcmpF32 _ _ => 32
  | .cvtF32S32 _ _ _ => 32
  | .cvtS32F32 _ _ _ => 32
  | .lrun _ => 32
  | .lrunr _ => 32
  | .lsync => 32
  | .lqcnt _ => 32
  | .wait _ _ => 32
  | .tkrd _ _ => 32
  | .fmtset _ => 32
  | .fmtget _ => 32
  | .srseed _ _ => 32
  | .mand _ _ _ => 32
  | .mor _ _ _ => 32
  | .mxor _ _ _ => 32
  | .mnot _ _ => 32
  | .mcount _ _ => 32
  | .mfirst _ _ => 32
  | .mtest _ => 32
  | .mset _ _ _ => 32
  | .qset _ _ _ => 32
  | .qget _ _ _ => 32
  | .bar _ _ => 32
  | .barGang _ _ => 32
  | .stexp _ _ => 32
  | .starr _ _ => 32
  | .sttest _ _ _ _ => 32
  | .stwait _ _ _ _ => 32
  | .yield _ _ _ => 32
  | .mwait _ _ _ => 32
  | .fence _ _ => 32
  | .sub _ _ _ => 32
  | .unsub _ _ => 32
  | .subflush _ _ => 32
  | .launch _ _ => 32
  | .cget _ _ => 32
  | .cset _ _ => 32
  | .tlbw _ _ _ => 32
  | .tlbi _ => 32
  | .tlbrW0 _ _ => 32
  | .tlbrW1 _ _ => 32
  | .nop => 32
  | .halt => 32
  | .eret => 32
  | .brk => 32
  | .trap _ _ => 32
  | .mark _ => 32
  | .ext _ => 32
  | .unassignedScalarWord _ => 32
  | .laneIadd _ => 96
  | .laneIsub _ => 96
  | .laneImul _ => 96
  | .laneImulhi _ => 96
  | .laneImad _ => 96
  | .laneIdiv _ => 96
  | .laneIrem _ => 96
  | .laneImin _ => 96
  | .laneImax _ => 96
  | .laneIabs _ => 96
  | .laneIneg _ => 96
  | .laneMov _ => 96
  | .laneLfn3 _ => 96
  | .laneIshl _ => 96
  | .laneIshr _ => 96
  | .laneIsar _ => 96
  | .laneIrot _ => 96
  | .laneBfext _ => 96
  | .laneBfins _ => 96
  | .laneBfrev _ => 96
  | .lanePopc _ => 96
  | .laneClz _ => 96
  | .laneCtz _ => 96
  | .laneIcmp _ => 96
  | .laneFcmp _ => 96
  | .laneSel _ => 96
  | .laneVote _ => 96
  | .laneFadd _ => 96
  | .laneFsub _ => 96
  | .laneFmul _ => 96
  | .laneFfma _ => 96
  | .laneFmin _ => 96
  | .laneFmax _ => 96
  | .laneFabs _ => 96
  | .laneFneg _ => 96
  | .laneFclass _ => 96
  | .laneFrcp _ => 96
  | .laneFrsq _ => 96
  | .laneFsqrt _ => 96
  | .laneFexp2 _ => 96
  | .laneFlog2 _ => 96
  | .laneFsin _ => 96
  | .laneFcos _ => 96
  | .laneFtanh _ => 96
  | .laneCvt _ => 96
  | .laneFrnd _ => 96
  | .laneBpack _ => 96
  | .laneBunpack _ => 96
  | .laneBscale _ => 96
  | .laneFpres _ => 96
  | .laneFdflt _ => 96
  | .laneHist _ => 96
  | .laneShfl _ => 96
  | .laneQuad _ => 96
  | .laneWred _ => 96
  | .laneTred _ => 96
  | .laneLd _ => 96
  | .laneSt _ => 96
  | .lanePref _ => 96
  | .laneAtomAdd _ => 96
  | .laneAtomMin _ => 96
  | .laneAtomMax _ => 96
  | .laneAtomAnd _ => 96
  | .laneAtomOr _ => 96
  | .laneAtomXor _ => 96
  | .laneAtomExch _ => 96
  | .laneAtomCas _ => 96
  | .laneAtomFadd _ => 96
  | .laneAtomFmax _ => 96
  | .laneAtomFmin _ => 96
  | .laneRedAdd _ => 96
  | .laneRedMin _ => 96
  | .laneRedMax _ => 96
  | .laneRedAnd _ => 96
  | .laneRedOr _ => 96
  | .laneRedXor _ => 96
  | .laneRedFadd _ => 96
  | .laneRedFmax _ => 96
  | .laneRedFmin _ => 96
  | .mma _ => 96
  | .mmloop _ => 96
  | .mmzero _ => 96
  | .mmdrain _ => 96
  | .mmcheck _ => 96
  | .pairWord _ _ => 96
  | .queueEnable _ _ => 0
  | .submit _ _ _ => 0
  | .launchPacket _ => 0
  | .revocationRequest _ _ => 0
  | .resourceSeizure _ _ _ => 0
  | .resourceGrant _ _ _ _ => 0
  | .claimRequest _ _ _ => 0
  | .claimRelease _ _ _ => 0
  | .claimDeadline _ _ => 0
  | .haltctlHalt _ _ _ _ => 0
  | .haltctlResume _ _ _ _ => 0
  | .haltctlStep _ _ _ _ => 0
  | .haltctlSave _ _ _ _ => 0
  | .traceEnable _ _ => 0
  | .rollCallEnable _ _ _ => 0
  | .counterSave _ _ => 0
  | .counterLoad _ _ => 0
  | .strike _ => 0
  | .selfTest _ _ _ => 0
  | .partitionJoin _ => 0
  | .quiesce _ _ => 0
  | .ptmExchange _ => 0
  | .telemetryRefresh _ => 0
  | .registerWrite _ _ _ => 0
  | .fixedLatencyWriteBack => 0
  | .loadDelivery => 0
  | .atomicReturn => 0
  | .reductionComplete => 0
  | .storeDelayDeparture => 0
  | .writePerformed => 0
  | .reductionLinePerformed => 0
  | .matrixCommandStart => 0
  | .matrixStep => 0
  | .matrixCommandComplete => 0
  | .crewArrival => 0
  | .ferryGo => 0
  | .ferryLinePerformed => 0
  | .postcardClose => 0
  | .postcardApplication => 0
  | .trapEntry => 0
  | .escalation => 0
  | .dispatcherRound => 0
  | .headAgeExpiry => 0
  | .yieldDeadline => 0
  | .teamSave => 0
  | .queuePeriodExpiry => 0
  | .budgetOverrun => 0
  | .revocationReply => 0
  | .revocationDeadline => 0
  | .escalationEnd => 0
  | .escalationResume => 0
  | .escalationSave => 0
  | .wctlKeyLoad => 0
  | .wctlKeyErase => 0
  | .wctlGo => 0
  | .rotationLine => 0
  | .frameEvict => 0
  | .frameReturn => 0
  | .frameScrub => 0
  | .boot => 0
  | .powerLoss => 0
  | .thermalTrip => 0
  | .attestationReport => 0
  | .rollCallSample => 0
  | .lifetimeFlush => 0
  | .errorBlockClear => 0
  | .flitCrcFailure => 0
  | .linkUp => 0
  | .fabricRequestGiveUp => 0
  | .stopped => 0
  | .fabricResume => 0
  | .clockReduction => 0
  | .clockRaise => 0
  | .prefetchFetchEnded => 0
  | .linkGoesDown => 0
  | .orderlyShutdown => 0

/-- The word of an instruction; 0 for a hardware event. -/
def encode : Instr → Nat
  | .iadd d a b => 0x00000000 + put d 20 + put a 14 + put b 8
  | .isub d a b => 0x00000001 + put d 20 + put a 14 + put b 8
  | .imul d a b => 0x00000002 + put d 20 + put a 14 + put b 8
  | .imulh d a b => 0x00000003 + put d 20 + put a 14 + put b 8
  | .imulhu d a b => 0x00000004 + put d 20 + put a 14 + put b 8
  | .idiv d a b => 0x00000005 + put d 20 + put a 14 + put b 8
  | .idivu d a b => 0x00000006 + put d 20 + put a 14 + put b 8
  | .irem d a b => 0x00000007 + put d 20 + put a 14 + put b 8
  | .iremu d a b => 0x00000008 + put d 20 + put a 14 + put b 8
  | .and d a b => 0x00000009 + put d 20 + put a 14 + put b 8
  | .or d a b => 0x0000000A + put d 20 + put a 14 + put b 8
  | .xor d a b => 0x0000000B + put d 20 + put a 14 + put b 8
  | .shl d a b => 0x0000000C + put d 20 + put a 14 + put b 8
  | .shr d a b => 0x0000000D + put d 20 + put a 14 + put b 8
  | .sar d a b => 0x0000000E + put d 20 + put a 14 + put b 8
  | .imin d a b => 0x0000000F + put d 20 + put a 14 + put b 8
  | .imax d a b => 0x00000010 + put d 20 + put a 14 + put b 8
  | .iminu d a b => 0x00000011 + put d 20 + put a 14 + put b 8
  | .imaxu d a b => 0x00000012 + put d 20 + put a 14 + put b 8
  | .cmp a b => 0x00000013 + put a 14 + put b 8
  | .sxt8 d a => 0x00000014 + put d 20 + put a 14
  | .sxt16 d a => 0x00000015 + put d 20 + put a 14
  | .sxt32 d a => 0x00000016 + put d 20 + put a 14
  | .selCc d a b c => 0x00000020 + put d 20 + put a 14 + put b 8 + put c 0
  | .iaddi d a i => 0x04000000 + put d 20 + put a 14 + put i 0
  | .imuli d a i => 0x08000000 + put d 20 + put a 14 + put i 0
  | .andi d a i => 0x0C000000 + put d 20 + put a 14 + put i 0
  | .ori d a i => 0x10000000 + put d 20 + put a 14 + put i 0
  | .xori d a i => 0x14000000 + put d 20 + put a 14 + put i 0
  | .shli d a n => 0x18000000 + put d 20 + put a 14 + put n 0
  | .shri d a n => 0x1C000000 + put d 20 + put a 14 + put n 0
  | .sari d a n => 0x20000000 + put d 20 + put a 14 + put n 0
  | .cmpi a i => 0x24000000 + put a 14 + put i 0
  | .brCc c d => 0x40000000 + put c 22 + put d 0
  | .call d => 0x44000000 + put d 0
  | .jr a => 0x48000000 + put a 14
  | .callr a => 0x48000001 + put a 14
  | .ret => 0x48000002
  | .dbnz d i => 0x4C000000 + put d 20 + put i 0
  | .ldS d a b s c z => 0x50000000 + put d 20 + put a 14 + put b 8 + put s 4 + put c 2 + put z 0
  | .ldG d a b s c z => 0x54000000 + put d 20 + put a 14 + put b 8 + put s 4 + put c 2 + put z 0
  | .stS d a b s c z => 0x58000000 + put d 20 + put a 14 + put b 8 + put s 4 + put c 2 + put z 0
  | .stG d a b s c z => 0x5C000000 + put d 20 + put a 14 + put b 8 + put s 4 + put c 2 + put z 0
  | .atomAddS d a b z => 0x60000000 + put d 20 + put a 14 + put b 8 + put z 3
  | .atomMinS d a b z => 0x60000010 + put d 20 + put a 14 + put b 8 + put z 3
  | .atomMaxS d a b z => 0x60000020 + put d 20 + put a 14 + put b 8 + put z 3
  | .atomMinuS d a b z => 0x60000030 + put d 20 + put a 14 + put b 8 + put z 3
  | .atomMaxuS d a b z => 0x60000040 + put d 20 + put a 14 + put b 8 + put z 3
  | .atomAndS d a b z => 0x60000050 + put d 20 + put a 14 + put b 8 + put z 3
  | .atomOrS d a b z => 0x60000060 + put d 20 + put a 14 + put b 8 + put z 3
  | .atomXorS d a b z => 0x60000070 + put d 20 + put a 14 + put b 8 + put z 3
  | .atomExchS d a b z => 0x60000080 + put d 20 + put a 14 + put b 8 + put z 3
  | .atomCasS d a b z => 0x60000090 + put d 20 + put a 14 + put b 8 + put z 3
  | .atomFaddS d a b => 0x600000A0 + put d 20 + put a 14 + put b 8
  | .atomFmaxS d a b => 0x600000B0 + put d 20 + put a 14 + put b 8
  | .atomFminS d a b => 0x600000C0 + put d 20 + put a 14 + put b 8
  | .atomAddG d a b z => 0x64000000 + put d 20 + put a 14 + put b 8 + put z 3
  | .atomMinG d a b z => 0x64000010 + put d 20 + put a 14 + put b 8 + put z 3
  | .atomMaxG d a b z => 0x64000020 + put d 20 + put a 14 + put b 8 + put z 3
  | .atomMinuG d a b z => 0x64000030 + put d 20 + put a 14 + put b 8 + put z 3
  | .atomMaxuG d a b z => 0x64000040 + put d 20 + put a 14 + put b 8 + put z 3
  | .atomAndG d a b z => 0x64000050 + put d 20 + put a 14 + put b 8 + put z 3
  | .atomOrG d a b z => 0x64000060 + put d 20 + put a 14 + put b 8 + put z 3
  | .atomXorG d a b z => 0x64000070 + put d 20 + put a 14 + put b 8 + put z 3
  | .atomExchG d a b z => 0x64000080 + put d 20 + put a 14 + put b 8 + put z 3
  | .atomCasG d a b z => 0x64000090 + put d 20 + put a 14 + put b 8 + put z 3
  | .atomFaddG d a b => 0x640000A0 + put d 20 + put a 14 + put b 8
  | .atomFmaxG d a b => 0x640000B0 + put d 20 + put a 14 + put b 8
  | .atomFminG d a b => 0x640000C0 + put d 20 + put a 14 + put b 8
  | .faddF32 d a b r => 0x70000000 + put d 20 + put a 14 + put b 8 + put r 0
  | .fsubF32 d a b r => 0x70000008 + put d 20 + put a 14 + put b 8 + put r 0
  | .fmulF32 d a b r => 0x70000010 + put d 20 + put a 14 + put b 8 + put r 0
  | .ffmaF32 d a b r => 0x70000018 + put d 20 + put a 14 + put b 8 + put r 0
  | .fminF32 d a b => 0x70000020 + put d 20 + put a 14 + put b 8
  | .fmaxF32 d a b => 0x70000028 + put d 20 + put a 14 + put b 8
  | .fcmpF32 a b => 0x70000030 + put a 14 + put b 8
  | .cvtF32S32 d a r => 0x70000038 + put d 20 + put a 14 + put r 0
  | .cvtS32F32 d a r => 0x70000040 + put d 20 + put a 14 + put r 0
  | .lrun d => 0x80000000 + put d 0
  | .lrunr a => 0x84000000 + put a 14
  | .lsync => 0x84000001
  | .lqcnt d => 0x84000002 + put d 20
  | .wait k n => 0x88000000 + put k 20 + put n 0
  | .tkrd d k => 0x8C000000 + put d 20 + put k 0
  | .fmtset a => 0x90000000 + put a 14
  | .fmtget d => 0x90000001 + put d 20
  | .srseed a b => 0x90000002 + put a 14 + put b 8
  | .mand d a b => 0x94000000 + put d 20 + put a 14 + put b 8
  | .mor d a b => 0x94000001 + put d 20 + put a 14 + put b 8
  | .mxor d a b => 0x94000002 + put d 20 + put a 14 + put b 8
  | .mnot d a => 0x94000003 + put d 20 + put a 14
  | .mcount d a => 0x94000004 + put d 20 + put a 14
  | .mfirst d a => 0x94000005 + put d 20 + put a 14
  | .mtest a => 0x94000006 + put a 14
  | .mset d a b => 0x94000007 + put d 20 + put a 14 + put b 8
  | .qset a b f => 0x98000000 + put a 14 + put b 8 + put f 0
  | .qget d b f => 0x98000010 + put d 20 + put b 8 + put f 0
  | .bar d n => 0x9C000000 + put d 20 + put n 0
  | .barGang d n => 0x9C000010 + put d 20 + put n 0
  | .stexp a b => 0xA0000000 + put a 14 + put b 8
  | .starr a s => 0xA0000001 + put a 14 + put s 4
  | .sttest d a b s => 0xA0000002 + put d 20 + put a 14 + put b 8 + put s 4
  | .stwait d a b s => 0xA0000003 + put d 20 + put a 14 + put b 8 + put s 4
  | .yield d a b => 0xA4000000 + put d 20 + put a 14 + put b 8
  | .mwait d a b => 0xA4000001 + put d 20 + put a 14 + put b 8
  | .fence s c => 0xA8000000 + put s 4 + put c 2
  | .sub d a b => 0xAC000000 + put d 20 + put a 14 + put b 8
  | .unsub d a => 0xAC000001 + put d 20 + put a 14
  | .subflush d a => 0xAC000002 + put d 20 + put a 14
  | .launch d a => 0xB0000000 + put d 20 + put a 14
  | .cget d r => 0xB4000000 + put d 20 + put r 8
  | .cset a r => 0xB4000001 + put a 14 + put r 8
  | .tlbw d a b => 0xB8000000 + put d 20 + put a 14 + put b 8
  | .tlbi a => 0xB8000001 + put a 14
  | .tlbrW0 d a => 0xB8000002 + put d 20 + put a 14
  | .tlbrW1 d a => 0xB8000102 + put d 20 + put a 14
  | .nop => 0xBC000000
  | .halt => 0xBC000001
  | .eret => 0xBC000002
  | .brk => 0xBC000003
  | .trap a b => 0xBC000004 + put a 14 + put b 8
  | .mark a => 0xBC000005 + put a 14
  | .ext i => 0xFC000000 + put i 0
  | .unassignedScalarWord word => word.toNat
  | .laneIadd f => encodeLane 0x0 0x00 f
  | .laneIsub f => encodeLane 0x0 0x01 f
  | .laneImul f => encodeLane 0x0 0x02 f
  | .laneImulhi f => encodeLane 0x0 0x03 f
  | .laneImad f => encodeLane 0x0 0x04 f
  | .laneIdiv f => encodeLane 0x0 0x05 f
  | .laneIrem f => encodeLane 0x0 0x06 f
  | .laneImin f => encodeLane 0x0 0x07 f
  | .laneImax f => encodeLane 0x0 0x08 f
  | .laneIabs f => encodeLane 0x0 0x09 f
  | .laneIneg f => encodeLane 0x0 0x0A f
  | .laneMov f => encodeLane 0x0 0x0B f
  | .laneLfn3 f => encodeLane 0x1 0x00 f
  | .laneIshl f => encodeLane 0x1 0x01 f
  | .laneIshr f => encodeLane 0x1 0x02 f
  | .laneIsar f => encodeLane 0x1 0x03 f
  | .laneIrot f => encodeLane 0x1 0x04 f
  | .laneBfext f => encodeLane 0x1 0x05 f
  | .laneBfins f => encodeLane 0x1 0x06 f
  | .laneBfrev f => encodeLane 0x1 0x07 f
  | .lanePopc f => encodeLane 0x1 0x08 f
  | .laneClz f => encodeLane 0x1 0x09 f
  | .laneCtz f => encodeLane 0x1 0x0A f
  | .laneIcmp f => encodeLane 0x2 0x00 f
  | .laneFcmp f => encodeLane 0x2 0x01 f
  | .laneSel f => encodeLane 0x2 0x02 f
  | .laneVote f => encodeLane 0x2 0x03 f
  | .laneFadd f => encodeLane 0x3 0x00 f
  | .laneFsub f => encodeLane 0x3 0x01 f
  | .laneFmul f => encodeLane 0x3 0x02 f
  | .laneFfma f => encodeLane 0x3 0x03 f
  | .laneFmin f => encodeLane 0x3 0x04 f
  | .laneFmax f => encodeLane 0x3 0x05 f
  | .laneFabs f => encodeLane 0x3 0x06 f
  | .laneFneg f => encodeLane 0x3 0x07 f
  | .laneFclass f => encodeLane 0x3 0x08 f
  | .laneFrcp f => encodeLane 0x4 0x00 f
  | .laneFrsq f => encodeLane 0x4 0x01 f
  | .laneFsqrt f => encodeLane 0x4 0x02 f
  | .laneFexp2 f => encodeLane 0x4 0x03 f
  | .laneFlog2 f => encodeLane 0x4 0x04 f
  | .laneFsin f => encodeLane 0x4 0x05 f
  | .laneFcos f => encodeLane 0x4 0x06 f
  | .laneFtanh f => encodeLane 0x4 0x07 f
  | .laneCvt f => encodeLane 0x5 0x00 f
  | .laneFrnd f => encodeLane 0x5 0x01 f
  | .laneBpack f => encodeLane 0x6 0x00 f
  | .laneBunpack f => encodeLane 0x6 0x01 f
  | .laneBscale f => encodeLane 0x6 0x02 f
  | .laneFpres f => encodeLane 0x6 0x03 f
  | .laneFdflt f => encodeLane 0x6 0x04 f
  | .laneHist f => encodeLane 0x6 0x05 f
  | .laneShfl f => encodeLane 0x7 0x00 f
  | .laneQuad f => encodeLane 0x7 0x01 f
  | .laneWred f => encodeLane 0x7 0x02 f
  | .laneTred f => encodeLane 0x7 0x03 f
  | .laneLd f => encodeLane 0x8 0x00 f
  | .laneSt f => encodeLane 0x8 0x01 f
  | .lanePref f => encodeLane 0x8 0x02 f
  | .laneAtomAdd f => encodeLane 0x9 0x00 f
  | .laneAtomMin f => encodeLane 0x9 0x01 f
  | .laneAtomMax f => encodeLane 0x9 0x02 f
  | .laneAtomAnd f => encodeLane 0x9 0x03 f
  | .laneAtomOr f => encodeLane 0x9 0x04 f
  | .laneAtomXor f => encodeLane 0x9 0x05 f
  | .laneAtomExch f => encodeLane 0x9 0x06 f
  | .laneAtomCas f => encodeLane 0x9 0x07 f
  | .laneAtomFadd f => encodeLane 0x9 0x08 f
  | .laneAtomFmax f => encodeLane 0x9 0x09 f
  | .laneAtomFmin f => encodeLane 0x9 0x0A f
  | .laneRedAdd f => encodeLane 0x9 0x10 f
  | .laneRedMin f => encodeLane 0x9 0x11 f
  | .laneRedMax f => encodeLane 0x9 0x12 f
  | .laneRedAnd f => encodeLane 0x9 0x13 f
  | .laneRedOr f => encodeLane 0x9 0x14 f
  | .laneRedXor f => encodeLane 0x9 0x15 f
  | .laneRedFadd f => encodeLane 0x9 0x18 f
  | .laneRedFmax f => encodeLane 0x9 0x19 f
  | .laneRedFmin f => encodeLane 0x9 0x1A f
  | .mma f => encodeLane 0xA 0x00 f
  | .mmloop f => encodeLane 0xA 0x01 f
  | .mmzero f => encodeLane 0xA 0x02 f
  | .mmdrain f => encodeLane 0xA 0x03 f
  | .mmcheck f => encodeLane 0xA 0x04 f
  | .pairWord x y => 0xF * 2 ^ 92 + encodeHalf x * 2 ^ 46 + encodeHalf y
  | .queueEnable _ _ => 0
  | .submit _ _ _ => 0
  | .launchPacket _ => 0
  | .revocationRequest _ _ => 0
  | .resourceSeizure _ _ _ => 0
  | .resourceGrant _ _ _ _ => 0
  | .claimRequest _ _ _ => 0
  | .claimRelease _ _ _ => 0
  | .claimDeadline _ _ => 0
  | .haltctlHalt _ _ _ _ => 0
  | .haltctlResume _ _ _ _ => 0
  | .haltctlStep _ _ _ _ => 0
  | .haltctlSave _ _ _ _ => 0
  | .traceEnable _ _ => 0
  | .rollCallEnable _ _ _ => 0
  | .counterSave _ _ => 0
  | .counterLoad _ _ => 0
  | .strike _ => 0
  | .selfTest _ _ _ => 0
  | .partitionJoin _ => 0
  | .quiesce _ _ => 0
  | .ptmExchange _ => 0
  | .telemetryRefresh _ => 0
  | .registerWrite _ _ _ => 0
  | .fixedLatencyWriteBack => 0
  | .loadDelivery => 0
  | .atomicReturn => 0
  | .reductionComplete => 0
  | .storeDelayDeparture => 0
  | .writePerformed => 0
  | .reductionLinePerformed => 0
  | .matrixCommandStart => 0
  | .matrixStep => 0
  | .matrixCommandComplete => 0
  | .crewArrival => 0
  | .ferryGo => 0
  | .ferryLinePerformed => 0
  | .postcardClose => 0
  | .postcardApplication => 0
  | .trapEntry => 0
  | .escalation => 0
  | .dispatcherRound => 0
  | .headAgeExpiry => 0
  | .yieldDeadline => 0
  | .teamSave => 0
  | .queuePeriodExpiry => 0
  | .budgetOverrun => 0
  | .revocationReply => 0
  | .revocationDeadline => 0
  | .escalationEnd => 0
  | .escalationResume => 0
  | .escalationSave => 0
  | .wctlKeyLoad => 0
  | .wctlKeyErase => 0
  | .wctlGo => 0
  | .rotationLine => 0
  | .frameEvict => 0
  | .frameReturn => 0
  | .frameScrub => 0
  | .boot => 0
  | .powerLoss => 0
  | .thermalTrip => 0
  | .attestationReport => 0
  | .rollCallSample => 0
  | .lifetimeFlush => 0
  | .errorBlockClear => 0
  | .flitCrcFailure => 0
  | .linkUp => 0
  | .fabricRequestGiveUp => 0
  | .stopped => 0
  | .fabricResume => 0
  | .clockReduction => 0
  | .clockRaise => 0
  | .prefetchFetchEnded => 0
  | .linkGoesDown => 0
  | .orderlyShutdown => 0

/-- The bytes of an instruction as memory holds them (R5). -/
def encodeBytes (i : Instr) : List Byte := leBytes (i.nbits / 8) (encode i)

end Sys2Proof
end

