-- ==== Sys2Proof/Machine/Crypto.lean ====
section
/-!
DEFINITION. Machine/Crypto.lean: the public standards that the spec names: SHA-384 (FIPS 180-4), AES-256 (FIPS 197),
XTS-AES-256 (IEEE 1619), AES-CMAC (SP 800-38B), and ECDSA on brainpoolP384r1 (RFC 5639) with SHA-384 (R412, R417, R418,
R420). How the spec's values become the byte strings of these standards is the model's choice (log entry 8).
-/

namespace Sys2Proof.Machine

/-- A number as `n` bytes, most significant first. -/
def beBytes (n x : Nat) : List Byte := (leBytes n x).reverse

/-- Bytes as a number, most significant first. -/
def beNat (bs : List Byte) : Nat := bs.foldl (fun x b => 256 * x + b.toNat) 0

/-- A list in pieces of `n`; at most `fuel` of them. -/
def chunks {α : Type} (n : Nat) : Nat → List α → List (List α)
  | 0, _ => []
  | fuel + 1, xs => if xs.isEmpty then [] else xs.take n :: chunks n fuel (xs.drop n)

/-! ### SHA-384 (FIPS 180-4) -/

/-- The round constants: fractions of the cube roots of the first 80 primes. -/
def shaK0 : List Word :=
  [0x428A2F98D728AE22#64, 0x7137449123EF65CD#64, 0xB5C0FBCFEC4D3B2F#64, 0xE9B5DBA58189DBBC#64, 0x3956C25BF348B538#64,
   0x59F111F1B605D019#64, 0x923F82A4AF194F9B#64, 0xAB1C5ED5DA6D8118#64, 0xD807AA98A3030242#64, 0x12835B0145706FBE#64,
   0x243185BE4EE4B28C#64, 0x550C7DC3D5FFB4E2#64, 0x72BE5D74F27B896F#64, 0x80DEB1FE3B1696B1#64, 0x9BDC06A725C71235#64,
   0xC19BF174CF692694#64, 0xE49B69C19EF14AD2#64, 0xEFBE4786384F25E3#64, 0x0FC19DC68B8CD5B5#64, 0x240CA1CC77AC9C65#64]

def shaK1 : List Word :=
  [0x2DE92C6F592B0275#64, 0x4A7484AA6EA6E483#64, 0x5CB0A9DCBD41FBD4#64, 0x76F988DA831153B5#64, 0x983E5152EE66DFAB#64,
   0xA831C66D2DB43210#64, 0xB00327C898FB213F#64, 0xBF597FC7BEEF0EE4#64, 0xC6E00BF33DA88FC2#64, 0xD5A79147930AA725#64,
   0x06CA6351E003826F#64, 0x142929670A0E6E70#64, 0x27B70A8546D22FFC#64, 0x2E1B21385C26C926#64, 0x4D2C6DFC5AC42AED#64,
   0x53380D139D95B3DF#64, 0x650A73548BAF63DE#64, 0x766A0ABB3C77B2A8#64, 0x81C2C92E47EDAEE6#64, 0x92722C851482353B#64]

def shaK2 : List Word :=
  [0xA2BFE8A14CF10364#64, 0xA81A664BBC423001#64, 0xC24B8B70D0F89791#64, 0xC76C51A30654BE30#64, 0xD192E819D6EF5218#64,
   0xD69906245565A910#64, 0xF40E35855771202A#64, 0x106AA07032BBD1B8#64, 0x19A4C116B8D2D0C8#64, 0x1E376C085141AB53#64,
   0x2748774CDF8EEB99#64, 0x34B0BCB5E19B48A8#64, 0x391C0CB3C5C95A63#64, 0x4ED8AA4AE3418ACB#64, 0x5B9CCA4F7763E373#64,
   0x682E6FF3D6B2B8A3#64, 0x748F82EE5DEFB2FC#64, 0x78A5636F43172F60#64, 0x84C87814A1F0AB72#64, 0x8CC702081A6439EC#64]

def shaK3 : List Word :=
  [0x90BEFFFA23631E28#64, 0xA4506CEBDE82BDE9#64, 0xBEF9A3F7B2C67915#64, 0xC67178F2E372532B#64, 0xCA273ECEEA26619C#64,
   0xD186B8C721C0C207#64, 0xEADA7DD6CDE0EB1E#64, 0xF57D4F7FEE6ED178#64, 0x06F067AA72176FBA#64, 0x0A637DC5A2C898A6#64,
   0x113F9804BEF90DAE#64, 0x1B710B35131C471B#64, 0x28DB77F523047D84#64, 0x32CAAB7B40C72493#64, 0x3C9EBE0A15C9BEBC#64,
   0x431D67C49C100D4C#64, 0x4CC5D4BECB3E42B6#64, 0x597F299CFC657E2A#64, 0x5FCB6FAB3AD6FAEC#64, 0x6C44198C4A475817#64]

def shaK : List Word := shaK0 ++ shaK1 ++ shaK2 ++ shaK3

/-- The initial hash value: fractions of the square roots of the ninth to sixteenth primes. -/
def shaInit : List Word :=
  [0xCBBB9D5DC1059ED8#64, 0x629A292A367CD507#64, 0x9159015A3070DD17#64, 0x152FECD8F70E5939#64, 0x67332667FFC00B31#64,
   0x8EB44A8768581511#64, 0xDB0C2E0D64F98FA7#64, 0x47B5481DBEFA4FA4#64]

/-- The message with its padding. -/
def shaPad (bs : List Byte) : List Byte :=
  bs ++ [0x80#8] ++ List.replicate ((239 - bs.length % 128) % 128) 0#8 ++ beBytes 16 (8 * bs.length)

/-- One more word of the message schedule, which is kept latest first. -/
def shaNext (w : List Word) : List Word :=
  let a := w.getD 1 0
  let b := w.getD 14 0
  ((a.rotateRight 19 ^^^ a.rotateRight 61 ^^^ a >>> 6) + w.getD 6 0
    + (b.rotateRight 1 ^^^ b.rotateRight 8 ^^^ b >>> 7) + w.getD 15 0) :: w

/-- The 80 words of the schedule of a block. -/
def shaSchedule (block : List Byte) : List Word :=
  let first := (chunks 8 16 block).map fun b => BitVec.ofNat 64 (beNat b)
  ((List.range 64).foldl (fun w _ => shaNext w) first.reverse).reverse

/-- One round on the eight working variables. -/
def shaRound (v : List Word) (kw : Word × Word) : List Word :=
  match v with
  | [a, b, c, d, e, f, g, h] =>
    let t1 := h + (e.rotateRight 14 ^^^ e.rotateRight 18 ^^^ e.rotateRight 41) + (e &&& f ^^^ (~~~e) &&& g) + kw.1 + kw.2
    let t2 := (a.rotateRight 28 ^^^ a.rotateRight 34 ^^^ a.rotateRight 39) + (a &&& b ^^^ a &&& c ^^^ b &&& c)
    [t1 + t2, a, b, c, d + t1, e, f, g]
  | _ => v

def shaBlock (h : List Word) (block : List Byte) : List Word :=
  List.zipWith (· + ·) h ((shaK.zip (shaSchedule block)).foldl shaRound h)

/-- SHA-384, as a number whose most significant byte is the first. -/
def sha384 (bs : List Byte) : BitVec 384 :=
  let m := shaPad bs
  let h := (chunks 128 (m.length / 128) m).foldl shaBlock shaInit
  BitVec.ofNat 384 ((h.take 6).foldl (fun x w => 2 ^ 64 * x + w.toNat) 0)

/-- A hash as its 48 bytes in order. -/
def hashBytes (h : BitVec 384) : List Byte := beBytes 48 h.toNat

/-! ### AES-256 (FIPS 197) -/

/-- Multiplication by x in GF(2^8). -/
def xtime (a : Byte) : Byte := (a <<< 1) ^^^ (if a.getLsbD 7 then 0x1B#8 else 0#8)

/-- Multiplication in GF(2^8). -/
def gmul (a b : Byte) : Byte :=
  ((List.range 8).foldl (fun (x : Byte × Byte) i => (if b.getLsbD i then x.1 ^^^ x.2 else x.1, xtime x.2)) (0#8, a)).1

/-- The S-box of FIPS 197, the byte in row r and column c at index 16 r + c. -/
def sbox : List Byte :=
  [0x63, 0x7C, 0x77, 0x7B, 0xF2, 0x6B, 0x6F, 0xC5, 0x30, 0x01, 0x67, 0x2B, 0xFE, 0xD7, 0xAB, 0x76] ++
  [0xCA, 0x82, 0xC9, 0x7D, 0xFA, 0x59, 0x47, 0xF0, 0xAD, 0xD4, 0xA2, 0xAF, 0x9C, 0xA4, 0x72, 0xC0] ++
  [0xB7, 0xFD, 0x93, 0x26, 0x36, 0x3F, 0xF7, 0xCC, 0x34, 0xA5, 0xE5, 0xF1, 0x71, 0xD8, 0x31, 0x15] ++
  [0x04, 0xC7, 0x23, 0xC3, 0x18, 0x96, 0x05, 0x9A, 0x07, 0x12, 0x80, 0xE2, 0xEB, 0x27, 0xB2, 0x75] ++
  [0x09, 0x83, 0x2C, 0x1A, 0x1B, 0x6E, 0x5A, 0xA0, 0x52, 0x3B, 0xD6, 0xB3, 0x29, 0xE3, 0x2F, 0x84] ++
  [0x53, 0xD1, 0x00, 0xED, 0x20, 0xFC, 0xB1, 0x5B, 0x6A, 0xCB, 0xBE, 0x39, 0x4A, 0x4C, 0x58, 0xCF] ++
  [0xD0, 0xEF, 0xAA, 0xFB, 0x43, 0x4D, 0x33, 0x85, 0x45, 0xF9, 0x02, 0x7F, 0x50, 0x3C, 0x9F, 0xA8] ++
  [0x51, 0xA3, 0x40, 0x8F, 0x92, 0x9D, 0x38, 0xF5, 0xBC, 0xB6, 0xDA, 0x21, 0x10, 0xFF, 0xF3, 0xD2] ++
  [0xCD, 0x0C, 0x13, 0xEC, 0x5F, 0x97, 0x44, 0x17, 0xC4, 0xA7, 0x7E, 0x3D, 0x64, 0x5D, 0x19, 0x73] ++
  [0x60, 0x81, 0x4F, 0xDC, 0x22, 0x2A, 0x90, 0x88, 0x46, 0xEE, 0xB8, 0x14, 0xDE, 0x5E, 0x0B, 0xDB] ++
  [0xE0, 0x32, 0x3A, 0x0A, 0x49, 0x06, 0x24, 0x5C, 0xC2, 0xD3, 0xAC, 0x62, 0x91, 0x95, 0xE4, 0x79] ++
  [0xE7, 0xC8, 0x37, 0x6D, 0x8D, 0xD5, 0x4E, 0xA9, 0x6C, 0x56, 0xF4, 0xEA, 0x65, 0x7A, 0xAE, 0x08] ++
  [0xBA, 0x78, 0x25, 0x2E, 0x1C, 0xA6, 0xB4, 0xC6, 0xE8, 0xDD, 0x74, 0x1F, 0x4B, 0xBD, 0x8B, 0x8A] ++
  [0x70, 0x3E, 0xB5, 0x66, 0x48, 0x03, 0xF6, 0x0E, 0x61, 0x35, 0x57, 0xB9, 0x86, 0xC1, 0x1D, 0x9E] ++
  [0xE1, 0xF8, 0x98, 0x11, 0x69, 0xD9, 0x8E, 0x94, 0x9B, 0x1E, 0x87, 0xE9, 0xCE, 0x55, 0x28, 0xDF] ++
  [0x8C, 0xA1, 0x89, 0x0D, 0xBF, 0xE6, 0x42, 0x68, 0x41, 0x99, 0x2D, 0x0F, 0xB0, 0x54, 0xBB, 0x16]

/-- The inverse S-box of FIPS 197. -/
def invSbox : List Byte :=
  [0x52, 0x09, 0x6A, 0xD5, 0x30, 0x36, 0xA5, 0x38, 0xBF, 0x40, 0xA3, 0x9E, 0x81, 0xF3, 0xD7, 0xFB] ++
  [0x7C, 0xE3, 0x39, 0x82, 0x9B, 0x2F, 0xFF, 0x87, 0x34, 0x8E, 0x43, 0x44, 0xC4, 0xDE, 0xE9, 0xCB] ++
  [0x54, 0x7B, 0x94, 0x32, 0xA6, 0xC2, 0x23, 0x3D, 0xEE, 0x4C, 0x95, 0x0B, 0x42, 0xFA, 0xC3, 0x4E] ++
  [0x08, 0x2E, 0xA1, 0x66, 0x28, 0xD9, 0x24, 0xB2, 0x76, 0x5B, 0xA2, 0x49, 0x6D, 0x8B, 0xD1, 0x25] ++
  [0x72, 0xF8, 0xF6, 0x64, 0x86, 0x68, 0x98, 0x16, 0xD4, 0xA4, 0x5C, 0xCC, 0x5D, 0x65, 0xB6, 0x92] ++
  [0x6C, 0x70, 0x48, 0x50, 0xFD, 0xED, 0xB9, 0xDA, 0x5E, 0x15, 0x46, 0x57, 0xA7, 0x8D, 0x9D, 0x84] ++
  [0x90, 0xD8, 0xAB, 0x00, 0x8C, 0xBC, 0xD3, 0x0A, 0xF7, 0xE4, 0x58, 0x05, 0xB8, 0xB3, 0x45, 0x06] ++
  [0xD0, 0x2C, 0x1E, 0x8F, 0xCA, 0x3F, 0x0F, 0x02, 0xC1, 0xAF, 0xBD, 0x03, 0x01, 0x13, 0x8A, 0x6B] ++
  [0x3A, 0x91, 0x11, 0x41, 0x4F, 0x67, 0xDC, 0xEA, 0x97, 0xF2, 0xCF, 0xCE, 0xF0, 0xB4, 0xE6, 0x73] ++
  [0x96, 0xAC, 0x74, 0x22, 0xE7, 0xAD, 0x35, 0x85, 0xE2, 0xF9, 0x37, 0xE8, 0x1C, 0x75, 0xDF, 0x6E] ++
  [0x47, 0xF1, 0x1A, 0x71, 0x1D, 0x29, 0xC5, 0x89, 0x6F, 0xB7, 0x62, 0x0E, 0xAA, 0x18, 0xBE, 0x1B] ++
  [0xFC, 0x56, 0x3E, 0x4B, 0xC6, 0xD2, 0x79, 0x20, 0x9A, 0xDB, 0xC0, 0xFE, 0x78, 0xCD, 0x5A, 0xF4] ++
  [0x1F, 0xDD, 0xA8, 0x33, 0x88, 0x07, 0xC7, 0x31, 0xB1, 0x12, 0x10, 0x59, 0x27, 0x80, 0xEC, 0x5F] ++
  [0x60, 0x51, 0x7F, 0xA9, 0x19, 0xB5, 0x4A, 0x0D, 0x2D, 0xE5, 0x7A, 0x9F, 0x93, 0xC9, 0x9C, 0xEF] ++
  [0xA0, 0xE0, 0x3B, 0x4D, 0xAE, 0x2A, 0xF5, 0xB0, 0xC8, 0xEB, 0xBB, 0x3C, 0x83, 0x53, 0x99, 0x61] ++
  [0x17, 0x2B, 0x04, 0x7E, 0xBA, 0x77, 0xD6, 0x26, 0xE1, 0x69, 0x14, 0x63, 0x55, 0x21, 0x0C, 0x7D]

def subBytes (box s : List Byte) : List Byte := s.map fun b => box.getD b.toNat 0
def xorBytes (a b : List Byte) : List Byte := List.zipWith (· ^^^ ·) a b

/-- Row r of the state, stored by columns, moves left by `k` times r. -/
def shiftRows (k : Nat) (s : List Byte) : List Byte :=
  (List.range 16).map fun i => s.getD ((i + 4 * k * (i % 4)) % 16) 0

/-- Each column times the circulant matrix whose first row is `m`. -/
def mixColumns (m s : List Byte) : List Byte :=
  (List.range 16).map fun i =>
    (List.range 4).foldl (fun x j => x ^^^ gmul (m.getD ((j + 4 - i % 4) % 4) 0) (s.getD (i / 4 * 4 + j) 0)) 0#8

/-- One more word of the key schedule of AES-256, kept latest first; `i` is its number. -/
def keyWord (w : List (List Byte)) (i : Nat) : List (List Byte) :=
  let t := w.getD 0 []
  let t := if i % 8 = 0 then
      xorBytes (subBytes sbox (t.rotateLeft 1)) [(List.range (i / 8 - 1)).foldl (fun x _ => xtime x) 1#8, 0, 0, 0]
    else if i % 8 = 4 then subBytes sbox t
    else t
  xorBytes (w.getD 7 []) t :: w

/-- The fifteen round keys of a 32-byte key. -/
def roundKeys (key : List Byte) : List (List Byte) :=
  let ws := ((List.range 52).foldl (fun w i => keyWord w (i + 8)) (chunks 4 8 key).reverse).reverse
  (chunks 4 15 ws).map List.flatten

/-- AES-256 on a 16-byte block. -/
def aesEncrypt (ks : List (List Byte)) (b : List Byte) : List Byte :=
  let s := (List.range 13).foldl (fun s i =>
    xorBytes (mixColumns [2, 3, 1, 1] (shiftRows 1 (subBytes sbox s))) (ks.getD (i + 1) [])) (xorBytes b (ks.getD 0 []))
  xorBytes (shiftRows 1 (subBytes sbox s)) (ks.getD 14 [])

def aesDecrypt (ks : List (List Byte)) (b : List Byte) : List Byte :=
  let s := (List.range 13).foldl (fun s i =>
    mixColumns [14, 11, 13, 9] (xorBytes (subBytes invSbox (shiftRows 3 s)) (ks.getD (13 - i) []))) (xorBytes b (ks.getD 14 []))
  xorBytes (subBytes invSbox (shiftRows 3 s)) (ks.getD 0 [])

/-! ### XTS-AES-256 (IEEE 1619) -/

/-- The tweak of the next block: times x in GF(2^128), the bytes least significant first. -/
def nextTweak (t : List Byte) : List Byte :=
  let x := leNat t
  leBytes 16 (2 * x % 2 ^ 128 ^^^ (if 2 ^ 127 ≤ x then 0x87 else 0))

/-- A data unit of whole blocks, block by block. -/
def xtsBlocks (f : List Byte → List Byte) : List (List Byte) → List Byte → List Byte
  | [], _ => []
  | b :: bs, t => xorBytes (f (xorBytes b t)) t ++ xtsBlocks f bs (nextTweak t)

/-- The 128 bytes of a line under data key `k1` and tweak key `k2`; the tweak is the line's number. -/
def xtsLine (enc : Bool) (k1 k2 : BitVec 256) (line : Nat) (x : BitVec 1024) : BitVec 1024 :=
  let ks := roundKeys (leBytes 32 k1.toNat)
  let t := aesEncrypt (roundKeys (leBytes 32 k2.toNat)) (leBytes 16 line)
  BitVec.ofNat 1024 (leNat (xtsBlocks (if enc then aesEncrypt ks else aesDecrypt ks) (chunks 16 8 (leBytes 128 x.toNat)) t))

/-! ### AES-CMAC (SP 800-38B) -/

/-- A subkey from the one before it: times x in GF(2^128), the bytes most significant first. -/
def cmacSubkey (l : List Byte) : List Byte :=
  let x := beNat l
  beBytes 16 (2 * x % 2 ^ 128 ^^^ (if 2 ^ 127 ≤ x then 0x87 else 0))

/-- AES-CMAC of a message that is not empty. -/
def cmac (key : BitVec 256) (m : List Byte) : List Byte :=
  let ks := roundKeys (leBytes 32 key.toNat)
  let k1 := cmacSubkey (aesEncrypt ks (List.replicate 16 0#8))
  let bs := chunks 16 m.length m
  let last := bs.getLastD []
  let last := if last.length = 16 then xorBytes last k1
    else xorBytes (last ++ [0x80#8] ++ List.replicate (15 - last.length) 0#8) (cmacSubkey k1)
  (bs.dropLast ++ [last]).foldl (fun x b => aesEncrypt ks (xorBytes x b)) (List.replicate 16 0#8)

/-! ### ECDSA on brainpoolP384r1 (RFC 5639) -/

def ecP : Nat := 0x8CB91E82A3386D280F5D6F7E50E641DF152F7109ED5456B412B1DA197FB71123ACD3A729901D1A71874700133107EC53
def ecA : Nat := 0x7BC382C63D8C150C3C72080ACE05AFA0C2BEA28E4FB22787139165EFBA91F90F8AA5814A503AD4EB04A8C7DD22CE2826
def ecN : Nat := 0x8CB91E82A3386D280F5D6F7E50E641DF152F7109ED5456B31F166E6CAC0425A7CF3AB6AF6B7FC3103B883202E9046565

/-- A point of the curve; `none` is the point at infinity. -/
abbrev EcPoint := Option (Nat × Nat)

def ecG : EcPoint := some
  (0x1D1C64F068CF45FFA2A63A81B7C13F6B8847A3E77EF14FE3DB7FCAFE0CBD10E8E826E03436D646AAEF87B2E247D4AF1E,
   0x8ABE1D7520F9C2A45CB1EB8E95CFD55262B70B29FEEC5864E19C054FF99129280E4646217791811142820341263C5315)

/-- Powers modulo m, for exponents below 2^384. -/
def powMod (m b e : Nat) : Nat :=
  ((List.range 384).foldl (fun (x : Nat × Nat) i => (if e.testBit i then x.1 * x.2 % m else x.1, x.2 * x.2 % m)) (1 % m, b % m)).1

/-- The inverse modulo a prime. -/
def invMod (m a : Nat) : Nat := powMod m a (m - 2)

def subMod (m a b : Nat) : Nat := (a + (m - b % m)) % m

def ecAdd : EcPoint → EcPoint → EcPoint
  | none, q => q
  | p, none => p
  | some p, some q =>
    if p.1 = q.1 ∧ (p.2 + q.2) % ecP = 0 then none
    else
      let l := if p.1 = q.1 then (3 * p.1 * p.1 + ecA) * invMod ecP (2 * p.2) % ecP
        else subMod ecP q.2 p.2 * invMod ecP (subMod ecP q.1 p.1) % ecP
      let x := subMod ecP (l * l) (p.1 + q.1)
      some (x, subMod ecP (l * subMod ecP p.1 x) p.2)

def ecMul (k : Nat) (p : EcPoint) : EcPoint :=
  ((List.range 384).foldl (fun (x : EcPoint × EcPoint) i => (if k.testBit i then ecAdd x.1 x.2 else x.1, ecAdd x.2 x.2)) (none, p)).1

/-- A public key as 96 bytes: the coordinates, each most significant byte first. -/
def ecPublic (d : Nat) : List Byte := match ecMul d ecG with
  | none => []
  | some q => beBytes 48 q.1 ++ beBytes 48 q.2

/-- ECDSA with SHA-384: the signature of a message, r and then s, with private key `d` and per-message secret `k`. -/
def ecdsaSign (d k : Nat) (m : List Byte) : List Byte :=
  match ecMul k ecG with
  | none => []
  | some p =>
    let r := p.1 % ecN
    beBytes 48 r ++ beBytes 48 (invMod ecN k * ((sha384 m).toNat + r * d) % ecN)

/-- The verification of a signature of 96 bytes under a public key of 96 bytes. -/
def ecdsaVerify (key m sig : List Byte) : Bool :=
  let q : EcPoint := some (beNat (key.take 48), beNat (key.drop 48))
  let r := beNat (sig.take 48)
  let s := beNat (sig.drop 48)
  let w := invMod ecN s
  match ecAdd (ecMul ((sha384 m).toNat * w % ecN) ecG) (ecMul (r * w % ecN) q) with
  | none => false
  | some p => key.length == 96 && sig.length == 96 && decide (0 < r) && decide (r < ecN) && decide (0 < s) && decide (s < ecN)
      && p.1 % ecN == r

end Sys2Proof.Machine
end

