-- ==== Sys2Proof/Config.lean ====
section
/-!
DEFINITION. Config.lean: what the manual leaves open, as opaque constants without a body (log entries 2, 7, 8, 9, 12).
Nothing in Lean can evaluate one or prove a value of it: a statement holds whichever value the device has.
-/

namespace Sys2Proof

/-- A free choice (R8): the n-th unspecified alternative taken. Log entry 2. -/
opaque Config.choice : Nat → Nat

/-- Which result, within the bounds of R230, an approximate function returns for a function number, a TYPE code,
SAT and an operand code: a fixed choice of the device (R231). Log entry 7. -/
opaque Config.approx : Nat → Nat → Bool → Nat → Nat

/-- The device's random source (R410): the n-th 256-bit number drawn from it. Log entry 8. -/
opaque Config.randomKey : Nat → BitVec 256

/-- The mask of an on-chip word (R411): computed from the world's scrambler key and the word's physical location. Log entry 8. -/
opaque Config.mask : BitVec 256 → Nat → Word

/-- The SHA-384 hash of the Peryord root public key that the boot ROM holds (R418). Log entry 8. -/
opaque Config.rootHash : BitVec 384

/-- The per-message secret of the n-th attestation signature (R420). Log entry 8. -/
opaque Config.nonce : Nat → Nat

/-- The start-up pattern of the identity SRAM at the n-th power-up (R417), which is noisy. Log entry 9. -/
opaque Config.startup : Nat → List Byte

/-- What the helper data of the module flash makes of a start-up pattern: the 384-bit root seed, unless it cannot be
reconstructed (R417). Log entry 9. -/
opaque Config.rootSeed : List Byte → List Byte → Option (BitVec 384)

end Sys2Proof
end

