-- ==== Sys2Proof/Machine/Store.lean ====
section
/-!
DEFINITION. Machine/Store.lean: a sparse table with a default value, kept as a list of (key, value) pairs in one
canonical form: keys strictly rising and no entry equal to the default. Registers, tables and memory are such lists.
-/

namespace Sys2Proof.Machine

/-- The value at key `k`; an unlisted key holds the default `d`. -/
def Store.get {α : Type} (d : α) : List (Nat × α) → Nat → α
  | [], _ => d
  | (k', v) :: m, k => if k' = k then v else Store.get d m k

/-- The table without key `k`. -/
def Store.erase {α : Type} (m : List (Nat × α)) (k : Nat) : List (Nat × α) :=
  m.filter fun p => p.1 != k

/-- The table with `(k, v)` put before the first larger key. -/
def Store.insert {α : Type} (k : Nat) (v : α) : List (Nat × α) → List (Nat × α)
  | [] => [(k, v)]
  | (k', v') :: m => if k < k' then (k, v) :: (k', v') :: m else (k', v') :: Store.insert k v m

/-- The table in which key `k` holds `v`; writing the default removes the entry. -/
def Store.set {α : Type} [DecidableEq α] (d : α) (m : List (Nat × α)) (k : Nat) (v : α) : List (Nat × α) :=
  if v = d then Store.erase m k else Store.insert k v (Store.erase m k)

/-- Write each pair of a list, in order. -/
def Store.setAll {α : Type} [DecidableEq α] (d : α) (m : List (Nat × α)) : List (Nat × α) → List (Nat × α)
  | [] => m
  | (k, v) :: ps => Store.setAll d (Store.set d m k v) ps

/-- The canonical form: keys strictly rising, no entry equal to the default. -/
def Store.wf {α : Type} [DecidableEq α] (d : α) : List (Nat × α) → Bool
  | [] => true
  | [(_, v)] => v ≠ d
  | (k, v) :: (k', v') :: m => decide (v ≠ d) && decide (k < k') && Store.wf d ((k', v') :: m)

/-- The numbers 0 to n - 1. -/
def upto (n : Nat) : List Nat := List.range n

end Sys2Proof.Machine
end

