-- ==== Sys2Proof/Machine/Numeric.lean ====
section
/-!
DEFINITION. Machine/Numeric.lean: number formats, decoding of codes, exact arithmetic, `round` and the stochastic bits
(spec/02 R52 to R82). Values are exact: a number is a sign and a dyadic magnitude, and only `roundTo` rounds.
-/

namespace Sys2Proof.Machine

/-! ### Integers of unbounded size -/

/-- x[n-1:0] sign-extended (R11). -/
def sext (x n : Nat) : Int :=
  let y := x % 2 ^ n
  if 2 ^ (n - 1) ≤ y then (y : Int) - (2 ^ n : Nat) else (y : Int)

/-- An integer modulo 2^n, as a code of n bits. -/
def wrapTo (x : Int) (n : Nat) : Nat := (x % (2 ^ n : Nat)).toNat

/-- The integer square root, by bits from the top (structural on the bit index). -/
def isqrtFrom (x : Nat) : Nat → Nat → Nat
  | 0, r => r
  | k + 1, r =>
    let r' := r + 2 ^ k
    if r' * r' ≤ x then isqrtFrom x k r' else isqrtFrom x k r

/-- floor of the square root of `x`. -/
def isqrt (x : Nat) : Nat := isqrtFrom x (x.log2 / 2 + 1) 0

/-! ### Magnitudes: a positive rational, or the square root of one -/

/-- A positive real that the part rounds: n/d, or √(n/d). -/
structure Mag where
  n    : Nat
  d    : Nat
  root : Bool
  deriving DecidableEq, Repr, Inhabited

/-- n · 2^k over d · 2^-k, as a numerator and a denominator. -/
def scalePair (n d : Nat) (k : Int) : Nat × Nat :=
  if 0 ≤ k then (n * 2 ^ k.toNat, d) else (n, d * 2 ^ (-k).toNat)

/-- floor(x · 2^k), and whether x · 2^k is that integer. -/
def Mag.scaled (x : Mag) (k : Int) : Nat × Bool :=
  if x.root then
    let (n, d) := scalePair x.n x.d (2 * k)
    let r := isqrt (n / d)
    (r, r * r * d = n)
  else
    let (n, d) := scalePair x.n x.d k
    (n / d, n % d = 0)

/-- floor(log2 (n/d)) for positive n and d. -/
def log2Ratio (n d : Nat) : Int :=
  let e : Int := (n.log2 : Int) - (d.log2 : Int)
  let (n', d') := scalePair n d (-e)
  if d' ≤ n' then e else e - 1

/-- floor(log2 x). -/
def Mag.floorLog2 (x : Mag) : Int :=
  let e := log2Ratio x.n x.d
  if x.root then e / 2 else e

/-- A magnitude from m · 2^e. -/
def Mag.dyadic (m : Nat) (e : Int) : Mag :=
  let (n, d) := scalePair m 1 e
  ⟨n, d, false⟩

/-! ### Formats -/

/-- A floating format (R53, R56 to R60): T trailing significand bits, the exponent bias, the sign bit's place,
the largest finite code without sign, and the special codes. -/
structure FFmt where
  width    : Nat
  trail    : Nat
  bias     : Int
  signed   : Bool
  maxCode  : Nat
  infCode  : Option Nat
  nan      : Nat
  absent   : Nat
  /-- IEEE: two zeros, and every other code above the infinity is a NaN -/
  ieee     : Bool
  /-- binary4p2: round always saturates (R60) -/
  alwaysSat : Bool
  deriving DecidableEq, Repr, Inhabited

def fmtF64 : FFmt :=
  ⟨64, 52, 1023, true, 0x7FEFFFFFFFFFFFFF, some 0x7FF0000000000000, 0x7FF8000000000000, 0xFFFFFFFFFFFFFFFF, true, false⟩
def fmtF32 : FFmt := ⟨32, 23, 127, true, 0x7F7FFFFF, some 0x7F800000, 0x7FC00000, 0xFFFFFFFF, true, false⟩
def fmtF16 : FFmt := ⟨16, 10, 15, true, 0x7BFF, some 0x7C00, 0x7E00, 0xFFFF, true, false⟩
def fmtBF16 : FFmt := ⟨16, 7, 127, true, 0x7F7F, some 0x7F80, 0x7FC0, 0xFFFF, true, false⟩

/-- binary8pP (R56, R57) for precision p, unsigned kind u, infinities i. -/
def fmtB8 (p : Nat) (u i : Bool) : FFmt :=
  if u then
    ⟨8, p - 1, (2 ^ (8 - p) : Nat), false, if i then 0xFD else 0xFE, if i then some 0xFE else none, 0xFF, 0x01, false, false⟩
  else
    ⟨8, p - 1, (2 ^ (7 - p) : Nat), true, if i then 0x7E else 0x7F, if i then some 0x7F else none, 0x80, 0x81, false, false⟩

/-- binary6p3 (R59). -/
def fmtE6 : FFmt := ⟨6, 2, 4, true, 0x1F, none, 0x20, 0x21, false, false⟩
/-- binary4p2 (R60). -/
def fmtE4 : FFmt := ⟨4, 1, 2, true, 0x7, none, 0x8, 0x9, false, true⟩

/-- What a code of a format stands for: ABSENT, a NaN, an infinity, or sign and m · 2^e. -/
inductive FVal where
  | absent
  | nan
  | inf (neg : Bool)
  | num (neg : Bool) (m : Nat) (e : Int)
  deriving DecidableEq, Repr, Inhabited

/-- The magnitude m · 2^e of a code without sign. -/
def FFmt.magOf (f : FFmt) (c : Nat) : Nat × Int :=
  let e := c / 2 ^ f.trail
  let m := c % 2 ^ f.trail
  if e = 0 then (m, 1 - f.bias - f.trail) else (2 ^ f.trail + m, (e : Int) - f.bias - f.trail)

/-- The value of a code (R53, R57, R59, R60). -/
def FFmt.decode (f : FFmt) (code : Nat) : FVal :=
  let code := code % 2 ^ f.width
  let half := 2 ^ (f.width - 1)
  let neg := f.signed && decide (half ≤ code)
  let c := if neg then code - half else code
  if code = f.absent then .absent
  else if code = f.nan then .nan
  else if f.infCode = some c then .inf neg
  else if f.ieee && decide (f.maxCode < c) then .nan
  else .num neg (f.magOf c).1 (f.magOf c).2

/-- The code of a sign and a code without sign; only an IEEE zero keeps its sign (R69). -/
def FFmt.encodeMag (f : FFmt) (neg : Bool) (c : Nat) : Nat :=
  if neg && f.signed && (f.ieee || decide (c ≠ 0)) then c + 2 ^ (f.width - 1) else c

/-! ### Rounding -/

/-- The rounding modes of R68, DYN already resolved. -/
inductive Rnd where
  | rne | rna | rtz | rdn | rup
  /-- stochastic, with the 32 random bits of R71 -/
  | sr (r : Nat)
  deriving DecidableEq, Repr, Inhabited

/-- A rounded code and whether `overflow` returned it (R69, R85). -/
structure Rounded where
  code : Nat
  ovf : Bool
  deriving DecidableEq, Repr, Inhabited

/-- R69's overflow. -/
def FFmt.overflow (f : FFmt) (sat neg : Bool) : Rounded :=
  if f.alwaysSat || sat then ⟨f.encodeMag neg f.maxCode, true⟩
  else match f.infCode with
    | some c => ⟨f.encodeMag neg c, true⟩
    | none => ⟨f.nan, true⟩

/-- R69's choose: whether the candidate of larger magnitude is taken, from floor(f · 2^32), whether f · 2 is an
exact 1, and whether the two candidates count as even (R70). -/
def chooseHi (rnd : Rnd) (neg : Bool) (frac : Nat) (tie loEven hiEven : Bool) : Bool :=
  match rnd with
  | .rne => if tie then !loEven && hiEven else decide (2 ^ 31 ≤ frac)
  | .rna => decide (2 ^ 31 ≤ frac)
  | .rtz => false
  | .rdn => neg
  | .rup => !neg
  | .sr r => decide (r < frac)

/-- R70: code c counts as even; the first code past the largest finite one does too. -/
def FFmt.evenCode (f : FFmt) (c : Nat) : Bool := c % 2 = 0 || c = f.maxCode + 1

/-- Is the value of code 1 with this sign the one that the ABSENT code removes (R57, R59, R60)? -/
def FFmt.takenSide (f : FFmt) (neg : Bool) : Bool := !f.ieee && (neg == f.signed)

/-- R69's round of a non-zero real with magnitude x into a floating format. -/
def FFmt.roundMag (f : FFmt) (rnd : Rnd) (sat neg : Bool) (x : Mag) : Rounded :=
  if neg && !f.signed then ⟨0, false⟩
  else
    let emin := 1 - f.bias
    let e := max x.floorLog2 emin
    let q := e - f.trail
    let i := (x.scaled (-q)).1
    let c := (e - emin).toNat * 2 ^ f.trail + i
    if f.maxCode + 1 ≤ c then
      if rnd = .rtz || (rnd = .rdn && !neg) || (rnd = .rup && neg) then ⟨f.encodeMag neg f.maxCode, false⟩
      else f.overflow sat neg
    else
      let gap := f.takenSide neg && decide (c < 2)
      let lo := if gap then 0 else c
      let hi := if gap then 2 else c + 1
      let q' : Int := if gap then q + 1 else q
      let i' := if gap then 0 else i
      let exact := (x.scaled (-q')).2 && !gap
      if exact then ⟨f.encodeMag neg c, false⟩
      else
        let frac := (x.scaled (32 - q')).1 - i' * 2 ^ 32
        let (h, hx) := x.scaled (1 - q')
        let tie := hx && decide (h = 2 * i' + 1)
        let y := if chooseHi rnd neg frac tie (f.evenCode lo) (f.evenCode hi) then hi else lo
        if y = f.maxCode + 1 then f.overflow sat neg else ⟨f.encodeMag neg y, false⟩

/-- `round` of a dyadic number into a floating format (R69). -/
def FFmt.roundNum (f : FFmt) (rnd : Rnd) (sat neg : Bool) (m : Nat) (e : Int) : Rounded :=
  if m = 0 then ⟨f.encodeMag (neg && f.ieee) 0, false⟩ else f.roundMag rnd sat neg (Mag.dyadic m e)

/-- `round` of ±∞ (R69). DESIGN CHOICE (log entry 89, unsafe): with SAT = 1 it is the largest finite value also in a conversion into a
type that has infinities, where the table of R235 says ±∞. -/
def FFmt.roundInf (f : FFmt) (sat neg : Bool) : Rounded :=
  if neg && !f.signed then ⟨0, false⟩ else f.overflow sat neg

/-- A value into a format: ABSENT and NaN take the format's own codes (R75, R76). -/
def FFmt.ofVal (f : FFmt) (rnd : Rnd) (sat : Bool) : FVal → Rounded
  | .absent => ⟨f.absent, false⟩
  | .nan => ⟨f.nan, false⟩
  | .inf neg => f.roundInf sat neg
  | .num neg m e => f.roundNum rnd sat neg m e

/-- nearest_int (R69): the integer that `choose` selects for a signed magnitude. -/
def nearestInt (rnd : Rnd) (neg : Bool) (x : Mag) : Int :=
  let (i, exact) := x.scaled 0
  let frac := (x.scaled 32).1 - i * 2 ^ 32
  let (h, hx) := x.scaled 1
  let tie := hx && decide (h = 2 * i + 1)
  let up := !exact && chooseHi rnd neg frac tie (decide (i % 2 = 0)) (decide (i % 2 = 1))
  let r : Int := if up then (i : Int) + 1 else (i : Int)
  if neg then -r else r

/-- Clamp an integer to a range. -/
def clampInt (lo hi x : Int) : Int := if x < lo then lo else if hi < x then hi else x

/-- `round` of a value into an integer range: NaN and ABSENT are the caller's, and give 0 here (R69, R181). -/
def FVal.toInt (rnd : Rnd) (lo hi : Int) : FVal → Int
  | .absent => 0
  | .nan => 0
  | .inf neg => if neg then lo else hi
  | .num neg m e => if m = 0 then clampInt lo hi 0 else clampInt lo hi (nearestInt rnd neg (Mag.dyadic m e))

/-- The exact value of an integer. -/
def FVal.ofInt (x : Int) : FVal := .num (decide (x < 0)) x.natAbs 0

/-- The range of an integer type of n bits: R55, with and without its ABSENT code. -/
def intLo (signed ab : Bool) (n : Nat) : Int :=
  if signed then (if ab then -(2 ^ (n - 1) : Nat) + 1 else -(2 ^ (n - 1) : Nat)) else 0
def intHi (signed ab : Bool) (n : Nat) : Int :=
  if signed then (2 ^ (n - 1) : Nat) - 1 else if ab then (2 ^ n : Nat) - 2 else (2 ^ n : Nat) - 1
/-- The ABSENT code of an integer type under `.ab` (R55). -/
def intAbsent (signed : Bool) (n : Nat) : Nat := if signed then 2 ^ (n - 1) else 2 ^ n - 1

/-! ### Stochastic bits -/

/-- R71's mix64. -/
def mix64 (z : Word) : Word :=
  let z := (z ^^^ (z >>> 30)) * 0xBF58476D1CE4E5B9#64
  let z := (z ^^^ (z >>> 27)) * 0x94D049BB133111EB#64
  z ^^^ (z >>> 31)

/-- R71's sr_bits. -/
def srBits (seed ctr : Word) (str lane elem : Nat) : Nat :=
  let h := mix64 (seed ^^^ 0x9E3779B97F4A7C15#64)
  let h := mix64 (h ^^^ ctr)
  let h := mix64 (h ^^^ (BitVec.ofNat 64 str <<< 48) ^^^ (BitVec.ofNat 64 lane <<< 16) ^^^ BitVec.ofNat 64 elem)
  (h >>> 32).toNat

/-! ### Exact arithmetic on values -/

/-- A signed dyadic as an integer times 2^e. -/
def toDy (neg : Bool) (m : Nat) (e : Int) : Int × Int := (if neg then -(m : Int) else (m : Int), e)

/-- Exact sum of two signed dyadics. -/
def addDy (x y : Int × Int) : Int × Int :=
  let e := min x.2 y.2
  (x.1 * 2 ^ (x.2 - e).toNat + y.1 * 2 ^ (y.2 - e).toNat, e)

/-- R225's sum: zeros keep a common sign, any other exact zero is +0, or -0 under RDN. -/
def FVal.add (rnd : Rnd) : FVal → FVal → FVal
  | .absent, _ => .absent
  | _, .absent => .absent
  | .nan, _ => .nan
  | _, .nan => .nan
  | .inf s, .inf t => if s = t then .inf s else .nan
  | .inf s, .num .. => .inf s
  | .num .., .inf t => .inf t
  | .num s m e, .num t n f =>
    let (k, g) := addDy (toDy s m e) (toDy t n f)
    if k = 0 then
      if m = 0 ∧ n = 0 ∧ s = t then .num s 0 0 else .num (rnd = .rdn) 0 0
    else .num (decide (k < 0)) k.natAbs g

/-- R225's product. -/
def FVal.mul : FVal → FVal → FVal
  | .absent, _ => .absent
  | _, .absent => .absent
  | .nan, _ => .nan
  | _, .nan => .nan
  | .inf s, .inf t => .inf (s != t)
  | .inf s, .num t n _ => if n = 0 then .nan else .inf (s != t)
  | .num s m _, .inf t => if m = 0 then .nan else .inf (s != t)
  | .num s m e, .num t n f => .num (s != t) (m * n) (e + f)

/-- The negation of a value (a - b is a + (-b), R225). -/
def FVal.neg : FVal → FVal
  | .inf s => .inf !s
  | .num s m e => .num (!s) m e
  | v => v

/-- R225's fused form: the product counts as one addend; an ABSENT addend wins over a NaN product. -/
def FVal.fma (rnd : Rnd) (a b c : FVal) : FVal :=
  if c = .absent then .absent else FVal.add rnd (FVal.mul a b) c

/-- Order of two numbers (not NaN, not ABSENT), with zeros equal: a < b. -/
def FVal.lt : FVal → FVal → Bool
  | .inf s, .inf t => s && !t
  | .inf s, .num .. => s
  | .num .., .inf t => !t
  | .num s m e, .num t n f => decide ((addDy (toDy s m e) (toDy (!t) n f)).1 < 0)
  | _, _ => false

/-- The sign of a number. -/
def FVal.isNeg : FVal → Bool
  | .inf s => s
  | .num s _ _ => s
  | _ => false

/-- Multiply a number by 2^k. -/
def FVal.scaleBy (k : Int) : FVal → FVal
  | .num s m e => .num s m (e + k)
  | v => v

/-- min and max by bits (R178 step 3, R219, R226): which of the codes x, y of a format; NaN beside a number is
ignored, two NaNs give the canonical one, -0 lies below +0. -/
def FFmt.minMax (f : FFmt) (isMax : Bool) (x y : Nat) : Nat :=
  let a := f.decode x
  let b := f.decode y
  match a, b with
  | .nan, .nan => f.nan
  | .nan, _ => y
  | _, .nan => x
  | _, _ =>
    let aBelow := FVal.lt a b || (!FVal.lt b a && a.isNeg && !b.isNeg)
    if aBelow = isMax then y else x

/-- The exponent-histogram bin of a rounded result in a floating format (R85); none when ABSENT. -/
def FFmt.bin (f : FFmt) (r : Rounded) : Option Nat :=
  if r.ovf then some 62
  else match f.decode r.code with
    | .absent => none
    | .nan => some 63
    | .inf _ => some 62
    | .num _ m e =>
      if m < 2 ^ f.trail || m = 0 then some 0
      else some (31 + min (max ((m.log2 : Int) + e) (-30)) 30).toNat

/-- The bin of an integer result y (R85). -/
def intBin (clamped : Bool) (y : Int) : Nat :=
  if clamped then 62 else if y = 0 then 0 else 31 + min y.natAbs.log2 30

end Sys2Proof.Machine
end

