-- ==== Sys2Proof/Machine/Approx.lean ====
section
/-!
DEFINITION. Machine/Approx.lean: the approximate functions of class 0x4 (R229 to R231): their exact results, and for every
other operand an interval that holds each value within the bounds of R230. Which value of the interval the device returns
is free: Config.approx (log entry 7).
-/

namespace Sys2Proof.Machine

/-- The scale of the fixed-point enclosures below. -/
def fxOne : Nat := 2 ^ 128

/-- π and log2 e, rounded down at that scale. -/
def fxPi : Nat := 0x3243F6A8885A308D313198A2E03707344
def fxLog2e : Nat := 0x171547652B82FE1777D0FFDA0D23A7D11

/-- The product over the bits of a 64-bit fraction, from the top, of 2^(2^-i) for its set bits; `r` is 2^(2^-i). -/
def exp2Bits (fr : Nat) : Nat → Nat → Nat → Nat
  | 0, _, acc => acc
  | k + 1, r, acc =>
    let r' := isqrt (r * fxOne)
    exp2Bits fr k r' (if fr.testBit k then acc * r' / fxOne else acc)

/-- An enclosure of 2^y for y in [lo, hi], given in units of 2^-64: exponent and fixed-point ends. -/
def exp2Low (y : Int) : Int × Nat := (y / 2 ^ 64, exp2Bits (y % 2 ^ 64).toNat 64 (2 * fxOne) fxOne)
def exp2High (y : Int) : Int × Nat := ((exp2Low y).1, (exp2Low y).2 + 2 ^ 32)

/-- Bits of log2 of x in [1, 2), x given at scale 2^200: the first `n` binary places, rounded down. -/
def log2Bits : Nat → Nat → Nat → Nat
  | 0, _, acc => acc
  | n + 1, x, acc =>
    let y := x * x / 2 ^ 200
    if 2 ^ 201 ≤ y then log2Bits n (y / 2) (2 * acc + 1) else log2Bits n y (2 * acc)

/-- log2 of m · 2^e in units of 2^-96, rounded down. -/
def log2Low (m : Nat) (e : Int) : Int :=
  let k := m.log2
  let x := m * 2 ^ 200 / 2 ^ k
  ((k : Int) + e) * 2 ^ 96 + (log2Bits 96 x 0 : Nat)

/-- Terms of the sine or cosine series at r: `t` is the current term, `i` the next factor. -/
def seriesFrom (r : Nat) : Nat → Nat → Int → Int → Int
  | 0, _, _, acc => acc
  | n + 1, i, t, acc =>
    let t' := -(t * (r * r : Nat) / (fxOne * fxOne * (i * (i + 1)) : Nat))
    seriesFrom r n (i + 2) t' (acc + t')

/-- The angle |a| reduced below 2π. -/
def reduced (m : Nat) (e : Int) : Nat :=
  let (n, d) := scalePair m 1 (e + 128)
  n / d % (2 * fxPi)

def sinFx (m : Nat) (e : Int) : Int := let r := reduced m e; seriesFrom r 40 2 r r
def cosFx (m : Nat) (e : Int) : Int := seriesFrom (reduced m e) 40 1 fxOne fxOne

/-- |a| in units of 2^-64, rounded down. -/
def units (m : Nat) (e : Int) : Nat := let (n, d) := scalePair m 1 (e + 64); n / d

/-- tanh of |a| below 64, at scale 2^128, from an enclosure end E of e^(2|a|): (E - 1) / (E + 1). -/
def tanhEnd (x : Int × Nat) : Nat :=
  let big := x.2 * 2 ^ x.1.toNat
  (big - fxOne) * fxOne / (big + fxOne)

/-- A closed interval of dyadic numbers. -/
structure Span where
  lo : Int × Int
  hi : Int × Int
  deriving DecidableEq, Repr

/-- An interval widened by a dyadic on both sides. -/
def Span.widen (x : Span) (d : Int × Int) : Span := ⟨addDy x.lo (-d.1, d.2), addDy x.hi d⟩

/-- The spacing of a format at a dyadic magnitude, `n` times (R230's ulp). -/
def FFmt.ulps (f : FFmt) (n : Int) (x : Int × Int) : Int × Int :=
  let e := if x.1 = 0 then 1 - f.bias else max ((x.1.natAbs.log2 : Int) + x.2) (1 - f.bias)
  (n, e - f.trail)

/-- Codes in numeric order as integers: negative ones below 0. -/
def FFmt.ordinal (f : FFmt) (code : Nat) : Int :=
  if f.signed && decide (2 ^ (f.width - 1) ≤ code) then -1 - ((code - 2 ^ (f.width - 1) : Nat) : Int) else (code : Int)
def FFmt.ofOrdinal (f : FFmt) (x : Int) : Nat :=
  if x < 0 then (-1 - x).toNat + 2 ^ (f.width - 1) else x.toNat

/-- The code that the device chooses among those whose values lie in an interval. -/
def FFmt.choose (f : FFmt) (x : Span) (free : Nat) : Nat :=
  let lo := f.ordinal (f.roundNum .rup false (decide (x.lo.1 < 0)) x.lo.1.natAbs x.lo.2).code
  let hi := f.ordinal (f.roundNum .rdn false (decide (x.hi.1 < 0)) x.hi.1.natAbs x.hi.2).code
  f.ofOrdinal (lo + ((free % ((hi - lo).toNat + 1) : Nat) : Int))

/-- More than the error of the fixed-point sines and cosines: 2^-100. -/
def slack : Int × Int := (1, -100)

/-- The ulp is that of the exact value (R230): 2^a lies in the binade of the floor of a, and |tanh| below 1. For |a| below 2^-40 the
result is between 1 + a/2 and 1 + a. Numbers of the class: 3 exp2, 4 log2, 5 sin, 6 cos, 7 tanh (the OP codes of R228). -/
def exp2Span (f : FFmt) (wide : Bool) (neg : Bool) (m : Nat) (e : Int) : Span :=
  let n : Int := if wide then 2 else 1
  if FVal.lt (.num false m e) (.num false 1 (-40)) then
    let near := addDy (1, 0) (if neg then -(m : Int) else m, e - 1)
    let far := addDy (1, 0) (if neg then -(m : Int) else m, e)
    (if neg then (⟨far, near⟩ : Span) else ⟨near, far⟩).widen (f.ulps n (1, if neg then -1 else 0))
  else
    let u : Int := (units m e : Nat)
    let lo := exp2Low (if neg then -u - 1 else u)
    let hi := exp2High (if neg then -u else u + 1)
    let x : Span := ⟨((lo.2 : Nat), lo.1 - 128), ((hi.2 : Nat), hi.1 - 128)⟩
    x.widen (f.ulps n (1, lo.1))

def log2Span (f : FFmt) (wide : Bool) (m : Nat) (e : Int) : Span :=
  let l := log2Low m e
  let x : Span := ⟨(l, -96), (l + 2, -96)⟩
  let inner := !(FVal.lt (.num false m e) (.num false 1 (-1))) && !(FVal.lt (.num false 2 0) (.num false m e))
  if wide && inner then x.widen (1, -22)
  else x.widen (f.ulps (if wide then 2 else 1) (if x.lo.1.natAbs ≤ x.hi.1.natAbs then x.hi else x.lo))

def trigSpan (cosine wide neg : Bool) (m : Nat) (e : Int) : Span :=
  let big := FVal.lt (.num false (if wide then 2 ^ 16 else 2 ^ 10) 0) (.num false m e)
  if big then ⟨(-1, 0), (1, 0)⟩
  else
    let v := if cosine then cosFx m e else if neg then -(sinFx m e) else sinFx m e
    (((⟨(v, -128), (v, -128)⟩ : Span).widen slack).widen (1, if wide then -21 else -9))

def tanhSpan (f : FFmt) (wide neg : Bool) (m : Nat) (e : Int) : Span :=
  let lo : Nat := if 64 * 2 ^ 64 ≤ units m e then fxOne - 2 ^ 40 else tanhEnd (exp2Low (2 * units m e * fxLog2e / fxOne : Nat))
  let hi : Nat :=
    if 64 * 2 ^ 64 ≤ units m e then fxOne else min fxOne (tanhEnd (exp2High ((2 * units m e + 2) * fxLog2e / fxOne + 2 : Nat)))
  let x : Span := (⟨((lo : Nat), -128), ((hi : Nat), -128)⟩ : Span).widen (1, -100)
  let below := if FVal.lt (.num false x.hi.1.natAbs x.hi.2) (.num false 1 0) then x.hi else (1, -1)
  let x := x.widen (if wide then (1, -20) else f.ulps 1 below)
  let top := if FVal.lt (.num false 1 0) (.num false x.hi.1.natAbs x.hi.2) then (1, 0) else x.hi
  if neg then ⟨(-top.1, top.2), (-x.lo.1, x.lo.2)⟩ else ⟨x.lo, top⟩

/-- The result for a finite non-zero operand that R229 does not list. -/
def approxSpan (f : FFmt) (fn : Nat) (neg : Bool) (m : Nat) (e : Int) : Span :=
  let wide := f.width = 32
  if fn = 3 then exp2Span f wide neg m e
  else if fn = 4 then log2Span f wide m e
  else if fn = 7 then tanhSpan f wide neg m e
  else trigSpan (decide (fn = 6)) wide neg m e

/-- m · 2^e is an integer; its value. -/
def intOf (neg : Bool) (m : Nat) (e : Int) : Option Int :=
  let (n, d) := scalePair m 1 e
  if n % d = 0 then some (if neg then -((n / d : Nat) : Int) else ((n / d : Nat) : Int)) else none

/-- An approximate function of a code of a format: `ty` its TYPE code. -/
def approxFn (f : FFmt) (fn ty : Nat) (sat : Bool) (code : Nat) : Nat :=
  let free := Config.approx fn ty sat code
  let one := (f.roundNum .rne false false 1 0).code
  let big (neg : Bool) := (f.overflow sat neg).code
  let inf (neg : Bool) := (f.overflow false neg).code
  match f.decode code with
  | .absent => f.absent
  | .nan => f.nan
  | .inf neg =>
    if fn = 3 then (if neg then 0 else inf false)
    else if fn = 4 then (if neg then f.nan else inf false)
    else if fn = 7 then (if neg then f.encodeMag true one else one)
    else f.nan
  | .num neg m e =>
    if m = 0 then (if fn = 3 ∨ fn = 6 then one else if fn = 4 then big true else f.encodeMag neg 0)
    else if fn = 4 ∧ neg then f.nan
    else if 5 ≤ fn ∧ FVal.lt (.num false m e) (.num false 1 (-12)) then (if fn = 6 then one else code)
    else if fn = 4 ∧ m = 2 ^ m.log2 then
      let n : Int := (m.log2 : Int) + e
      (f.roundNum .rne false (decide (n < 0)) n.natAbs 0).code
    else if fn = 3 ∧ !neg ∧ !(FVal.lt (.num neg m e) (.num false (f.maxCode / 2 ^ f.trail + 1 - f.bias.toNat) 0)) then big false
    else if fn = 3 ∧ FVal.lt (.num neg m e) (.num true (f.bias.toNat + f.trail - 1) 0) then 0
    else
      let exact : Option Int := if fn = 3 then intOf neg m e else none
      match exact with
      | some n => (f.roundNum .rne false false 1 n).code
      | none => f.choose (approxSpan f fn neg m e) free

end Sys2Proof.Machine
end

