-- ==== Sys2Proof/WellFormed.lean ====
section
/-!
DEFINITION. WellFormed.lean: which instruction words trap ILLEGAL for what stands in the word itself (R99, R101, R150,
R151, R153 to R158, R162 to R164 and each instruction's description). What depends on the team (its allocation, its
FMT, its stream slots, its tiles) is checked where the word is enqueued.
-/

namespace Sys2Proof

/-! ### Scalar words -/

/-- A load's SCOPE and ORDER (R99, R101). -/
def loadOrderOk (scope : BitVec 4) (ord : BitVec 2) : Bool := decide (scope.toNat ≤ 9) && decide (ord.toNat ≤ 1)
/-- A store's SCOPE and ORDER. -/
def storeOrderOk (scope : BitVec 4) (ord : BitVec 2) : Bool :=
  decide (scope.toNat ≤ 9) && (decide (ord.toNat = 0) || decide (ord.toNat = 2))
/-- RND 6 is reserved (R153). -/
def rndOk (r : BitVec 3) : Bool := decide (r.toNat ≠ 6)
/-- A mask number of a scalar field; a destination is not m0 (R151). -/
def maskSrcOk (m : BitVec 6) : Bool := decide (m.toNat < 16)
def maskDstOk (m : BitVec 6) : Bool := decide (0 < m.toNat) && decide (m.toNat < 16)
/-- The plain form of `yield` names neither A nor B (R268). -/
def yieldOk (a b : BitVec 6) : Bool := decide (a.toNat ≠ 0) || decide (b.toNat = 0)

/-! ### Operand codes of lane words (R157) -/

def isReg (c : BitVec 8) : Bool := decide (c.toNat < 0xE0)
def isSlot (c : BitVec 8) : Bool := decide (0xE0 ≤ c.toNat) && decide (c.toNat ≤ 0xE3)
def isSpecial (c : BitVec 8) : Bool := decide (0xE4 ≤ c.toNat) && decide (c.toNat ≤ 0xEE)
def isCap (c : BitVec 8) : Bool := decide (c.toNat = 0xF0) || decide (c.toNat = 0xF1)
def isZero8 (c : BitVec 8) : Bool := decide (c.toNat = 0)

/-- Bits of an element of a TYPE code; 0 for a block (R153). -/
def tyBits (t : Nat) : Nat :=
  if t = 0x0 ∨ t = 0x8 ∨ t = 0xC then 64
  else if t = 0x1 ∨ t = 0x7 ∨ t = 0xB then 32
  else if t = 0x2 ∨ t = 0x3 ∨ t = 0x6 ∨ t = 0xA then 16
  else if t = 0x4 ∨ t = 0x5 ∨ t = 0x9 then 8
  else 0
/-- Elements per register, 1 for a 64-bit type (R201, R233). -/
def tyElems (t : Nat) : Nat := if tyBits t = 16 then 2 else if tyBits t = 8 then 4 else 1
def tyIsFloat (t : Nat) : Bool := decide (t ≤ 3)
def tyIsInt (t : Nat) : Bool := decide (5 ≤ t) && decide (t ≤ 0xC)
def tyIsSigned (t : Nat) : Bool := decide (5 ≤ t) && decide (t ≤ 8)
def tyIsBlock (t : Nat) : Bool := decide (0xD ≤ t)
/-- A block type or `.blkf`, code 0x0 (R66). -/
def tyIsBlkf (t : Nat) : Bool := decide (t = 0) || tyIsBlock t

/-- A register operand that holds `bits` bits: a pair is even (R24). -/
def regOk (c : BitVec 8) (bits : Nat) : Bool := isReg c && (decide (bits ≠ 64) || decide (c.toNat % 2 = 0))
/-- A source operand of `bits` bits. -/
def srcOk (c : BitVec 8) (bits : Nat) : Bool := regOk c bits || isSlot c || isSpecial c || isCap c
/-- The same without captures and slots. -/
def plainSrcOk (c : BitVec 8) (bits : Nat) : Bool := regOk c bits || isSpecial c
/-- The same without captures alone (R204). -/
def slotSrcOk (c : BitVec 8) (bits : Nat) : Bool := plainSrcOk c bits || isSlot c
/-- A destination mask and the masks after it for the elements of the type (R157, R212). -/
def maskOk (d : BitVec 8) (t : Nat) : Bool := decide (0 < d.toNat) && decide (d.toNat + tyElems t ≤ 16)

namespace LaneFields

def immF (f : LaneFields) (lo len : Nat) : Nat := fld f.imm.toNat lo len
def modF (f : LaneFields) (lo len : Nat) : Nat := fld f.mod.toNat lo len
def t (f : LaneFields) : Nat := f.ty.toNat
/-- [43] of POST: the word posts (R152). -/
def posts (f : LaneFields) : Bool := decide (16 ≤ f.post.toNat)
/-- [42:39] of POST: the token. -/
def token (f : LaneFields) : Nat := f.post.toNat % 16

/-- The rows POST and REUSE of R154, with `reuse` where the class allows it. -/
def common (f : LaneFields) (reuse : Bool) : Bool :=
  (f.posts || decide (f.post.toNat = 0)) && (reuse || decide (f.reuse.toNat = 0))
def rnd0 (f : LaneFields) : Bool := decide (f.rnd.toNat = 0)
def rndAny (f : LaneFields) : Bool := decide (f.rnd.toNat ≠ 6)
def sat0 (f : LaneFields) : Bool := decide (f.sat.toNat = 0)
def b0 (f : LaneFields) : Bool := isZero8 f.b
/-- MOD holds no bit outside `allowed`. -/
def modOnly (f : LaneFields) (allowed : Nat) : Bool := decide (f.mod.toNat &&& (63 - allowed) = 0)
def ib (f : LaneFields) : Bool := decide (f.modF 5 1 = 1)
def tyIn (f : LaneFields) (ts : List Nat) : Bool := ts.contains f.t

/-- The captures use of IMM (R158), for the operand codes that the word names; `rest` are the bits that have to be 0. DESIGN CHOICE (log
entry 88, unsafe): outside classes 8 and 9 these are IMM[31:14] too, of which R158 says nothing in this use. -/
def capsOk (f : LaneFields) (codes : List (BitVec 8)) (rest : Nat) : Bool :=
  let x := codes.any fun c => decide (c.toNat = 0xF0)
  let y := codes.any fun c => decide (c.toNat = 0xF1)
  (x || !y) && (x || decide (f.immF 0 6 = 0)) && (y || decide (f.immF 8 6 = 0)) && decide (f.imm.toNat &&& rest = 0)

/-- No stream slot named twice (R205). -/
def slotsOk (codes : List (BitVec 8)) : Bool :=
  let q := codes.filter isSlot
  decide q.Nodup

/-- The immediate of R158 fits its reading for an element of `bits` bits (a 16-bit immediate stands in IMM[15:0]). -/
def immFits (f : LaneFields) (bits : Nat) : Bool := decide (16 < bits) || decide (f.imm.toNat >>> bits = 0)

/-- A and B under R158: an immediate B with MOD[5], else sources with captures. -/
def abIb (f : LaneFields) (bits : Nat) : Bool :=
  srcOk f.a bits &&
  (if f.ib then f.b0 && !isCap f.a && f.immFits bits
   else srcOk f.b bits && f.capsOk [f.a, f.b] 0xFFFFC0C0 && slotsOk [f.a, f.b])

/-- A alone, with captures. -/
def aOnly (f : LaneFields) (bits : Nat) : Bool := srcOk f.a bits && f.b0 && f.capsOk [f.a] 0xFFFFC0C0

/-- A, B and the third operand C of IMM[7:0]; `top` bits of IMM may stand above it (R158, R208). -/
def abc (f : LaneFields) (bits top : Nat) : Bool :=
  let c : BitVec 8 := BitVec.ofNat 8 f.imm.toNat
  srcOk f.a bits && srcOk f.b bits && srcOk c bits && !isCap f.a && !isCap f.b && !isCap c
    && decide (f.imm.toNat >>> (8 + top) = 0) && slotsOk [f.a, f.b, c]

/-- Class 0x0 (R206). -/
def class0 (f : LaneFields) (types : List Nat) (sat : Bool) : Bool :=
  f.common false && f.rnd0 && f.tyIn types && (sat || f.sat0) && regOk f.d (tyBits f.t)

def intTypes : List Nat := [0x5, 0x6, 0x7, 0x8, 0x9, 0xA, 0xB, 0xC]
def int3264 : List Nat := [0x7, 0x8, 0xB, 0xC]
def noBlocks : List Nat := [0x0, 0x1, 0x2, 0x3, 0x4, 0x5, 0x6, 0x7, 0x8, 0x9, 0xA, 0xB, 0xC]
def shiftTypes : List Nat := [0x6, 0x7, 0x8, 0xA, 0xB, 0xC]
def blkfTypes : List Nat := [0x0, 0xD, 0xE, 0xF]

def arithOk (f : LaneFields) (types : List Nat) (sat : Bool) : Bool :=
  f.class0 types sat && f.modOnly 0x30 && f.abIb (tyBits f.t)
def imadOk (f : LaneFields) : Bool := f.class0 intTypes true && f.modOnly 0x10 && f.abc (tyBits f.t) 0
def unaryIntOk (f : LaneFields) (types : List Nat) : Bool :=
  f.class0 types true && f.modOnly 0x10 && f.aOnly (tyBits f.t)
def movOk (f : LaneFields) : Bool :=
  f.class0 noBlocks false && f.modOnly 0x20 &&
    (if f.ib then isZero8 f.a && f.b0 && f.immFits (tyBits f.t) else f.aOnly (tyBits f.t))

/-- Classes 0x1 and 0x2 without a TYPE. -/
def untyped (f : LaneFields) : Bool := f.common false && f.rnd0 && decide (f.t = 0) && f.sat0
def lfn3Ok (f : LaneFields) : Bool := f.untyped && f.modOnly 0 && regOk f.d 32 && f.abc 32 8
def shiftOk (f : LaneFields) : Bool := f.class0 shiftTypes false && f.modOnly 0x20 && f.abIb (tyBits f.t)
def bfextOk (f : LaneFields) : Bool := f.class0 [0xB, 0x7] false && f.modOnly 0x20 && f.abIb 32
def bfinsOk (f : LaneFields) : Bool := f.class0 [0xB] false && f.modOnly 0 && f.abc 32 0
def bitsOk (f : LaneFields) : Bool := f.untyped && f.modOnly 0 && regOk f.d 32 && f.aOnly 32

/-- Class 0x2 (R211 to R214). -/
def icmpOk (f : LaneFields) : Bool :=
  f.common false && f.rnd0 && f.sat0 && f.tyIn intTypes && f.modOnly 0x37 && decide (f.modF 0 3 ≤ 5)
    && maskOk f.d f.t && f.abIb (tyBits f.t)
def fcmpOk (f : LaneFields) : Bool :=
  f.common false && f.rnd0 && f.sat0 && f.tyIn [0, 1, 2, 3] && f.modOnly 0x27 && decide (f.modF 0 3 ≤ 6)
    && maskOk f.d f.t && f.abIb (tyBits f.t)
def selOk (f : LaneFields) : Bool := f.class0 noBlocks false && f.modOnly 0x2F && f.abIb (tyBits f.t)
def voteOk (f : LaneFields) : Bool := f.untyped && f.modOnly 0x03 && maskOk f.d 1 && f.aOnly 32

/-- Class 0x3 (R224). -/
def class3 (f : LaneFields) (round : Bool) : Bool :=
  f.common false && f.tyIn [0, 1, 2, 3] && (if round then f.rndAny else f.rnd0 && f.sat0) && regOk f.d (tyBits f.t)
def farithOk (f : LaneFields) : Bool := f.class3 true && f.modOnly 0x20 && f.abIb (tyBits f.t)
def ffmaOk (f : LaneFields) : Bool := f.class3 true && f.modOnly 0 && f.abc (tyBits f.t) 0
def fminOk (f : LaneFields) : Bool := f.class3 false && f.modOnly 0x20 && f.abIb (tyBits f.t)
def funaryOk (f : LaneFields) : Bool := f.class3 false && f.modOnly 0 && f.aOnly (tyBits f.t)

/-- Class 0x4 (R228). -/
def specialOk (f : LaneFields) (round : Bool) : Bool :=
  f.common false && f.tyIn [1, 2, 3] && (if round then f.rndAny else f.rnd0) && f.modOnly 0 && regOk f.d 32
    && f.aOnly 32

/-- Registers that E elements of a type occupy (R233). -/
def spanRegs (e t : Nat) : Nat := max 1 (e * tyBits t / 32)

/-- Class 0x5 (R232, R233, R236). -/
def cvtOk (f : LaneFields) : Bool :=
  let st := f.modF 0 4
  let e := max (tyElems f.t) (tyElems st)
  f.common false && f.tyIn noBlocks && noBlocks.contains st && f.rndAny
    && (decide (f.modF 4 1 = 0) || tyIsInt f.t || tyIsInt st)
    && regOk f.d (tyBits f.t) && f.b0 && f.capsOk [f.a] 0xFFFFC0C0
    && (regOk f.a (tyBits st) || ((isSpecial f.a || isSlot f.a || isCap f.a) && decide (spanRegs e st = 1)))
def frndOk (f : LaneFields) : Bool :=
  f.common false && f.tyIn [0, 1, 2, 3] && f.rndAny && f.sat0 && f.modOnly 0 && regOk f.d (tyBits f.t)
    && f.aOnly (tyBits f.t)

/-- Class 0x6 (R238 to R243). -/
def bpackOk (f : LaneFields) : Bool :=
  f.common false && f.tyIn blkfTypes && f.rndAny && f.b0 && regOk f.d 32 && plainSrcOk f.a 32
    && [1, 2, 3].contains (f.modF 0 4)
    && (if f.modF 4 1 = 1 then decide (f.imm.toNat < 256) else decide (f.imm.toNat = 0) && f.sat0)
def bunpackOk (f : LaneFields) : Bool :=
  f.common false && f.tyIn [1, 2, 3] && f.rndAny && f.modOnly 0x0F && blkfTypes.contains (f.modF 0 4) && f.b0
    && decide (f.imm.toNat = 0) && regOk f.d 32 && isReg f.a
def bscaleOk (f : LaneFields) : Bool :=
  f.common false && f.tyIn blkfTypes && f.rndAny && f.modOnly 0x20 && f.b0 && regOk f.d 32 && isReg f.a
def presTypes (f : LaneFields) : Bool :=
  if f.modF 4 1 = 1 then tyIsInt f.t else decide (f.t ≤ 4)
def fpresOk (f : LaneFields) : Bool :=
  f.common false && f.rnd0 && f.sat0 && f.modOnly 0x10 && f.presTypes && maskOk f.d f.t && f.aOnly (tyBits f.t)
def fdfltOk (f : LaneFields) : Bool :=
  f.common false && f.rnd0 && f.sat0 && f.modOnly 0x30 && f.presTypes && regOk f.d (tyBits f.t) && f.abIb (tyBits f.t)
def histOk (f : LaneFields) : Bool :=
  f.common false && f.rnd0 && f.sat0 && f.modOnly 0x03 && isZero8 f.d && f.tyIn [0, 1, 2, 3, 4, 0xD, 0xE, 0xF]
    && (if tyIsBlock f.t then isReg f.a && f.aOnly 32 else f.aOnly (tyBits f.t))

/-- Class 0x7 (R215 to R218). -/
def shflOk (f : LaneFields) : Bool :=
  f.common false && f.rnd0 && f.sat0 && f.tyIn [0xB, 0xC] && decide (f.modF 0 3 ≤ 4) && regOk f.d (tyBits f.t)
    && (if f.ib then slotSrcOk f.a (tyBits f.t) && f.b0 && decide (f.imm.toNat < 32)
        else srcOk f.a (tyBits f.t) && srcOk f.b 32 && f.capsOk [f.a, f.b] 0xFFFFC0C0 && slotsOk [f.a, f.b]
          && (decide (f.modF 0 3 ≠ 4) || isCap f.b))
def quadOk (f : LaneFields) : Bool :=
  f.common false && f.rnd0 && f.sat0 && f.tyIn [0xB, 0xC] && f.modOnly 0x07 && decide (f.modF 0 3 ≤ 4)
    && regOk f.d (tyBits f.t) && slotSrcOk f.a (tyBits f.t) && f.b0
    && (if f.modF 0 3 = 3 then decide (f.imm.toNat < 4) else decide (f.imm.toNat = 0))
def redOk (f : LaneFields) : Bool :=
  let fn := f.modF 0 4
  f.common false && f.posts && decide (fn ≤ 5) && f.b0 && decide (f.imm.toNat = 0)
    && (if fn < 3 then f.tyIn [0, 1, 2, 3, 7, 8, 0xB, 0xC] else f.tyIn [0xB, 0xC])
    && (if fn = 0 then (if tyIsFloat f.t then f.rndAny else f.rnd0) else f.rnd0 && f.sat0)
    && (decide (f.modF 5 1 = 0) || tyIsInt f.t)
    && regOk f.d (tyBits f.t) && srcOk f.a (tyBits f.t) && f.capsOk [f.a] 0xFFFFFFFF

/-- Classes 0x8 and 0x9: the address fields (R248 to R250). -/
def addrOk (f : LaneFields) : Bool :=
  (isCap f.a || regOk f.a (if f.modF 5 1 = 1 then 64 else 32)) && !isSlot f.b
    && f.capsOk [f.a, f.b] 0x0000C0C0 && decide (f.immF 16 4 ≤ 9)
def ord (f : LaneFields) : Nat := f.modF 3 2
/-- What the words of class 0x8 share (R248 to R250). DESIGN CHOICE (log entry 88, unsafe): a lane special may stand in B, of which R249
and R255 name a register or a capture and R250 forbids ZERO in class 0x9 alone. -/
def memOk (f : LaneFields) : Bool :=
  f.common false && f.rnd0 && f.sat0 && f.addrOk && decide (f.modF 1 2 ≤ 1) && decide (f.modF 0 1 = 0) && srcOk f.b 32
def ldOk (f : LaneFields) : Bool := f.memOk && f.posts && decide (f.ord ≤ 1) && regOk f.d (tyBits f.t)
def stOk (f : LaneFields) : Bool :=
  f.memOk && (decide (f.ord = 0) || decide (f.ord = 2)) && regOk f.d (tyBits f.t)
def prefOk (f : LaneFields) : Bool :=
  f.memOk && decide (f.modF 5 1 = 1) && decide (f.ord = 0) && decide (f.immF 16 4 = 0) && isZero8 f.d
/-- The types and modifiers of R256, by the operation's row. -/
def atomTypes (f : LaneFields) (types : List Nat) (rnd sat ab : Bool) : Bool :=
  f.tyIn types && (if rnd then f.rndAny else f.rnd0) && (sat || f.sat0) && f.modOnly (if ab then 0x3C else 0x38)
/-- What the words of class 0x9 share (R255, R258); for B see `memOk`. -/
def atomCommon (f : LaneFields) : Bool :=
  f.common false && f.addrOk && decide (f.b.toNat ≠ 0xEC) && srcOk f.b (tyBits f.t)
def atomOk (f : LaneFields) (types : List Nat) (rnd sat ab : Bool) : Bool :=
  f.atomTypes types rnd sat ab && f.atomCommon && f.posts && regOk f.d (tyBits f.t)
def noRetOk (f : LaneFields) (types : List Nat) (rnd sat ab : Bool) : Bool :=
  f.atomTypes types rnd sat ab && f.atomCommon && isZero8 f.d && (decide (f.ord = 0) || decide (f.ord = 2))

/-- Class 0xA (R276, R282). -/
def tileOk (c : BitVec 8) : Bool := decide (c.toNat < 16)
def mmOk (f : LaneFields) (reuse : Bool) (immMask : Nat) : Bool :=
  f.common reuse && f.rnd0 && f.sat0 && f.posts && f.tyIn [2, 3, 4, 0, 0xD, 0xE, 0xF] && tileOk f.d && isReg f.a
    && (if tyIsBlkf f.t then isReg f.b else f.b0) && f.modOnly 0x20 && decide (f.imm.toNat &&& (0xFFFFFFFF - immMask) = 0)
def mmzeroOk (f : LaneFields) : Bool :=
  f.common true && f.rnd0 && f.sat0 && decide (f.t = 0) && decide (f.mask.toNat = 0) && tileOk f.d && isZero8 f.a && f.b0
    && f.modOnly 0 && decide (f.imm.toNat = 0)
def mmdrainOk (f : LaneFields) : Bool :=
  f.common true && f.rndAny && f.posts && f.tyIn [1, 2, 3, 4, 0, 0xD, 0xE, 0xF] && tileOk f.a && f.b0 && f.modOnly 0x3E
    && (if f.modF 5 1 = 1 then isZero8 f.d && decide (f.imm.toNat &&& 0x0000FFC0 = 0)
        else isReg f.d && decide (f.imm.toNat = 0))
def mmcheckOk (f : LaneFields) : Bool :=
  f.common true && f.rnd0 && f.sat0 && decide (f.t = 0) && tileOk f.d && isZero8 f.a && f.b0 && f.modOnly 0x02
    && decide (f.imm.toNat < 256) && (decide (f.imm.toNat < 0xE0) || decide (f.imm.toNat = 0xEC))

end LaneFields

/-! ### Pair words (R162 to R164) -/

namespace PairHalf

def op (h : PairHalf) : Nat := h.op6.toNat
def isFp (h : PairHalf) : Bool := decide (0x10 ≤ h.op)
def isLogic (h : PairHalf) : Bool := decide (0x08 ≤ h.op) && decide (h.op ≤ 0x0A)
def isAcc (h : PairHalf) : Bool := decide (h.op = 0x03) || decide (h.op = 0x13)
def isMov (h : PairHalf) : Bool := decide (h.op = 0x06)
/-- The TYPE code of a TYPE3 (R163). -/
def tyCode (h : PairHalf) : Nat :=
  if h.ty3.toNat = 0 then 1 else if h.ty3.toNat = 1 then 2 else if h.ty3.toNat = 2 then 3
  else if h.ty3.toNat = 3 then 7 else 0xB
/-- The RND code of an RND2 (R162). -/
def rndCode (h : PairHalf) : Nat :=
  if h.rnd2.toNat = 0 then 0 else if h.rnd2.toNat = 1 then 2 else if h.rnd2.toNat = 2 then 5 else 7
/-- The operand codes that a half reads (R164): a `mov` reads no B, an accumulating half reads D, a logic half ZERO. -/
def sources (h : PairHalf) : List (BitVec 8) :=
  [h.a] ++ (if h.isMov then [] else [h.b]) ++ (if h.isAcc then [h.d] else []) ++ (if h.isLogic then [0xEC#8] else [])
/-- R163 for one half. -/
def halfOk (h : PairHalf) : Bool :=
  (decide (h.op ≤ 0x06) || h.isLogic || (decide (0x0B ≤ h.op) && decide (h.op ≤ 0x0D))
      || (decide (0x10 ≤ h.op) && decide (h.op ≤ 0x15)))
    && decide (h.ty3.toNat ≤ 4) && decide (h.rsvd.toNat = 0)
    && (if h.isFp then decide (h.ty3.toNat ≤ 2) else decide (3 ≤ h.ty3.toNat) && decide (h.rnd2.toNat = 0))
    && isReg h.d && (isReg h.a || isSpecial h.a)
    && (if h.isMov then isZero8 h.b else isReg h.b || isSpecial h.b)
def packed (h : PairHalf) : Bool := decide (h.ty3.toNat = 1) || decide (h.ty3.toNat = 2)

end PairHalf

/-- Distinct codes of a list. -/
def distinct (cs : List (BitVec 8)) : List (BitVec 8) := cs.eraseDups

/-- R164. -/
def pairOk (x y : PairHalf) : Bool :=
  x.halfOk && y.halfOk && decide (x.d.toNat % 4 ≠ y.d.toNat % 4)
    && decide ((distinct (x.sources ++ y.sources)).length ≤ 3)
    && (x.packed == y.packed) && !(y.sources.contains x.d)

/-! ### All instructions -/

/-- An instruction whose word is not ILLEGAL by itself; an unassigned word is well formed as what it is: a word that no
row of R147 assigns. Hardware events have no word. -/
def Instr.wf : Instr → Bool
  | .iadd _ _ _ => true
  | .isub _ _ _ => true
  | .imul _ _ _ => true
  | .imulh _ _ _ => true
  | .imulhu _ _ _ => true
  | .idiv _ _ _ => true
  | .idivu _ _ _ => true
  | .irem _ _ _ => true
  | .iremu _ _ _ => true
  | .and _ _ _ => true
  | .or _ _ _ => true
  | .xor _ _ _ => true
  | .shl _ _ _ => true
  | .shr _ _ _ => true
  | .sar _ _ _ => true
  | .imin _ _ _ => true
  | .imax _ _ _ => true
  | .iminu _ _ _ => true
  | .imaxu _ _ _ => true
  | .cmp _ _ => true
  | .sxt8 _ _ => true
  | .sxt16 _ _ => true
  | .sxt32 _ _ => true
  | .selCc _ _ _ _ => true
  | .iaddi _ _ _ => true
  | .imuli _ _ _ => true
  | .andi _ _ _ => true
  | .ori _ _ _ => true
  | .xori _ _ _ => true
  | .shli _ _ _ => true
  | .shri _ _ _ => true
  | .sari _ _ _ => true
  | .cmpi _ _ => true
  | .brCc _ _ => true
  | .call _ => true
  | .jr _ => true
  | .callr _ => true
  | .ret => true
  | .dbnz _ _ => true
  | .ldS _ _ _ s c _ => loadOrderOk s c
  | .ldG _ _ _ s c _ => loadOrderOk s c
  | .stS _ _ _ s c _ => storeOrderOk s c
  | .stG _ _ _ s c _ => storeOrderOk s c
  | .atomAddS _ _ _ _ => true
  | .atomMinS _ _ _ _ => true
  | .atomMaxS _ _ _ _ => true
  | .atomMinuS _ _ _ _ => true
  | .atomMaxuS _ _ _ _ => true
  | .atomAndS _ _ _ _ => true
  | .atomOrS _ _ _ _ => true
  | .atomXorS _ _ _ _ => true
  | .atomExchS _ _ _ _ => true
  | .atomCasS _ _ _ _ => true
  | .atomFaddS _ _ _ => true
  | .atomFmaxS _ _ _ => true
  | .atomFminS _ _ _ => true
  | .atomAddG _ _ _ _ => true
  | .atomMinG _ _ _ _ => true
  | .atomMaxG _ _ _ _ => true
  | .atomMinuG _ _ _ _ => true
  | .atomMaxuG _ _ _ _ => true
  | .atomAndG _ _ _ _ => true
  | .atomOrG _ _ _ _ => true
  | .atomXorG _ _ _ _ => true
  | .atomExchG _ _ _ _ => true
  | .atomCasG _ _ _ _ => true
  | .atomFaddG _ _ _ => true
  | .atomFmaxG _ _ _ => true
  | .atomFminG _ _ _ => true
  | .faddF32 _ _ _ r => rndOk r
  | .fsubF32 _ _ _ r => rndOk r
  | .fmulF32 _ _ _ r => rndOk r
  | .ffmaF32 _ _ _ r => rndOk r
  | .fminF32 _ _ _ => true
  | .fmaxF32 _ _ _ => true
  | .fcmpF32 _ _ => true
  | .cvtF32S32 _ _ r => rndOk r
  | .cvtS32F32 _ _ r => rndOk r
  | .lrun _ => true
  | .lrunr _ => true
  | .lsync => true
  | .lqcnt _ => true
  | .wait _ _ => true
  | .tkrd _ _ => true
  | .fmtset _ => true
  | .fmtget _ => true
  | .srseed _ _ => true
  | .mand d a b => maskDstOk d && maskSrcOk a && maskSrcOk b
  | .mor d a b => maskDstOk d && maskSrcOk a && maskSrcOk b
  | .mxor d a b => maskDstOk d && maskSrcOk a && maskSrcOk b
  | .mnot d a => maskDstOk d && maskSrcOk a
  | .mcount _ a => maskSrcOk a
  | .mfirst _ a => maskSrcOk a
  | .mtest a => maskSrcOk a
  | .mset d _ _ => maskDstOk d
  | .qset _ b f => decide (b.toNat < 4) && decide (f.toNat < 5)
  | .qget _ b f => decide (b.toNat < 4) && decide (f.toNat < 5)
  | .bar _ _ => true
  | .barGang _ _ => true
  | .stexp _ _ => true
  | .starr _ s => decide (s.toNat ≤ 9)
  | .sttest _ _ _ s => decide (s.toNat ≤ 9)
  | .stwait _ _ _ s => decide (s.toNat ≤ 9)
  | .yield _ a b => yieldOk a b
  | .mwait _ _ _ => true
  | .fence s c => decide (c.toNat ≠ 0) && decide (s.toNat ≤ 9)
  | .sub _ _ _ => true
  | .unsub _ _ => true
  | .subflush _ _ => true
  | .launch _ _ => true
  | .cget _ r => decide (r.toNat < 16)
  | .cset _ r => decide (r.toNat < 16)
  | .tlbw _ _ _ => true
  | .tlbi _ => true
  | .tlbrW0 _ _ => true
  | .tlbrW1 _ _ => true
  | .nop => true
  | .halt => true
  | .eret => true
  | .brk => true
  | .trap _ _ => true
  | .mark _ => true
  | .ext _ => true
  | .unassignedScalarWord word => (decodeAssigned word.toNat).isNone
  | .laneIadd f => f.arithOk LaneFields.intTypes true
  | .laneIsub f => f.arithOk LaneFields.intTypes true
  | .laneImul f => f.arithOk LaneFields.intTypes true
  | .laneImulhi f => f.arithOk LaneFields.int3264 false
  | .laneImad f => f.imadOk
  | .laneIdiv f => f.arithOk LaneFields.int3264 true
  | .laneIrem f => f.arithOk LaneFields.int3264 false
  | .laneImin f => f.arithOk LaneFields.intTypes false
  | .laneImax f => f.arithOk LaneFields.intTypes false
  | .laneIabs f => f.unaryIntOk [5, 6, 7, 8]
  | .laneIneg f => f.unaryIntOk LaneFields.intTypes
  | .laneMov f => f.movOk
  | .laneLfn3 f => f.lfn3Ok
  | .laneIshl f => f.shiftOk
  | .laneIshr f => f.shiftOk
  | .laneIsar f => f.shiftOk
  | .laneIrot f => f.shiftOk
  | .laneBfext f => f.bfextOk
  | .laneBfins f => f.bfinsOk
  | .laneBfrev f => f.bitsOk
  | .lanePopc f => f.bitsOk
  | .laneClz f => f.bitsOk
  | .laneCtz f => f.bitsOk
  | .laneIcmp f => f.icmpOk
  | .laneFcmp f => f.fcmpOk
  | .laneSel f => f.selOk
  | .laneVote f => f.voteOk
  | .laneFadd f => f.farithOk
  | .laneFsub f => f.farithOk
  | .laneFmul f => f.farithOk
  | .laneFfma f => f.ffmaOk
  | .laneFmin f => f.fminOk
  | .laneFmax f => f.fminOk
  | .laneFabs f => f.funaryOk
  | .laneFneg f => f.funaryOk
  | .laneFclass f => f.funaryOk
  | .laneFrcp f => f.specialOk true
  | .laneFrsq f => f.specialOk true
  | .laneFsqrt f => f.specialOk true
  | .laneFexp2 f => f.specialOk false
  | .laneFlog2 f => f.specialOk false
  | .laneFsin f => f.specialOk false
  | .laneFcos f => f.specialOk false
  | .laneFtanh f => f.specialOk false
  | .laneCvt f => f.cvtOk
  | .laneFrnd f => f.frndOk
  | .laneBpack f => f.bpackOk
  | .laneBunpack f => f.bunpackOk
  | .laneBscale f => f.bscaleOk
  | .laneFpres f => f.fpresOk
  | .laneFdflt f => f.fdfltOk
  | .laneHist f => f.histOk
  | .laneShfl f => f.shflOk
  | .laneQuad f => f.quadOk
  | .laneWred f => f.redOk
  | .laneTred f => f.redOk
  | .laneLd f => f.ldOk
  | .laneSt f => f.stOk
  | .lanePref f => f.prefOk
  | .laneAtomAdd f => f.atomOk LaneFields.int3264 false true true
  | .laneAtomMin f => f.atomOk LaneFields.int3264 false false true
  | .laneAtomMax f => f.atomOk LaneFields.int3264 false false true
  | .laneAtomAnd f => f.atomOk [0xB, 0xC] false false false
  | .laneAtomOr f => f.atomOk [0xB, 0xC] false false false
  | .laneAtomXor f => f.atomOk [0xB, 0xC] false false false
  | .laneAtomExch f => f.atomOk [0xB, 0xC] false false false
  | .laneAtomCas f => f.atomOk [0xB, 0xC] false false false
  | .laneAtomFadd f => f.atomOk [1, 2, 3] true true false
  | .laneAtomFmax f => f.atomOk [1, 2, 3] false false false
  | .laneAtomFmin f => f.atomOk [1, 2, 3] false false false
  | .laneRedAdd f => f.noRetOk LaneFields.int3264 false true true
  | .laneRedMin f => f.noRetOk LaneFields.int3264 false false true
  | .laneRedMax f => f.noRetOk LaneFields.int3264 false false true
  | .laneRedAnd f => f.noRetOk [0xB, 0xC] false false false
  | .laneRedOr f => f.noRetOk [0xB, 0xC] false false false
  | .laneRedXor f => f.noRetOk [0xB, 0xC] false false false
  | .laneRedFadd f => f.noRetOk [1, 2, 3] true true false
  | .laneRedFmax f => f.noRetOk [1, 2, 3] false false false
  | .laneRedFmin f => f.noRetOk [1, 2, 3] false false false
  | .mma f => f.mmOk true 0x3F
  | .mmloop f => f.mmOk false 0x3F3F
  | .mmzero f => f.mmzeroOk
  | .mmdrain f => f.mmdrainOk
  | .mmcheck f => f.mmcheckOk
  | .pairWord x y => pairOk x y
  | .queueEnable _ _ => true
  | .submit _ _ _ => true
  | .launchPacket _ => true
  | .revocationRequest _ _ => true
  | .resourceSeizure _ _ _ => true
  | .resourceGrant _ _ _ _ => true
  | .claimRequest _ _ _ => true
  | .claimRelease _ _ _ => true
  | .claimDeadline _ _ => true
  | .haltctlHalt _ _ _ _ => true
  | .haltctlResume _ _ _ _ => true
  | .haltctlStep _ _ _ _ => true
  | .haltctlSave _ _ _ _ => true
  | .traceEnable _ _ => true
  | .rollCallEnable _ _ _ => true
  | .counterSave _ _ => true
  | .counterLoad _ _ => true
  | .strike _ => true
  | .selfTest _ _ _ => true
  | .partitionJoin _ => true
  | .quiesce _ _ => true
  | .ptmExchange _ => true
  | .telemetryRefresh _ => true
  | .registerWrite _ _ _ => true
  | .fixedLatencyWriteBack => true
  | .loadDelivery => true
  | .atomicReturn => true
  | .reductionComplete => true
  | .storeDelayDeparture => true
  | .writePerformed => true
  | .reductionLinePerformed => true
  | .matrixCommandStart => true
  | .matrixStep => true
  | .matrixCommandComplete => true
  | .crewArrival => true
  | .ferryGo => true
  | .ferryLinePerformed => true
  | .postcardClose => true
  | .postcardApplication => true
  | .trapEntry => true
  | .escalation => true
  | .dispatcherRound => true
  | .headAgeExpiry => true
  | .yieldDeadline => true
  | .teamSave => true
  | .queuePeriodExpiry => true
  | .budgetOverrun => true
  | .revocationReply => true
  | .revocationDeadline => true
  | .escalationEnd => true
  | .escalationResume => true
  | .escalationSave => true
  | .wctlKeyLoad => true
  | .wctlKeyErase => true
  | .wctlGo => true
  | .rotationLine => true
  | .frameEvict => true
  | .frameReturn => true
  | .frameScrub => true
  | .boot => true
  | .powerLoss => true
  | .thermalTrip => true
  | .attestationReport => true
  | .rollCallSample => true
  | .lifetimeFlush => true
  | .errorBlockClear => true
  | .flitCrcFailure => true
  | .linkUp => true
  | .fabricRequestGiveUp => true
  | .stopped => true
  | .fabricResume => true
  | .clockReduction => true
  | .clockRaise => true
  | .prefetchFetchEnded => true
  | .linkGoesDown => true
  | .orderlyShutdown => true

end Sys2Proof
end

