-- ==== Sys2Proof/Machine/State.lean ====
section
/-!
DEFINITION. Machine/State.lean: everything the spec gives the machine, as plain data, and the state after reset.
Tables are sparse lists (Machine/Store.lean): an entry that is not listed holds the default value named beside it.
-/

namespace Sys2Proof.Machine

/-- No step of the QK9 ends in a fault: every trap of R12 is taken, as a next state. -/
inductive Fault where
  deriving DecidableEq, Repr

/-- What the model gives no meaning to. -/
inductive Refusal where
  /-- raised by the dispatch for an instruction whose meaning is not written; safe: the model stops. -/
  | notModelled (mnemonic : String)
  deriving DecidableEq, Repr

/-! ### The state of a team (R18) -/

/-- PSTAT (R20). -/
structure Pstat where
  tag   : BitVec 16 := 0
  world : BitVec 8 := 0
  inh   : Bool := false
  stp   : Bool := false
  pl    : BitVec 2 := 0
  chk   : Bool := false
  p     : Bool := false
  ma    : Bool := false
  mz    : Bool := false
  n     : Bool := false
  z     : Bool := false
  c     : Bool := false
  v     : Bool := false
  deriving DecidableEq, Repr, Inhabited

/-- A token: count 0 to 63 and the cancel flag (R30). -/
structure Token where
  count  : Nat := 0
  cancel : Bool := false
  deriving DecidableEq, Repr, Inhabited

/-- A stream slot (R32). -/
structure Slot where
  base   : Word := 0
  kind   : BitVec 1 := 0
  ty     : BitVec 4 := 0
  stride : BitVec 32 := 0
  count  : BitVec 32 := 0
  pos    : BitVec 32 := 0
  deriving DecidableEq, Repr, Inhabited

/-- An entry of the lane queue with its captures (R37, R39, R41, R244). -/
structure LaneEntry where
  word : BitVec 96 := 0
  seq  : BitVec 32 := 0
  lidx : Nat := 0
  /-- the `lrun` or `lrunr` that enqueued it -/
  pc   : Word := 0
  x    : Word := 0
  y    : Word := 0
  fmt  : Word := 0
  seed : Word := 0
  /-- SRCTR as captured, or as the next SR instruction would have captured it (R73) -/
  ctr  : Word := 0
  hist : BitVec 32 := 0
  /-- PSTAT.CHK at its `lrun` (R190) -/
  chk  : Bool := false
  /-- PSTAT.STEP at its enqueue: it is followed by STEP when it has issued (R302) -/
  stp  : Bool := false
  /-- it holds scalar fetch until it has passed its checks (R43) -/
  holds : Bool := false
  deriving DecidableEq, Repr, Inhabited

/-- What kind of operation is outstanding. -/
inductive OpKind where
  /-- a fixed-latency pass (R296) -/
  | fixed
  | load
  | atomic
  /-- `wred` and `tred` -/
  | reduce
  | matrix
  /-- a store, reduction or histogram that posts -/
  | store
  | prefetch
  deriving DecidableEq, Repr, Inhabited

/-- An outstanding operation: a member of a token's pending destination list, or a pass not yet written back. -/
structure Pend where
  id     : Nat := 0
  kind   : OpKind := .fixed
  seq    : BitVec 32 := 0
  pc     : Word := 0
  tok    : Option Nat := none
  /-- posted before the trap entry that stored the frame: its release goes to the frame's count (R305) -/
  inFrame : Bool := false
  /-- from this cycle its result can be read; 0 for an operation whose result arrives only through its token -/
  ready  : Nat := 0
  /-- the registers it will write: (1024 × register + lane, value) -/
  regs   : List (Nat × Lane32) := []
  /-- registers (1024 × register + lane) that it will write with values not yet known -/
  awaits : List Nat := []
  /-- registers of which it writes these bits only: elements lost to another write (R297, R298) -/
  part   : List (Nat × Lane32) := []
  /-- the mask bits it will write: (1024 × mask + lane, value) -/
  masks  : List (Nat × Bool) := []
  /-- the scalar register it will write, and the value once known -/
  scalar : Option (Nat × Option Word) := none
  /-- the token is released when this pass writes back (R156); other passes of the instruction do not release -/
  last   : Bool := true
  /-- the masks (0 to 15) and stream slots (16 + q) that the instruction names (R40) -/
  names  : List Nat := []
  /-- elements that matrix steps of the operation will still read (R293) -/
  reads  : List Nat := []
  /-- warps killed by what it consumed, at its delivery (R440) -/
  kills  : List Nat := []
  /-- the effective address of a scalar access -/
  addr   : Word := 0
  /-- lanes whose request crosses the fabric, with the address (R454), and the bytes of the window that they read -/
  fabric : List (Nat × Word) := []
  far    : List Nat := []
  /-- for a lane load: the registers, the bytes and the TYPE of each access, which a replay reads again (R123) -/
  sources : List (List Nat × List Nat × Nat) := []
  /-- device ticks at which its requests were first sent (R454) -/
  born   : Nat := 0
  /-- a request of it failed: the release sets the cancel flag (R454) -/
  cancel : Bool := false
  deriving DecidableEq, Repr, Inhabited

/-- The operation of a read-modify-write (R177, R256, R86). -/
inductive RmwOp where
  | add | min | max | and | or | xor | exch | cas | fadd | fmax | fmin
  /-- the histogram's add, which holds at 0xFFFFFFFF (R86) -/
  | bin
  deriving DecidableEq, Repr, Inhabited

/-- How a read-modify-write combines: type, `.ab`, SAT, resolved rounding and the arguments of R72. -/
structure RmwMode where
  op   : RmwOp := .add
  ty   : BitVec 4 := 0
  ab   : Bool := false
  sat  : Bool := false
  rnd  : BitVec 3 := 0
  seed : Word := 0
  ctr  : Word := 0
  str  : BitVec 4 := 0
  deriving DecidableEq, Repr, Inhabited

/-- One element of an atomic or a reduction. -/
structure Rmw where
  mode : RmwMode := {}
  lane : Nat := 0
  /-- the key of its first byte in memory -/
  key  : Nat := 0
  size : Nat := 4
  val  : Word := 0
  cmp  : Word := 0
  deriving DecidableEq, Repr, Inhabited

/-- What a write of the store-delay queue does when it is performed (R122). -/
inductive WriteWhat where
  /-- plain bytes -/
  | bytes (bs : List (Nat × Byte))
  /-- one element of a returning atomic: its old value goes to the operation's destination -/
  | atomic (o : Rmw)
  /-- one element of a no-return reduction; a `buffered` one goes to the reduction buffer (R120) -/
  | reduction (o : Rmw) (buffered : Bool)
  /-- the go store of a channel, numbered 64 × core + channel, with its go word (R261) -/
  | go (channel : Nat) (word : Word)
  /-- a store to an argument word of a channel (R259): word number, value -/
  | arg (channel word : Nat) (value : Word)
  /-- a store to a word of a template slot (R333) -/
  | template (slot word : Nat) (value : Word)
  /-- `stexp` of n bytes, or `starr`, at the stile whose first byte has the key, with pc and counter for its error
  words (R342, R344) -/
  | stile (key : Nat) (arrive : Bool) (n : Nat) (pc : Word) (seq : BitVec 32)
  /-- a trace record for the trace unit of a core (R427) -/
  | trace (core : Nat) (record : List Byte)
  deriving DecidableEq, Repr

/-- An entry of the team's part of the store-delay queue (R122): one part of an access (R96). -/
structure WriteOp where
  id       : Nat
  /-- the operation that it belongs to, for its token and its destination -/
  op       : Nat := 0
  what     : WriteWhat
  /-- the address on the fabric that it goes to (R453) -/
  fabric   : Option Word := none
  /-- the cycle of its issue -/
  born     : Nat
  /-- it has left the quarter; for one to the fabric, the number in the order of such requests, and the tick -/
  departed : Bool := false
  sent     : Nat := 0
  tick     : Nat := 0
  /-- it carries `.rel` or `.acqrel` at this scope: it leaves only after everything earlier was performed (R122) -/
  release  : Option Nat := none
  /-- a returning atomic that carries `.acq` or `.acqrel`: the team's later accesses come after it (R104, R105) -/
  acquire  : Bool := false
  deriving DecidableEq, Repr

/-- The A-operand latch (R280): codes, type, values and scales of lanes 0 to 63. -/
structure Latch where
  valid  : Bool := false
  a      : BitVec 8 := 0
  b      : BitVec 8 := 0
  ty     : BitVec 4 := 0
  vals   : List (Nat × Lane32) := []
  scales : List (Nat × Lane32) := []
  deriving DecidableEq, Repr, Inhabited

/-- The trap frame (R305). -/
structure Frame where
  pl    : BitVec 2
  inh   : Bool
  stp   : Bool
  n     : Bool
  z     : Bool
  c     : Bool
  v     : Bool
  mz    : Bool
  ma    : Bool
  srctr : Word
  tok   : List (Nat × Token)
  vec   : List Word
  cur   : Nat
  deriving DecidableEq, Repr

/-- A trap that has stopped the team and waits for its entry (R304). -/
structure TrapReq where
  cause : Nat
  sw    : Bool := false
  val   : Word := 0
  vec   : List Word := []
  pc    : Word
  lidx  : BitVec 32 := 0xFFFFFFFF#32
  seq   : BitVec 32
  srctr : Word
  deriving DecidableEq, Repr

/-- A translation slot has been replaced: what was translated through its old contents (R194). -/
structure Replace where
  /-- base and size of the old frames -/
  frames : List (Nat × Nat) := []
  /-- queued writes, by team and number, and running transfers, by channel and go -/
  writes : List (Nat × Nat) := []
  runs   : List (Nat × BitVec 32) := []
  /-- loads over the fabric, by team and operation -/
  loads  : List (Nat × Nat) := []
  deriving DecidableEq, Repr

/-- How a parked team leaves (R268, R269): the stile with the phase last seen, or the watched sector. -/
inductive Park where
  | stile (addr : Nat) (phase : Bool) (d : BitVec 6) (saddr : Word)
  | watch (sector : Nat) (d : BitVec 6)
  deriving DecidableEq, Repr

/-- The states of R48 that are not computed from the rest of the team. -/
inductive Life where
  | absent | resident | saved | exited
  deriving DecidableEq, Repr, Inhabited

/-- A lane block whose header has been read and has passed R38: the header's address, LEN and MF. -/
structure LaneBlock where
  hdr : Word
  len : Nat
  mf  : Bool
  deriving DecidableEq, Repr, Inhabited

/-- A team (R18), with what the chapters on launch, traps and saves add to it. -/
structure Team where
  life      : Life := .absent
  pc        : Word := 0
  lcptr     : Word := 0
  /-- where an `lrun` that is part-way through goes on (R45, R185) -/
  lidx      : Option Nat := none
  /-- the block of the `lrun` that is part-way through: its header is read once, before the first enqueue (R38) or at the
  `eret` that resumes it (R45) -/
  lhdr      : Option LaneBlock := none
  s         : List (Nat × Word) := []
  pstat     : Pstat := {}
  v         : List (Nat × Lane32) := []
  m         : List (Nat × Mask) := []
  killed    : BitVec 32 := 0
  tok       : List (Nat × Token) := []
  pend      : List Pend := []
  q         : List (Nat × Slot) := []
  fmt       : Word := 4#64
  srseed    : Word := 0
  srctr     : Word := 0
  histbase  : BitVec 32 := 0
  yieldpc   : Word := 0
  trapcause : Word := 0
  trappc    : Word := 0
  trapseq   : Word := 0
  traplidx  : BitVec 32 := 0xFFFFFFFF#32
  trapval   : Word := 0
  trapvec   : List Word := []
  trapcur   : Nat := 0
  frame     : Option Frame := none
  seqctr    : BitVec 32 := 0
  latch     : Latch := {}
  laneq     : List LaneEntry := []
  laneFree  : Nat := 0
  sdq       : List WriteOp := []
  nextOp    : Nat := 1
  trapReq   : Option TrapReq := none
  park      : Option Park := none
  /-- it waits in a barrier after its arrival: barrier number, gang kind, D (R264) -/
  barWait   : Option (Nat × Bool × BitVec 6) := none
  /-- the address of the transfer that led to the instruction at pc, until it is fetched (R146) -/
  came      : Option Word := none
  /-- stopped at an escalation (R307, R396): the code of its record -/
  esc       : Option Nat := none
  /-- that record has been written -/
  escDone   : Bool := false
  /-- the trap that escalated, for its record (R396) -/
  escTrap   : Option TrapReq := none
  /-- asynchronous causes not yet delivered (R404): cause code and value -/
  async     : List (Nat × Word) := []
  /-- a save in progress, with its KIND (R399) -/
  saveReq   : Option Nat := none
  /-- the cycle at which YIELD_CYCLES runs out (R316) -/
  deadline  : Option Nat := none
  haltReq   : Bool := false
  halted    : Bool := false
  stepOnce  : Bool := false
  /-- the KIND of the save in the rucksack (R399) -/
  saveKind  : Nat := 0
  /-- D of a `yield` or `mwait` that completes at restore (R402) -/
  resumeD   : Option (BitVec 6 × Word) := none
  /-- the save has stopped the team at its point (R399 step 1) -/
  saveStopped : Bool := false
  /-- the cycle in which the last result of a save has come (R446) -/
  drainedAt : Option Nat := none
  /-- the point, pc and lane index, at which a breakpoint has acted or a halt ended: none matches there again (R424) -/
  bpSkip    : Option (Word × Option Nat) := none
  /-- a breakpoint halts it here, when what it enqueued before has issued -/
  bpHalt    : Bool := false
  /-- the halt is the one that the `brk` at pc has made (R425) -/
  brkHalt   : Bool := false
  /-- the `lrun` after which no scalar instruction has completed yet: the queue's head is an exact point (R44) -/
  lastRun   : Option Word := none
  /-- instructions that completed after a wait and are not yet counted (R431) -/
  ended     : Nat := 0
  /-- the count of YIELD_CYCLES has restarted once because the team was Handling (R405) -/
  restarted : Bool := false
  /-- cycles left when a halt or an escalation stopped a running count: it starts again in full (R405) -/
  counting  : Bool := false
  /-- the cycle after its last issue, for the samplers (R429) -/
  lastIssue : Nat := 0
  /-- the scalar instruction that issued last: the cycle after, and its address (R429) -/
  lastPc    : Nat × Word := (0, 0)
  /-- crewed commands handed over so far (R291) -/
  crewCmds  : Nat := 0
  /-- the 1 MiB block that management has allocated for its rucksack (R398) -/
  sack      : Option Nat := none
  core      : Nat := 0
  quarter   : Nat := 0
  slot      : Nat := 0
  group     : Nat := 0
  index     : Nat := 0
  nwarp     : Nat := 1
  nvreg     : Nat := 1
  crewed    : Option Nat := none
  /-- the crew's number within the group -/
  crew      : Nat := 0
  /-- grid lane of lane 0 (R309) -/
  origin    : Nat := 0
  /-- how many of its lanes are not vacant (R17, R309) -/
  live      : Nat := 0
  /-- what bytes held before stores of the team that no fence has followed: fetch may still read them (R168) -/
  stale     : List (Nat × Byte) := []
  /-- the word at pc of an `unsub` past its end instant, or of a `tlbw` or `tlbi` past its replacement instant: no stopping point
  (R185), and not fetched again -/
  going     : Option (BitVec 32) := none
  replace   : Option Replace := none
  /-- the postcard entry that a `subflush` waits for, and whether it was torn down meanwhile (R271) -/
  flush     : Option (Nat × Bool) := none
  deriving DecidableEq, Repr

/-! ### Groups and grids -/

/-- A barrier of a group (R263 to R265). -/
structure Barrier where
  /-- the kind of the open phase: `some true` for a gang arrival first -/
  kind     : Option Bool := none
  arrived  : List Nat := []
  warps    : BitVec 32 := 0
  teams    : BitVec 16 := 0
  departed : Bool := false
  deriving DecidableEq, Repr, Inhabited

/-- A resident group (R310, R376). -/
structure Group where
  alive    : Bool := false
  grid     : Nat := 0
  linear   : Nat := 0
  core     : Nat := 0
  nteam    : Nat := 1
  /-- the team identities, in team order -/
  members  : List Nat := []
  nbar     : Nat := 0
  tilemask : BitVec 16 := 0
  chanmask : Word := 0
  gang     : Option Nat := none
  lcbase   : Word := 0
  lclen    : Nat := 0
  handler  : Word := 0
  extX     : Nat := 1
  extY     : Nat := 1
  extZ     : Nat := 1
  bars     : List (Nat × Barrier) := []
  /-- the quarters of the core on which it holds its tiles -/
  quarters : List Nat := []
  /-- crew operations that were cancelled before every member had handed its command over (R292): (crew, number) -/
  crewCancels : List (Nat × Nat) := []
  deriving DecidableEq, Repr

/-- A grid (R375, R376, R377): its queue and its descriptor's words. -/
structure Grid where
  alive   : Bool := false
  queue   : Nat := 0
  words   : List Word := []
  tag     : BitVec 16 := 0
  world   : BitVec 8 := 0
  ngroups : Nat := 0
  placed  : Nat := 0
  exited  : Nat := 0
  /-- its last group has exited, and the completion store waits for what comes before it (R377) -/
  owed    : Bool := false
  deriving DecidableEq, Repr

/-- An item of a queue: a grid with groups to place, or Saved groups to restore (R380, R381). -/
structure Work where
  saved   : Bool := false
  grid    : Nat := 0
  groups  : List Nat := []
  since   : Option Nat := none
  reserve : Option Nat := none
  /-- how many of the ages AGE and 2 × AGE its head has reached (R380, R381) -/
  aged    : Nat := 0
  /-- pre-emption for its reservation has been asked for (R381) -/
  asked   : Bool := false
  deriving DecidableEq, Repr

/-- A change of a stile that waits for the forwarder of R352: the key of its first byte, an arrival or a count of bytes, and the
STATUS bits, PC and sequence number that go with it. -/
structure StileWrite where
  key    : Nat
  arrive : Bool
  n      : Nat := 0
  bits   : List Nat := []
  pc     : Word := 0
  seq    : BitVec 32 := 0
  deriving DecidableEq, Repr

/-- A queue (R374). -/
structure Queue where
  en      : Bool := false
  world   : BitVec 8 := 0
  tag     : BitVec 16 := 0
  vf      : BitVec 8 := 0xFF
  rsize   : BitVec 4 := 0
  cores   : BitVec 48 := 0
  period  : BitVec 40 := 4000000
  budget  : BitVec 40 := 0
  yields  : BitVec 32 := 40000
  age     : BitVec 40 := 400000
  resp    : Word := 0
  ovr     : BitVec 16 := 0
  subno   : BitVec 32 := 0
  used    : Nat := 0
  deadl   : Word := 0
  /-- USED reached BUDGET in this period (R379) -/
  overrun : Bool := false
  work    : List Work := []
  deriving DecidableEq, Repr

/-! ### Storage -/

/-- A translation entry (R186). -/
structure TlbEntry where
  w0    : Word := 0
  w1    : Word := 0
  tag   : BitVec 16 := 0
  world : BitVec 8 := 0
  deriving DecidableEq, Repr, Inhabited

/-- An ownership entry (R384). -/
structure Owner where
  tag     : BitVec 16 := 0
  world   : BitVec 8 := 0
  shared  : Bool := false
  poison  : Bool := false
  retired : Bool := false
  deriving DecidableEq, Repr, Inhabited

/-- An accumulator tile (R273): key 32r + j for values and counts, r for checksums. -/
structure Tile where
  vals   : List (Nat × BitVec 32) := []
  counts : List (Nat × BitVec 16) := []
  /-- counts whose parity is wrong -/
  badPar : List Nat := []
  cx     : List (Nat × BitVec 32) := []
  cr     : List (Nat × BitVec 32) := []
  poison : Word := 0
  deriving DecidableEq, Repr, Inhabited

/-- Which matrix instruction a command is (R275). -/
inductive MatKind where
  | mma | mmloop | mmzero | mmdrain | mmcheck
  deriving DecidableEq, Repr, Inhabited

/-- A command in a quarter's matrix sequencer (R275). -/
structure MatCmd where
  team    : Nat
  op      : Nat
  kind    : MatKind
  f       : LaneFields
  fmt     : Word
  seed    : Word
  ctr     : Word
  hist    : BitVec 32
  x       : Word
  y       : Word
  /-- the rows that take part, by lane (R277, R287) -/
  rows    : Word
  /-- steps done -/
  step    : Nat := 0
  started : Bool := false
  /-- the A operand of an `mma`, taken at its start (R280) -/
  opnd    : Option Latch := none
  /-- crewed: which operation of the crew it is (R291) -/
  crewN   : Option Nat := none
  arrived : Bool := false
  /-- elements overwritten since issue, with the old value (R293) -/
  olds    : List (Nat × Lane32) := []
  /-- destination lines that a drain to scratchpad owns from its issue on (R114) -/
  lines   : List Nat := []
  /-- the cycle and the tick of its issue -/
  born    : Nat := 0
  tick    : Nat := 0
  /-- a drain's lines that wait for the forwarder of R352, with the sectors to be poisoned -/
  late    : Option (List (List (Nat × Byte) × List Nat)) := none
  deriving DecidableEq, Repr

/-- A line of a core's reduction buffer (R120). -/
structure RedLine where
  id      : Nat
  line    : Nat
  mode    : RmwMode
  /-- element address, size, merged value -/
  elems   : List Rmw
  /-- the lane of the last contributor merged into the line; its operation and other arguments are `mode` -/
  lane    : Nat := 0
  teams   : List Nat
  /-- something of R121 has sent it to its home -/
  sent    : Bool := false
  deriving DecidableEq, Repr

/-- A Ferry transfer (R261, R336 to R345). -/
structure Transfer where
  team    : Nat
  /-- address and sequence number of the go store -/
  pc      : Word
  seq     : BitVec 32
  tag     : BitVec 16
  world   : BitVec 8
  core    : Nat
  /-- the template words -/
  tmpl    : List Word
  src     : Word
  dst     : Word
  count   : Nat
  /-- the key of the stile's first byte -/
  stile   : Nat
  /-- the translations kept (R339): 64 KiB page number, key of its first byte -/
  pages   : List (Nat × Nat) := []
  /-- the translation slots used (R339), as keys of State.tlb -/
  slots   : List Nat := []
  /-- destination lines not yet written, with the bytes that the transfer writes there (R343) -/
  lines   : List (Nat × Nat) := []
  /-- source sectors read: number, bytes, poison (R113) -/
  cache   : List (Nat × List Byte × Bool) := []
  /-- the cycle and the tick of the go store's issue -/
  born    : Nat := 0
  tick    : Nat := 0
  /-- the go store has left the queue -/
  armed   : Bool := false
  started : Bool := false
  deriving DecidableEq, Repr

/-- A Ferry channel (R259). -/
structure Channel where
  src   : Word := 0
  dst   : Word := 0
  count : Word := 0
  stile : Word := 0
  seq   : BitVec 32 := 0
  busy  : Bool := false
  cancelled : Bool := false
  run   : Option Transfer := none
  deriving DecidableEq, Repr

/-- A postcard: the bytes to apply at the subscriber (R116). -/
structure Postcard where
  line   : Nat
  bytes  : List (Nat × Byte)
  opened : Nat := 0
  deriving DecidableEq, Repr, Inhabited

/-- An entry of a core's postcard table (R348, R349). -/
structure PostEntry where
  /-- 0 Free, 1 Active, 2 Torn, 3 Active with an `unsub` past its end instant (R271) -/
  state : Nat := 0
  gen   : BitVec 8 := 0
  tag   : BitVec 16 := 0
  world : BitVec 8 := 0
  pub   : Nat := 0
  sub   : Nat := 0
  len   : Nat := 0
  cards : BitVec 32 := 0
  merges : BitVec 32 := 0
  dropped : BitVec 32 := 0
  /-- the open postcard -/
  openCard : Option Postcard := none
  /-- closed postcards in order, oldest first -/
  closed : List Postcard := []
  deriving DecidableEq, Repr, Inhabited

/-! ### Management -/

/-- A revocation request that has been posted (R389). -/
structure Posted where
  id        : Nat
  resources : List Word
  reason    : Nat
  deadline  : Nat
  /-- GIVE of the first matching reply performed before the deadline (R390) -/
  reply     : Option Nat := none
  /-- management has taken what it gives up -/
  replied   : Bool := false
  deriving DecidableEq, Repr

/-- One resource that leaves its tag (R391, R392): the cause and request of its record, whether a record is written, the
entry as it stood at the seizure instant, and that instant. -/
structure Seizure where
  resource : Word
  cause    : Nat := 1
  reqid    : Nat := 0
  record   : Bool := true
  owner    : Option Owner := none
  time     : Nat := 0
  /-- what was translated through a seized slot before that instant (R194, R392) -/
  wait     : Replace := {}
  deriving DecidableEq, Repr

/-- A lost-property record that is being written: until HEAD shows it, its bytes read old or new (R393, R395). -/
structure LostRecord where
  tag      : Nat
  resource : Nat
  bits     : Nat
  deriving DecidableEq, Repr

/-- A tenant: its runtime page, G-address and frame (R388), and its requests. -/
structure Tenant where
  page    : Word := 0
  frame   : Option Nat := none
  lastReq : Nat := 0
  posted  : List Posted := []
  /-- the ATTSEQ last answered (R419) -/
  attest  : Word := 0
  /-- resources of retired units that are still to be requested (R442) -/
  wanted  : List Word := []
  deriving DecidableEq, Repr

/-- A key slot (R410, R415): the keys are known by the number of their generation. -/
structure KeySlot where
  valid  : Bool := false
  rot    : Bool := false
  epoch  : BitVec 16 := 0
  world  : BitVec 8 := 0
  key    : Nat := 0
  oldKey : Nat := 0
  /-- the generation of the scrambler key, which does not rotate (R411, R415) -/
  mask   : Nat := 0
  /-- the tideline -/
  tide   : Nat := 0
  deriving DecidableEq, Repr

/-- What the boot recorded (R417, R418). -/
structure Boot where
  done     : Bool := false
  recovery : Bool := false
  seed     : Bool := false
  /-- the identity private key in the ROM's key slot -/
  key      : Nat := 0
  fwm      : BitVec 384 := 0
  svn      : Word := 0
  cfgm     : BitVec 384 := 0
  deriving DecidableEq, Repr

/-- Module flash, which keeps its contents without power (R416 to R418, R443). -/
structure Flash where
  images   : List (Nat × FwImage) := []
  scrubbed : List (Nat × Bool) := []
  /-- lifetime records: counters by unit, bin and counter number, and the units marked RETIRED -/
  lifetime : List (Nat × Nat) := []
  retired  : List (Nat × Bool) := []
  /-- ticks powered, as of the last flush -/
  powered  : Nat := 0
  /-- helper data for the root seed, and the Peryord certificate of the identity public key (R417) -/
  helper      : List Byte := []
  certificate : List Byte := []
  deriving DecidableEq, Repr

/-! ### Debug (R422 to R432) -/

structure Claim where
  owner : Nat := 0xFF
  pend  : Nat := 0xFF
  deadl : Word := 0
  note  : Word := 0
  deriving DecidableEq, Repr

/-- A breakpoint: BPPC, BPCTL, BPSEQ. -/
structure Breakpoint where
  pc   : Word := 0
  ctl  : Word := 0
  seq  : BitVec 32 := 0
  deriving DecidableEq, Repr

/-- A ring of records. -/
structure Ring where
  base : Word := 0
  size : BitVec 24 := 0
  head : BitVec 32 := 0
  tail : BitVec 32 := 0
  drop : BitVec 32 := 0
  deriving DecidableEq, Repr

/-- A roll-call sampler. -/
structure Sampler where
  en    : Bool := false
  n     : BitVec 16 := 16
  ring  : Ring := {}
  start : Word := 0
  /-- the core cycle of START, and how many samples have been due since -/
  from0 : Nat := 0
  taken : Nat := 0
  /-- the slot last picked -/
  last  : Option Nat := none
  deriving DecidableEq, Repr

/-- A counter: EN, EVENT, VALUE. -/
structure Counter where
  en    : Bool := false
  event : BitVec 16 := 0
  value : Word := 0
  deriving DecidableEq, Repr

/-- The debug block of a core. -/
structure DebugBlock where
  dbg      : Claim := {}
  ctr      : Claim := {}
  rc       : Claim := {}
  bps      : List (Nat × Breakpoint) := []
  trEn     : Bool := false
  brkh     : Bool := false
  trAll    : Bool := false
  trTag    : BitVec 16 := 0
  kinds    : BitVec 8 := 0
  trace    : Ring := {}
  samplers : List (Nat × Sampler) := []
  ctrAll   : Bool := false
  ctrTag   : BitVec 16 := 0
  unsup    : BitVec 8 := 0
  run      : Bool := false
  /-- CTRIMG: bits [51:8] of the address -/
  img      : BitVec 44 := 0
  counters : List (Nat × Counter) := []
  deriving DecidableEq, Repr

/-! ### Reliability, fabric, time -/

/-- The error block of a virtual function (R445), in the order of its registers. -/
structure ErrorBlock where
  counts : List (Nat × Word) := []
  deriving DecidableEq, Repr

/-- A link (R447, R452). -/
structure Link where
  up    : Bool := false
  far   : BitVec 20 := 0
  retry : BitVec 16 := 0
  /-- resends of the flit in flight -/
  fails : Nat := 0
  deriving DecidableEq, Repr

/-- A quiesce (R456 to R459). -/
structure Quiesce where
  epoch   : Nat := 0
  /-- between QUIESCE and RESUME -/
  active  : Bool := false
  /-- every team has drained, the notices stand in the runtime pages and STOPPED has come -/
  stopped : Bool := false
  lost    : List Nat := []
  failed  : Nat := 0
  dropped : Nat := 0
  deriving DecidableEq, Repr

/-- The time block of a virtual function (R464). -/
structure TimeBlock where
  hide   : Bool := false
  offset : Word := 0
  scale  : Word := 0x100000000#64
  stolen : Nat := 0
  deriving DecidableEq, Repr

/-- What telemetry measures and counts, and PLIMIT (R468). -/
structure TelemetryRegs where
  plimit : BitVec 12 := 2800
  power  : BitVec 32 := 0
  temps  : List (BitVec 16) := []
  vcore  : BitVec 16 := 0
  events : BitVec 32 := 0
  mhz    : Nat := 4000
  deriving DecidableEq, Repr

/-- The selector of a lane pipe (R49, R314): the resident slot selected last, and the cycle from which the pipe is free. -/
structure Pipe where
  last : Nat := 15
  free : Nat := 0
  deriving DecidableEq, Repr, Inhabited

/-! ### The machine -/

/-- What the undo logs hold for the start of a cycle: teams and tiles (R435). -/
structure Undo where
  cycle : Nat
  teams : List (Nat × Team)
  tiles : List (Nat × Tile)
  deriving DecidableEq, Repr

/-- The replay of a quarter: the cycle in which it issues again, what its teams went through since the rollback point, and the loads
that read memory again, by team and operation (R435, R123). -/
structure Replay where
  till   : Nat
  frames : List Undo
  loads  : List (Nat × Nat)
  deriving DecidableEq, Repr

/-- What moves next: the model's own scheduling input (log entry 1). -/
inductive Act where
  /-- the scalar stream of a team executes one instruction -/
  | scalar (team : Nat)
  /-- a lane pipe issues the head of a team's lane queue -/
  | lane (team : Nat)
  /-- a hardware event, with its subject -/
  | event (i : Instr) (unit item : Nat)
  /-- a write by the host, a pool node or a remote peer -/
  | external (bytes : List (Nat × Byte))
  /-- a soft error flips bits of an accumulator tile element, of its checksums or of a count (R439) -/
  | upset (tile elem : Nat) (flip : BitVec 32)
  /-- a soft error in the parity bit of a count (R273) -/
  | upsetCount (tile elem : Nat)
  /-- an uncorrectable error of a unit poisons a sector (R438); the tags whose traffic a shared unit carried are named
  (R444) -/
  | spoil (sector : Nat) (unit : UnitClass) (number : Nat) (shared : List Nat)
  /-- a single-bit error of a unit, in a sector that it holds, is corrected (R438); the tags whose traffic a shared unit carried are
  named (R444) -/
  | correct (sector : Nat) (unit : UnitClass) (number : Nat) (shared : List Nat)
  /-- the stored ciphertext or the stored tag of a line is changed behind the device's back (R412) -/
  | tamper (line : Nat) (cipher : BitVec 1024) (tag : BitVec 64)
  /-- the host writes at an offset of BAR0, or of BAR2, of a function (R373, R422, R445, R464, R468) -/
  | bar (fn : Fn) (two : Bool) (off : Nat) (value : Word)
  /-- a line whose tag fails is read (R412) -/
  | tagFails (line : Nat)
  /-- helper data and certificate are written to the module flash (R417) -/
  | provision (helper certificate : List Byte)
  /-- management creates a tenant with its runtime page (R388) -/
  | tenant (tag : Nat) (page : Word) (frame : Nat)
  /-- management assigns a quarter to a world (R394) -/
  | quarterWorld (quarter world : Nat)
  /-- a firmware image is written to a slot of the module flash (R418) -/
  | flashImage (slot : Nat) (image : FwImage)
  /-- the requests of several functions reach a unit of a debug block in one cycle (R423) -/
  | claims (core : Nat) (unit : DbgUnit) (fns : List Fn)
  /-- the network interface authenticates the peer at a scale-out port (R378, R449) -/
  | authenticate (port peer : Nat)
  /-- management asks the dispatcher to set P in a team (R381) -/
  | askPreempt (team : Nat)
  deriving DecidableEq, Repr

/-- The whole machine. -/
structure State where
  /-- the model's own: what moves next, the current team, the subject of the next event, the counter of free values -/
  script    : List Act := []
  cur       : Nat := 0
  unit      : Nat := 0
  item      : Nat := 0
  free      : Nat := 0
  /-- core cycles since reset; ticks of 0.25 ns since reset; device time (R462) -/
  cycle     : Nat := 0
  ticks     : Nat := 0
  now       : Nat := 0
  /-- the part of a tick left over at a lowered core clock, and the offset still to be slewed away (R463) -/
  tickRest  : Nat := 0
  slew      : Int := 0
  mem       : List Host.Cell := []
  /-- poisoned sectors (R438), by key / 32 -/
  poison    : List (Nat × Bool) := []
  teams     : List (Nat × Team) := []
  groups    : List (Nat × Group) := []
  grids     : List (Nat × Grid) := []
  tlb       : List (Nat × TlbEntry) := []
  owners    : List (Nat × Owner) := []
  worlds    : List (Nat × BitVec 8) := []
  tiles     : List (Nat × Tile) := []
  seqs      : List (Nat × List MatCmd) := []
  /-- pipes X and Y of a quarter, at 2 × quarter and 2 × quarter + 1 -/
  pipes     : List (Nat × Pipe) := []
  redbuf    : List (Nat × List RedLine) := []
  channels  : List (Nat × Channel) := []
  templates : List (Nat × Word) := []
  posts     : List (Nat × PostEntry) := []
  /-- words of the remote-range entries (2n + w; R387) and of the route entries (2n + w; R451) -/
  remotes   : List (Nat × Word) := []
  routes    : List (Nat × Word) := []
  links     : List (Nat × Link) := []
  /-- from the drain of a quiesce until its RESUME, fabric accesses are held at their checks (R456) -/
  fabricHold : Bool := false
  quiesce   : Quiesce := {}
  /-- releases of window ranges sent to their homes: fabric identifier and remote address (R392) -/
  releases  : List (Nat × Nat) := []
  /-- changes of stiles that wait for a forwarder, in order (R352) -/
  stileWaits : List StileWrite := []
  partid    : Word := 0
  queues    : List (Nat × Queue) := []
  /-- entry n of the launch table of a tag (R378), at 4096 × tag + n -/
  launches  : List (Nat × Word) := []
  /-- reply frames to launch packets: cookie and status, oldest first -/
  replies   : List (Word × Nat) := []
  /-- units that have been retired, a quarter under its own number (R441, R442) -/
  retired   : List (Nat × Bool) := []
  tenants   : List (Nat × Tenant) := []
  escBase   : Word := 0
  escHead   : BitVec 32 := 0
  escTail   : BitVec 32 := 0
  keys      : List (Nat × KeySlot) := []
  nextKey   : Nat := 1
  versions  : List (Nat × BitVec 32) := []
  /-- the generation of keys under which a frame was last exported (R414) -/
  exports   : List (Nat × Nat) := []
  /-- what is stored for a line differs from its ciphertext, and from its tag, by these bits, until a read or the rotation engine
  finds it (R412, R415) -/
  tampers   : List (Nat × (BitVec 1024 × BitVec 64)) := []
  boot      : Boot := {}
  flash     : Flash := {}
  dbgs      : List (Nat × DebugBlock) := []
  /-- writes from outside the device that the directory holds while an engine owns their lines (R114), oldest first -/
  heldWrites : List (List (Nat × Byte)) := []
  /-- the undo logs of the quarters, the latest cycle first, and the quarters that replay (R435) -/
  undo      : List Undo := []
  replays   : List (Nat × Replay) := []
  /-- rollbacks of a quarter, by their ticks, and quarters that have stopped issuing (R436) -/
  rollbacks : List (Nat × List Nat) := []
  held      : List (Nat × Bool) := []
  /-- errors found in each unit, by their ticks, and its lifetime counters (R441, R443) -/
  history   : List (Nat × List Nat) := []
  /-- self-tests that management owes: unit, number, and the tick by which it runs (R441) -/
  tests     : List (UnitClass × Nat × Nat) := []
  lifetime  : List (Nat × Nat) := []
  /-- the tick of the last flush of the lifetime records -/
  flushed   : Nat := 0
  errors    : List (Nat × ErrorBlock) := []
  times     : List (Nat × TimeBlock) := []
  telemetry : TelemetryRegs := {}
  /-- the sample that the telemetry registers show, and the tick at which it was taken (R468) -/
  shown     : TelemetryRegs := {}
  sampled   : Nat := 0
  /-- the tick at which power and temperature were last over their limits (R467) -/
  lastOver  : Nat := 0
  /-- the work of the abort engine, in order (R392) -/
  seizing   : List Seizure := []
  /-- lost-property records whose HEAD has not advanced yet, oldest first -/
  records   : List LostRecord := []
  /-- something of R380 has happened since the dispatcher's last round -/
  roundDue  : Bool := false
  /-- the peer that the network interface has authenticated for each scale-out port (R378, R449) -/
  ports     : List (Nat × Nat) := []
  nextId    : Nat := 1
  deriving DecidableEq, Repr

/-- The machine right after reset. -/
def State.reset : State := {}

end Sys2Proof.Machine
end

