-- ==== Sys2Proof/Machine/Tables.lean ====
section
/-!
DEFINITION. Machine/Tables.lean: access to the tables of the machine by their keys, and the error counts of R441 to R445.
-/

namespace Sys2Proof.Machine

def bit (b : Bool) (i : Nat) : Nat := if b then 2 ^ i else 0

/-! ### Tables -/

def State.teamAt (s : State) (id : Nat) : Team := Store.get {} s.teams id
def State.putTeam (s : State) (id : Nat) (t : Team) : State := { s with teams := Store.set {} s.teams id t }
def State.modTeam (s : State) (id : Nat) (f : Team → Team) : State := s.putTeam id (f (s.teamAt id))

/-- The team that executes. -/
def State.team (s : State) : Team := s.teamAt s.cur
def State.setTeam (s : State) (t : Team) : State := s.putTeam s.cur t
def State.upd (s : State) (f : Team → Team) : State := s.setTeam (f s.team)

def State.groupAt (s : State) (id : Nat) : Group := Store.get {} s.groups id
def State.putGroup (s : State) (id : Nat) (g : Group) : State := { s with groups := Store.set {} s.groups id g }
def State.groupOf (s : State) (t : Team) : Group := s.groupAt t.group

/-- The quarter number 4c + q (R385). -/
def Team.gq (t : Team) : Nat := 4 * t.core + t.quarter

/-- The key of a resource in the ownership tables: its resource word (R385). -/
def resKey (kind idx : Nat) : Nat := kind * 2 ^ 60 + idx
def State.owner (s : State) (kind idx : Nat) : Owner := Store.get {} s.owners (resKey kind idx)

/-- The resource is in the abort engine, or its record is still to be written: it is not granted again (R394). -/
def State.leaving (s : State) (kind idx : Nat) : Bool :=
  s.seizing.any (fun x => x.resource.toNat == resKey kind idx) || s.records.any fun x => x.resource == resKey kind idx

/-- The entry of a table of R385. -/
def State.setOwner (s : State) (kind idx : Nat) (o : Owner) : State :=
  { s with owners := Store.set {} s.owners (resKey kind idx) o }

def State.tile (s : State) (i : Nat) : Tile := Store.get {} s.tiles i
def State.putTile (s : State) (i : Nat) (x : Tile) : State := { s with tiles := Store.set {} s.tiles i x }
def State.channel (s : State) (i : Nat) : Channel := Store.get {} s.channels i
def State.putChannel (s : State) (i : Nat) (x : Channel) : State := { s with channels := Store.set {} s.channels i x }
def State.sequencer (s : State) (gq : Nat) : List MatCmd := Store.get [] s.seqs gq
def State.putSequencer (s : State) (gq : Nat) (x : List MatCmd) : State := { s with seqs := Store.set [] s.seqs gq x }
def State.redLines (s : State) (core : Nat) : List RedLine := Store.get [] s.redbuf core
def State.putRedLines (s : State) (core : Nat) (x : List RedLine) : State :=
  { s with redbuf := Store.set [] s.redbuf core x }
def State.post (s : State) (i : Nat) : PostEntry := Store.get {} s.posts i
def State.tenantAt (s : State) (tag : Nat) : Tenant := Store.get {} s.tenants tag
def State.dbg (s : State) (core : Nat) : DebugBlock := Store.get {} s.dbgs core
def State.putDbg (s : State) (core : Nat) (x : DebugBlock) : State := { s with dbgs := Store.set {} s.dbgs core x }

/-- A virtual function is not reached while the device is in recovery mode (R417). -/
def State.exposes (s : State) : Fn → Bool
  | .vf _ => !s.boot.recovery
  | _ => true

/-! ### Error counts (R441, R443 to R445) -/

/-- Counters of an error block, by their offsets. -/
def eCorr : Nat := 0
def ePois : Nat := 1
def eKills : Nat := 2
def eDrops : Nat := 3
def eRetired : Nat := 4
def eShCorr : Nat := 5
def eShPois : Nat := 6

/-- The virtual functions of a tag: those to which its queues are bound. -/
def State.functionsOf (s : State) (tag : Nat) : List Nat :=
  ((s.queues.filter fun q => q.2.tag.toNat == tag && decide (q.2.vf.toNat < 64)).map fun q => q.2.vf.toNat).eraseDups

/-- Counts saturate (R445). -/
def ErrorBlock.add (e : ErrorBlock) (reg n : Nat) : ErrorBlock :=
  let x : Word := Store.get 0 e.counts reg
  { counts := Store.set 0 e.counts reg (BitVec.ofNat 64 (min (x.toNat + n) (2 ^ 64 - 1))) }

/-- An error of a tag, in the block of every function of the tag. -/
def State.countErr (s : State) (tag reg n : Nat) : State :=
  (s.functionsOf tag).foldl (fun s f =>
    { s with errors := Store.set {} s.errors f ((Store.get {} s.errors f : ErrorBlock).add reg n) }) s

/-- The number of a unit of R441 in the lifetime records. -/
def unitKey (c : UnitClass) (n : Nat) : Nat :=
  (match c with | .quarter => 0 | .bank => 1 | .lineCache => 2 | .router => 3 | .channel => 4 | .link => 5) * 2 ^ 32 + n

/-- The die that holds a unit: twelve cores a die; what is not in a core stands on the I/O die (log entry 13). -/
def unitDie (c : UnitClass) (n : Nat) : Nat :=
  match c with | .quarter => n / 48 | .bank => n / 768 | _ => 4

/-- The temperature bin of a reading in 1/16 °C, and the voltage bin of one in mV (R443). -/
def tempBin (t : Nat) : Nat := if t < 45 * 16 then 0 else min ((t / 16 - 45) / 10 + 1) 7
def voltBin (v : Nat) : Nat := if v < 700 then 0 else if v < 750 then 1 else if v < 800 then 2 else 3

/-- A lifetime counter (R443) of a unit goes up, in the bins that hold now. -/
def State.countLife (s : State) (c : UnitClass) (n counter amount : Nat) : State :=
  let b := 8 * voltBin s.telemetry.vcore.toNat + tempBin (s.telemetry.temps.getD (unitDie c n) 0).toNat
  let k := unitKey c n * 2 ^ 8 + 8 * b + counter
  { s with lifetime := Store.set 0 s.lifetime k (Store.get 0 s.lifetime k + amount) }

/-- 10 ms (R441). -/
def tick10ms : Nat := 40000000

/-- An error of a unit is kept for the classing of R441, and brings a self-test of the unit within 10 ms. -/
def State.noteUnit (s : State) (c : UnitClass) (n : Nat) : State :=
  let k := unitKey c n
  { s with history := Store.set [] s.history k (Store.get [] s.history k ++ [s.ticks])
           tests := if s.tests.any fun x => x.1 == c && x.2.1 == n then s.tests else s.tests ++ [(c, n, s.ticks + tick10ms)] }

/-- An error of a unit is counted in its record too. -/
def State.noteError (s : State) (c : UnitClass) (n counter : Nat) : State := (s.countLife c n counter 1).noteUnit c n

/-- One error counts once in each function of the tags that it concerns (R444, R445). -/
def State.countTags (s : State) (tags : List Nat) (reg n : Nat) : State :=
  ((tags.filter (· != 0)).flatMap s.functionsOf).eraseDups.foldl (fun s f =>
    { s with errors := Store.set {} s.errors f ((Store.get {} s.errors f : ErrorBlock).add reg n) }) s

/-- The quarter replays after a strike (R435): it issues nothing. -/
def State.replaying (s : State) (gq : Nat) : Bool := s.replays.any fun r => r.1 == gq && decide (s.cycle < r.2.till)

/-- What a quarter that replays shows: what it went through 65 cycles ago. -/
def State.shownFrame (s : State) (gq : Nat) : Option Undo :=
  (s.replays.find? fun r => r.1 == gq).bind fun r => r.2.frames.find? fun u => u.cycle + 64 == s.cycle

/-- A team as it stands in its quarter, in a replay the one of 65 cycles ago. -/
def State.shownTeam (s : State) (id : Nat) : Team :=
  match s.shownFrame (s.teamAt id).gq with
  | none => s.teamAt id
  | some u =>
    let o : Team := Store.get {} u.teams id
    if o.life = .resident then { o with lastIssue := o.lastIssue + 65, lastPc := (o.lastPc.1 + 65, o.lastPc.2) } else s.teamAt id

/-- The same for a tile (R435). -/
def State.shownTile (s : State) (i : Nat) : Tile :=
  match s.shownFrame (i / 16) with
  | none => Store.get {} s.tiles i
  | some u => Store.get {} u.tiles i

end Sys2Proof.Machine
end

