-- ==== Sys2Proof/Machine/Trace.lean ====
section
/-!
DEFINITION. Machine/Trace.lean: what the debug units of a core observe: the tags that a claim may see (R422), counters
(R431), and trace records (R426, R427).
-/

namespace Sys2Proof.Machine

/-- A claim's owner may observe a tag: the hypervisor every one, a function the tags of its queues (R422). -/
def State.sees (s : State) (owner : Nat) (tag : BitVec 16) : Bool :=
  owner == 0xFE || (s.functionsOf tag.toNat).contains owner

/-! ### Counters -/

/-- An event counts on a core for a tag (R431). -/
def State.countEvent (s : State) (core : Nat) (tag : BitVec 16) (event n : Nat) : State :=
  let d := s.dbg core
  if d.run && (d.ctrAll || d.ctrTag == tag) && s.sees d.ctr.owner tag then
    s.putDbg core { d with counters := d.counters.map fun c =>
      if c.2.en && c.2.event.toNat == event then (c.1, { c.2 with value := c.2.value + BitVec.ofNat 64 n }) else c }
  else s

/-- Postcards that an entry has closed are counted as it changes (R431). -/
def State.putPost (s : State) (i : Nat) (x : PostEntry) : State :=
  let p := s.post i
  let s := { s with posts := Store.set {} s.posts i x }
  if x.state ≠ 0 ∧ x.gen = p.gen ∧ x.cards ≠ p.cards then s.countEvent (i / 32) x.tag 7 (x.cards - p.cards).toNat else s

/-! ### Trace records -/

/-- HANDLE (R396). -/
def Team.handle (t : Team) : Nat := t.core * 2 ^ 6 + t.quarter * 2 ^ 4 + t.slot

/-- A kind of record of a tag is traced on a core. -/
def State.traces (s : State) (core : Nat) (tag : BitVec 16) (kind : Nat) : Bool :=
  let d := s.dbg core
  d.trEn && d.kinds.getLsbD (kind - 1) && (d.trAll || d.trTag == tag) && s.sees d.dbg.owner tag

/-- The 48 bytes of a record. -/
def State.traceRecord (s : State) (t : Team) (kind : Nat) (pc : Word) (seq : Nat) (lidx : BitVec 32) (val : Word) :
    List Byte :=
  leBytes 48 (t.pstat.world.toNat * 2 ^ 36 + t.pstat.tag.toNat * 2 ^ 20 + t.handle * 2 ^ 8 + kind
    + s.now % 2 ^ 64 * 2 ^ 64 + pc.toNat * 2 ^ 128 + (seq % 2 ^ 32 * 2 ^ 32 + lidx.toNat) * 2 ^ 192 + val.toNat * 2 ^ 256)

/-- A record of kinds 1 to 4 of the executing team leaves through its store-delay queue (R427). -/
def State.traceTeam (s : State) (kind : Nat) (pc : Word) (seq : Nat) (lidx : BitVec 32) (val : Word) : State :=
  let t := s.team
  if s.traces t.core t.pstat.tag kind then
    s.setTeam { t with
      sdq := t.sdq ++ [{ id := t.nextOp, what := .trace t.core (s.traceRecord t kind pc seq lidx val), born := s.cycle }]
      nextOp := t.nextOp + 1 }
  else s

/-- Records in a ring that have not been consumed; HEAD and TAIL count modulo 2^32. -/
def Ring.fill (r : Ring) : Nat := (r.head - r.tail).toNat

/-- A record goes into a ring, or is dropped when HEAD - TAIL is SIZE: the ring, and the address written (R427, R428). -/
def Ring.push (r : Ring) (len : Nat) : Ring × Option Nat :=
  if r.fill = r.size.toNat then ({ r with drop := if r.drop = BitVec.allOnes 32 then r.drop else r.drop + 1 }, none)
  else ({ r with head := r.head + 1 }, some (r.base.toNat + len * (r.head.toNat % r.size.toNat)))

end Sys2Proof.Machine
end

