-- ==== Sys2Proof/Machine/Ops.lean ====
section
/-!
DEFINITION. Machine/Ops.lean: the named operations over a team's registers, masks and tokens, over the tables of the
machine, and the taking of a trap (R304 to R307), which every meaning shares.
-/

namespace Sys2Proof.Machine

/-! ### Trap causes (R302) -/

def cIllegal : Nat := 0x01
def cBadExt : Nat := 0x02
def cPriv : Nat := 0x03
def cTbMiss : Nat := 0x04
def cTbProt : Nat := 0x05
def cOwner : Nat := 0x06
def cWorld : Nat := 0x07
def cAlign : Nat := 0x08
def cBlock : Nat := 0x09
def cUnderwait : Nat := 0x0A
def cStallShort : Nat := 0x0B
def cTokenCancel : Nat := 0x0C
def cBreak : Nat := 0x0D
def cStep : Nat := 0x0E
def cRevoke : Nat := 0x0F
def cCheckpoint : Nat := 0x10
def cFabric : Nat := 0x11
def cIntegrity : Nat := 0x12
def cOverrun : Nat := 0x13
def cDivfault : Nat := 0x14

/-! ### PSTAT (R20) -/

/-- PSTAT as `cget` reads it. -/
def Pstat.word (p : Pstat) : Word :=
  BitVec.ofNat 64 (p.tag.toNat * 2 ^ 24 + p.world.toNat * 2 ^ 16 + bit p.inh 11 + bit p.stp 10 + p.pl.toNat * 2 ^ 8
    + bit p.chk 7 + bit p.p 6 + bit p.ma 5 + bit p.mz 4 + bit p.n 3 + bit p.z 2 + bit p.c 1 + bit p.v 0)

/-- `cset` of PSTAT at tenant level: STEP, CHK, MA, MZ, N, Z, C and V take the value written (R190). -/
def Pstat.write (p : Pstat) (x : Word) : Pstat :=
  { p with stp := x.getLsbD 10, chk := x.getLsbD 7, ma := x.getLsbD 5, mz := x.getLsbD 4, n := x.getLsbD 3,
           z := x.getLsbD 2, c := x.getLsbD 1, v := x.getLsbD 0 }

/-! ### Scalar registers (R19) -/

def Team.reg (t : Team) (i : BitVec 6) : Word := if i = 0#6 then 0 else Store.get 0 t.s i.toNat

def Team.setReg (t : Team) (i : BitVec 6) (x : Word) : Team :=
  if i = 0#6 then t else { t with s := Store.set 0 t.s i.toNat x }

/-- The next scalar instruction. -/
def Team.advance (t : Team) : Team := { t with pc := t.pc + 4#64 }

/-! ### Masks (R27) -/

/-- 32W: the lanes of the team. -/
def Team.lanes (t : Team) : Nat := 32 * t.nwarp

/-- Every lane of the warps whose bit is set in `ws`. -/
def warpMask (ws : BitVec 32) : Nat :=
  (List.range 32).foldl (fun acc w => if ws.getLsbD w then acc + 0xFFFFFFFF * 2 ^ (32 * w) else acc) 0

/-- m0: the lanes that are neither vacant nor in a killed warp. -/
def Team.m0 (t : Team) : Mask :=
  BitVec.ofNat 1024 (2 ^ t.live - 1) &&& ~~~ (BitVec.ofNat 1024 (warpMask t.killed))

def Team.mask (t : Team) (n : Nat) : Mask := if n = 0 then t.m0 else Store.get 0 t.m n

/-- The summary word of a mask: bit w is 1 exactly when word w is not 0 (R27). It follows every write of the mask, so it is
computed and not stored. -/
def Mask.summary (x : Mask) : BitVec 32 :=
  BitVec.ofNat 32 (((List.range 32).filter fun w => x.toNat / 2 ^ (32 * w) % 2 ^ 32 ≠ 0).map (2 ^ ·)).sum

/-- The summary word of a team's mask. -/
def Team.summary (t : Team) (n : Nat) : BitVec 32 := Mask.summary (t.mask n)

/-- A write of a mask: bits at 32W and above are discarded, and m0 is not written. -/
def Team.setMask (t : Team) (n : Nat) (x : Mask) : Team :=
  if n = 0 then t else { t with m := Store.set 0 t.m n (x &&& BitVec.ofNat 1024 (2 ^ t.lanes - 1)) }

/-- The number of set bits below `n`. -/
def countBits (x : Mask) : Nat → Nat
  | 0 => 0
  | n + 1 => countBits x n + (if x.getLsbD n then 1 else 0)

/-- The lowest set bit at or above `i`, looking at `n` bits. -/
def firstBit (x : Mask) (i : Nat) : Nat → Option Nat
  | 0 => none
  | n + 1 => if x.getLsbD i then some i else firstBit x (i + 1) n

/-! ### Tokens (R30, R299, R305) -/

def Team.token (t : Team) (k : Nat) : Token := Store.get {} t.tok k

def Team.setToken (t : Team) (k : Nat) (x : Token) : Team := { t with tok := Store.set {} t.tok k x }

/-- A post. -/
def Team.post (t : Team) (k : Nat) : Team := t.setToken k { t.token k with count := (t.token k).count + 1 }

/-- A release or a cancellation of one operation, in the live tokens or in the trap frame. -/
def dropToken (tok : List (Nat × Token)) (k : Nat) (cancelled : Bool) : List (Nat × Token) :=
  let x := Store.get {} tok k
  Store.set {} tok k { count := x.count - 1, cancel := x.cancel || cancelled }

def Team.release (t : Team) (p : Pend) (cancelled : Bool) : Team :=
  match p.tok with
  | none => t
  | some k =>
    if p.inFrame then
      { t with frame := t.frame.map fun f => { f with tok := dropToken f.tok k cancelled } }
    else { t with tok := dropToken t.tok k cancelled }

/-- Something of the team issues until this cycle (R429). -/
def Team.issuesUntil (t : Team) (cycle : Nat) : Team := { t with lastIssue := max t.lastIssue cycle }

/-- The scalar instruction at `pc` issues in this cycle (R429). -/
def Team.issuesScalar (t : Team) (cycle : Nat) (pc : Word) : Team :=
  { t.issuesUntil (cycle + 1) with lastPc := (cycle + 1, pc) }

/-- The instruction at pc is past the instant after which nothing stops it (R185). -/
def Team.pastPoint (t : Team) : Bool := t.going.isSome

/-- Every live token counts 0. -/
def Team.tokensZero (t : Team) : Bool := t.tok.all fun p => p.2.count == 0

/-! ### Outstanding operations -/

def Team.op? (t : Team) (id : Nat) : Option Pend := t.pend.find? fun p => p.id == id

def Team.dropOp (t : Team) (id : Nat) : Team := { t with pend := t.pend.filter fun p => p.id != id }

def Team.setOp (t : Team) (q : Pend) : Team := { t with pend := t.pend.map fun p => if p.id == q.id then q else p }

/-- An operation whose pending destination list names a lane register, a mask or a scalar register (R304). -/
def Pend.delivers (p : Pend) : Bool := !p.regs.isEmpty || !p.awaits.isEmpty || !p.masks.isEmpty || p.scalar.isSome

def Team.regPending (t : Team) : Bool := t.pend.any Pend.delivers

/-- A scalar instruction is still waiting for its value (R166). -/
def Team.scalarPending (t : Team) : Bool := t.pend.any fun p => p.scalar.isSome

/-! ### Kills -/

/-- A warp is killed (R29): its word of m0 becomes 0, and every barrier of the group will report it (R265). -/
def Group.noteKill (g : Group) (index w : Nat) : Group :=
  { g with bars := (List.range 16).foldl (fun bs n =>
      let b : Barrier := Store.get {} bs n
      Store.set {} bs n { b with warps := b.warps ||| BitVec.ofNat 32 (2 ^ w),
                                 teams := b.teams ||| BitVec.ofNat 16 (2 ^ index) }) g.bars }

def State.killWarp (s : State) (id w : Nat) : State :=
  let t := s.teamAt id
  if t.killed.getLsbD w then s
  else
    let s := s.putTeam id { t with killed := t.killed ||| BitVec.ofNat 32 (2 ^ w) }
    (s.putGroup t.group ((s.groupAt t.group).noteKill t.index w)).countErr t.pstat.tag.toNat eKills 1

/-- An asynchronous cause waits for the team's next exact point (R302, R404). -/
def Team.addAsync (t : Team) (cause : Nat) (val : Word) : Team := { t with async := t.async ++ [(cause, val)] }

/-- An instruction that waited has completed: it is counted (R431), a debugger's STEP ends (R425), and with STEP = 1 the
STEP trap follows it (R302). -/
def Team.stepDone (t : Team) : Team :=
  let t := { t with ended := t.ended + 1, bpSkip := none, lastRun := none, haltReq := t.haltReq || t.stepOnce, stepOnce := false }
  if t.pstat.stp then t.addAsync cStep 0 else t

/-! ### Free values (log entry 2) -/

/-- The answer to question `n` of a kind, asked at a value of the counter. -/
def draw (free kind n : Nat) : Nat := Config.choice (free * 2 ^ 128 + kind * 2 ^ 96 + n)

/-- One of two alternatives. -/
def pick (free kind n : Nat) : Bool := draw free kind n % 2 = 1

/-- The counter moves on: later questions are new ones. -/
def State.fresh (s : State) : State := { s with free := s.free + 1 }

/-! ### Orphaned operations (R299) -/

/-- A crewed command of the executing team whose crew has a member that exited without arriving for it. -/
def State.orphaned (s : State) (t : Team) (c : MatCmd) : Bool :=
  c.team == s.cur && !c.started &&
    (match c.crewN with
     | none => false
     | some n => (s.groupOf t).members.any fun id =>
         let o := s.teamAt id
         o.crew == t.crew && o.crewed.isSome && o.life == .exited && decide (o.crewCmds ≤ n))

/-- Orphaned operations of the executing team. -/
def State.orphans (s : State) (t : Team) : List Nat := ((s.sequencer t.gq).filter (s.orphaned t)).map MatCmd.op

/-- Operations that end only after the release of an orphaned one: it, and the team's commands behind it. -/
def State.stuckOps (s : State) (t : Team) : List Nat :=
  (((s.sequencer t.gq).dropWhile fun c => !s.orphaned t c).filter fun c => c.team == s.cur).map MatCmd.op

/-- A `wait` for token `k` to fall to `n` needs the release of an orphaned operation. -/
def State.orphanBlocks (s : State) (t : Team) (k n : Nat) : Bool :=
  decide (n < (t.pend.filter fun p => p.tok == some k && !p.inFrame && (s.stuckOps t).contains p.id).length)

/-- R299: the lowest token that a wait for zero on every token can never drain. -/
def State.orphanToken (s : State) (t : Team) : Option Nat :=
  (List.range 16).find? fun k => s.orphanBlocks t k 0

/-- TRAPVAL of TOKEN_CANCEL (R299). -/
def tokenCancelVal (t : Team) (k : Nat) : Word := BitVec.ofNat 64 (k + (t.token k).count * 2 ^ 8)

/-- Cancel the orphaned operations of the executing team: their tokens fall with the cancel flag, their commands leave
the sequencer. -/
def State.cancelOrphans (s : State) : State :=
  let t := s.team
  let ids := s.orphans t
  let t' := (t.pend.filter fun p => ids.contains p.id).foldl (fun t p => (t.release p true).dropOp p.id) t
  if ids.isEmpty then s
  else (s.setTeam t').putSequencer t.gq ((s.sequencer t.gq).filter fun c => !(c.team == s.cur && ids.contains c.op))

/-! ### Taking a trap (R304 to R307) -/

/-- The frame that entry stores (R305). -/
def Team.makeFrame (t : Team) (r : TrapReq) : Frame :=
  { pl := t.pstat.pl, inh := t.pstat.inh, stp := t.pstat.stp, n := t.pstat.n, z := t.pstat.z, c := t.pstat.c,
    v := t.pstat.v, mz := t.pstat.mz, ma := t.pstat.ma, srctr := r.srctr, tok := t.tok, vec := r.vec, cur := 0 }

/-- TRAPCAUSE (R302). -/
def causeWord (cause : Nat) (sw : Bool) : Word := BitVec.ofNat 64 (cause % 256 + bit sw 8)

/-- Steps 3 to 5 of R304: the trap registers, the frame, PL, INH and STEP, the live tokens, and the handler's address. -/
def Team.enter (t : Team) (r : TrapReq) (handler : Word) : Team :=
  { t with
    trapcause := causeWord r.cause r.sw, trappc := r.pc, trapseq := r.seq.setWidth 64, traplidx := r.lidx, trapval := r.val,
    trapvec := r.vec, trapcur := 0, srctr := r.srctr, seqctr := r.seq, frame := some (t.makeFrame r),
    pstat := { t.pstat with pl := 1, inh := true, stp := false }, tok := [],
    pend := t.pend.map fun p => { p with inFrame := true },
    pc := handler, lidx := none, lhdr := none, came := none, trapReq := none, bpSkip := none, bpHalt := false,
    brkHalt := false, lastRun := none, flush := none, park := none, going := none, replace := none }

/-- The whole of entry, once nothing holds it. -/
def State.enterTrap (s : State) (r : TrapReq) : State :=
  let s := s.upd fun t => t.enter r (s.groupOf t).handler
  let t := s.team
  let s := s.traceTeam 3 t.trappc t.trapseq.toNat t.traplidx t.trapcause
  if r.cause = cTbMiss then s.countEvent t.core t.pstat.tag 5 1 else s

/-- R304 steps 1 and 2: every earlier lane instruction has issued and every operation that writes a register has
delivered. -/
def Team.entryReady (t : Team) : Bool := t.laneq.isEmpty && !t.regPending

/-- A count of YIELD_CYCLES stops while the team is halted or stopped at an escalation; it starts again in full (R405). A
forced save whose deadline has fallen already stays pending at its rank (R404). -/
def Team.stopCount (t : Team) : Team := { t with counting := t.counting || t.deadline.isSome, deadline := none }

/-- A trap with INH = 1 escalates: the team stops there (R307, R396). -/
def State.escalate (s : State) (code : Nat) (r : TrapReq) : State :=
  s.upd fun t => { t.stopCount with esc := some code, escTrap := some r, trapReq := none, escDone := false }

/-- Complete a trap that waits, when nothing holds it any longer (TRAP_ENTRY): it enters the handler, or, with INH = 1,
escalates. Orphaned operations are cancelled first, since what stands behind one in the sequencer would hold the entry
for ever; the frame shows the cancellation (R299, R308). -/
def State.completeEntry (s : State) : State :=
  match s.team.trapReq with
  | none => s
  | some r =>
    if s.team.pstat.inh then (if s.team.laneq.isEmpty then s.escalate r.cause r else s)
    else
      let s := s.cancelOrphans
      if s.team.entryReady then s.enterTrap r else s

/-- `raise trap`: the trap is taken at once, or when what it waits for has ended. -/
def State.raise (s : State) (r : TrapReq) : State := (s.upd fun t => { t with trapReq := some r }).completeEntry

/-- TRAPLIDX of a point: the index that an `lrun` part-way through enqueues next. -/
def Team.lidxWord (t : Team) : BitVec 32 := BitVec.ofNat 32 (t.lidx.getD 0xFFFFFFFF)

/-- The exact point at a scalar instruction (R44). -/
def Team.scalarPoint (t : Team) (cause : Nat) (val : Word) : TrapReq :=
  { cause := cause, val := val, pc := t.pc, seq := t.seqctr, srctr := t.srctr }

/-- The frame that `eret` reloads, and a save writes, when INH is 1 without one (after RESUME, or SAVE, of a team that escalated
with INH = 0): INH falls, and the rest stays. -/
def Team.noFrame (t : Team) : Frame :=
  { t.makeFrame (t.scalarPoint 0 0) with inh := false }

/-- A trap at the scalar instruction at pc. -/
def State.trap (s : State) (cause : Nat) (val : Word) : State := s.raise (s.team.scalarPoint cause val)

/-- The same with gathered miss pages (R303). -/
def State.trapVec (s : State) (cause : Nat) (val : Word) (vec : List Word) : State :=
  s.raise { s.team.scalarPoint cause val with vec := vec }

/-- A trap at the point where the team stands, which may lie inside an `lrun` that has enqueued part of its block. -/
def State.trapHere (s : State) (cause : Nat) (val : Word) (vec : List Word) : State :=
  s.raise { s.team.scalarPoint cause val with vec := vec, lidx := s.team.lidxWord }

/-- A trap at a lane instruction (R44): what was enqueued after it is discarded, and the counters go back. -/
def State.trapLane (s : State) (e : LaneEntry) (cause : Nat) (val : Word) (vec : List Word) : State :=
  let r : TrapReq := { cause := cause, val := val, vec := vec, pc := e.pc, lidx := BitVec.ofNat 32 e.lidx, seq := e.seq,
                       srctr := e.ctr }
  let s := s.upd fun t => { t with laneq := [], seqctr := e.seq, srctr := e.ctr, lidx := none, lhdr := none }
  s.raise r

/-- A trap at a lane word that is being enqueued: the words before it stay queued and issue first (R44). -/
def State.trapEnqueue (s : State) (pc : Word) (lidx : Nat) (cause : Nat) (val : Word) (vec : List Word) : State :=
  let t := s.team
  s.raise { cause := cause, val := val, vec := vec, pc := pc, lidx := BitVec.ofNat 32 lidx, seq := t.seqctr,
            srctr := t.srctr }

/-- The last steps of `eret` (R306): the frame goes back, the counter takes TRAPSEQ, and the team resumes at TRAPPC,
part-way through an `lrun` when TRAPLIDX names an index. -/
def Team.leave (t : Team) (f : Frame) (hdr : Option LaneBlock) : Team :=
  { t with
    pstat := { t.pstat with pl := f.pl, inh := f.inh, stp := f.stp, n := f.n, z := f.z, c := f.c, v := f.v,
                            mz := f.mz, ma := f.ma },
    srctr := f.srctr, tok := f.tok, frame := none, seqctr := t.trapseq.setWidth 32, pc := t.trappc,
    pend := t.pend.map fun p => { p with inFrame := false },
    lidx := if t.traplidx = 0xFFFFFFFF#32 then none else some t.traplidx.toNat,
    lhdr := if t.traplidx = 0xFFFFFFFF#32 then none else hdr,
    came := none }

/-- The word of the instruction set's own ILLEGAL trap: the scalar word, zero-extended (R152). -/
def State.illegal (s : State) (word : Nat) : State := s.trap cIllegal (BitVec.ofNat 64 word)

/-- PRIV at a scalar word (R302). -/
def State.priv (s : State) (word : Nat) : State := s.trap cPriv (BitVec.ofNat 64 word)

end Sys2Proof.Machine
 
end

