-- ==== Sys2Proof/Machine/Access.lean ====
section
/-!
DEFINITION. Machine/Access.lean: S-addresses and G-addresses, the checks of R87 to R92 with the choice among failures,
the physical map (R383), the ownership view (R386), and memory: bytes, sectors, poison, store forwarding (R122).
Memory is one table of bytes: the key of device physical address p is p, and the key of scratchpad byte f (the flat
S-address of R87) is 2^52 + f. An unlisted byte reads 0 (log entry 3).
-/

namespace Sys2Proof.Machine

/-! ### Memory -/

/-- One byte of memory. -/
def State.byte (s : State) (k : Nat) : Byte := Store.get 0 s.mem k

/-- Write one byte. -/
def State.setByte (s : State) (k : Nat) (b : Byte) : State := { s with mem := Store.set 0 s.mem k b }

/-- Write bytes in order. -/
def State.setBytes (s : State) (bs : List (Nat × Byte)) : State := { s with mem := Store.setAll 0 s.mem bs }

/-- The canonical form of memory. -/
abbrev Memory.wf (m : List Host.Cell) : Prop := Store.wf (0 : Byte) m = true

/-- The keys of `n` consecutive bytes. -/
def keysFrom (k n : Nat) : List Nat := (List.range n).map (k + ·)

/-- The little-endian number in bytes (R5). -/
def bytesNat (bs : List Byte) : Nat := leNat bs

/-- The `n` bytes of a number with their keys. -/
def spread (keys : List Nat) (x : Nat) : List (Nat × Byte) :=
  keys.zip (leBytes keys.length x)

/-- `n` bytes of memory as a number. -/
def State.readNat (s : State) (k n : Nat) : Nat := bytesNat ((keysFrom k n).map s.byte)

/-- A sector of 32 bytes and a line of 128 bytes (R94); keys of scratchpad keep both boundaries. -/
def sectorOf (k : Nat) : Nat := k / 32
def lineOf (k : Nat) : Nat := k / 128

def State.setPoison (s : State) (sector : Nat) (b : Bool) : State :=
  { s with poison := Store.set false s.poison sector b }

/-- The tag to which the resource that holds a sector belongs. -/
def State.sectorTag (s : State) (sector : Nat) : Nat :=
  let k := 32 * sector
  if 2 ^ 52 ≤ k then (s.owner 1 ((k - 2 ^ 52) / 2 ^ 19)).tag.toNat else (s.owner 2 (k / 2 ^ 16)).tag.toNat

/-- Poison passes on to sectors: each counts for the tag that owns it (R440, R445). -/
def State.poisonSectors (s : State) (secs : List Nat) : State :=
  secs.foldl (fun (s : State) sec => (s.setPoison sec true).countErr (s.sectorTag sec) ePois 1) s

/-- The frame of a sector is marked poisoned in the frame table: its poison stays until a scrub (R440). -/
def State.framePoisoned (s : State) (sector : Nat) : Bool :=
  decide (32 * sector < 2 ^ 52) && (s.owner 2 (32 * sector / 2 ^ 16)).poison

/-- R440: a write that covers a whole sector ends its poison. -/
def State.curePoison (s : State) (bs : List (Nat × Byte)) : State :=
  let keys := bs.map Prod.fst
  (keys.map sectorOf).eraseDups.foldl (fun s sec =>
    if (List.range 32).all (fun i => keys.contains (32 * sec + i)) && !s.framePoisoned sec then s.setPoison sec false
    else s) s

/-! ### The maps -/

def scratchBase : Nat := 2 ^ 52

/-- R87: the flat scratchpad byte of an S-address computed in 64 bits; none when the device rejects it. -/
def sFlat (own a : Nat) : Option Nat :=
  if 2 ^ 31 ≤ a then none
  else if a / 2 ^ 25 = 63 then some (own * 2 ^ 25 + a % 2 ^ 25)
  else if a / 2 ^ 25 < 48 then some a
  else none

/-- The bank index 64c + bank of a flat byte (R385). -/
def bankOf (flat : Nat) : Nat := flat / 2 ^ 19

/-- The ranges of R383. -/
inductive Region where
  | near | far
  | aperture (core : Nat)
  | template (core : Nat)
  | view | window | host | outside
  deriving DecidableEq, Repr

/-- The aperture frame (R259) and the template frame (R333) of a core. -/
def apertureFrame (core : Nat) : Nat := 0x3F000000000 + 0x10000 * core
def templateFrame (core : Nat) : Nat := 0x3F000400000 + 0x10000 * core

def region (p : Nat) : Region :=
  if p < 0x6000000000 then .near
  else if 0x10000000000 ≤ p ∧ p < 0x30000000000 then .far
  else if apertureFrame 0 ≤ p ∧ p < apertureFrame 48 then .aperture ((p - apertureFrame 0) / 0x10000)
  else if templateFrame 0 ≤ p ∧ p < templateFrame 48 then .template ((p - templateFrame 0) / 0x10000)
  else if 0x3F100000000 ≤ p ∧ p < 0x3F110000000 then .view
  else if 2 ^ 50 ≤ p ∧ p < 2 ^ 51 then .window
  else if 2 ^ 51 ≤ p ∧ p < 2 ^ 52 then .host
  else .outside

/-- The home is on the device (R93, R114). -/
def onDevice (k : Nat) : Bool :=
  if scratchBase ≤ k then true else match region k with | .near | .far => true | _ => false

/-- A byte on the scale-up fabric. -/
def onFabric (k : Nat) : Bool := !(decide (scratchBase ≤ k)) && region k == .window

/-! ### The fabric (R451, R452, R454) -/

/-- The valid remote-range entry that covers a window or host frame. -/
def State.rangeOf (s : State) (p : Nat) : Option Nat :=
  (List.range 4096).find? fun n =>
    let w := (Store.get 0 s.remotes (2 * n)).toNat
    decide (w % 2 = 1) && decide (fld w 30 34 ≤ p / 2 ^ 30) && decide (p / 2 ^ 30 ≤ fld w 30 34 + fld w 14 16)

/-- The remote address of a byte of range `n` (R451). -/
def State.remoteAddr (s : State) (n k : Nat) : Nat :=
  (fld (Store.get 0 s.routes (2 * n + 1)).toNat 30 34 * 2 ^ 30 + (k - fld (Store.get 0 s.remotes (2 * n)).toNat 30 34 * 2 ^ 30)) % 2 ^ 64

/-- The place of a byte in memory: a byte of the window lies at its home, under TARGET and remote address, so that two ranges that
name one place share it; every other byte lies under its own key. -/
def State.place (s : State) (k : Nat) : Nat :=
  if onFabric k then
    match s.rangeOf k with
    | none => k
    | some n => 2 ^ 90 + fld (Store.get 0 s.routes (2 * n)).toNat 32 20 * 2 ^ 64 + s.remoteAddr n k
  else k

/-- Two lists of bytes share a place, or a line of places. -/
def State.overlap (s : State) (ks ls : List Nat) : Bool := ks.any fun a => ls.any fun b => s.place a == s.place b
def State.sameLine (s : State) (ks ls : List Nat) : Bool := ks.any fun a => ls.any fun b => lineOf (s.place a) == lineOf (s.place b)

/-- What is stored for a line does not match its tag (R412). -/
def State.tampered (s : State) (line : Nat) : Bool := s.tampers.any fun x => x.1 == line

/-- A byte lies in a poisoned sector (R438), or in a line whose tag fails, which is returned poisoned (R412). -/
def State.poisoned (s : State) (k : Nat) : Bool :=
  Store.get false s.poison (sectorOf (s.place k)) || s.tampered (lineOf (s.place k))

/-- The link that takes a request for a byte: of those that reach its home and are up, the one whose rank is the line's number modulo
their number (R452). None where the route is not valid or DEAD, or no link is up. -/
def State.linkOf (s : State) (k : Nat) : Option Nat :=
  match s.rangeOf k with
  | none => none
  | some n =>
    let w := (Store.get 0 s.routes (2 * n)).toNat
    let up := (List.range 32).filter fun l => decide (w / 2 ^ l % 2 = 1) && (Store.get {} s.links l).up
    if w / 2 ^ 63 % 2 = 0 ∨ w / 2 ^ 62 % 2 = 1 then none else up[lineOf k % up.length]?

/-- A window request fails at once where no link takes it (R454). -/
def State.unreachable (s : State) (k : Nat) : Bool := onFabric k && (s.linkOf k).isNone

/-- R90: bits [63:57] equal bit 56. -/
def canonical (va : Nat) : Bool := decide (va / 2 ^ 56 % 256 = 0) || decide (va / 2 ^ 56 % 256 = 255)

/-- The page size of an entry (R186), as a shift. -/
def TlbEntry.shift (e : TlbEntry) : Nat :=
  if fld e.w0.toNat 4 2 = 0 then 16 else if fld e.w0.toNat 4 2 = 1 then 21 else 30

/-- R90: valid, covering, of the same tag and world. -/
def TlbEntry.hits (e : TlbEntry) (tag : BitVec 16) (world : BitVec 8) (va : Nat) : Bool :=
  e.w0.getLsbD 0 && e.tag == tag && e.world == world && decide (va / 2 ^ e.shift = e.w0.toNat / 2 ^ e.shift)

def TlbEntry.phys (e : TlbEntry) (va : Nat) : Nat := fld e.w1.toNat 16 36 * 2 ^ 16 + va % 2 ^ e.shift

/-- The translation buffer slot that translates an access: the lowest that matches (R90). -/
def State.lookup (s : State) (gq : Nat) (tag : BitVec 16) (world : BitVec 8) (va : Nat) : Option TlbEntry :=
  (s.tlb.find? fun p => decide (p.1 / 512 = gq) && p.2.hits tag world va).map Prod.snd


/-- Permissions that an access needs, at their places in word 0 of an entry (R91, R168). -/
def needR : Nat := 2
def needW : Nat := 4
def needRW : Nat := 6
def needX : Nat := 8

/-- The translation of one byte (R90, R91, R383). -/
def State.translate (s : State) (gq : Nat) (tag : BitVec 16) (world : BitVec 8) (need va : Nat) : Except Nat Nat :=
  if !canonical va then .error cTbProt
  else match s.lookup gq tag world va with
    | none => .error cTbMiss
    | some e =>
      if e.w0.toNat &&& need ≠ need then .error cTbProt
      else if region (e.phys va) = .outside then .error cTbProt
      else .ok (e.phys va)

/-! ### Checks (R87 to R92) -/

/-- One failing check: its cause, the lane, the address of the access, and the failing byte. -/
structure Fail where
  cause : Nat
  lane  : Nat
  addr  : Nat
  byteAddr : Nat
  deriving DecidableEq, Repr

/-- What a check found: failures, and the keys of the bytes when there are none. -/
structure Checked where
  fails : List Fail := []
  keys  : List Nat := []
  /-- an aperture or template frame, which only scalar 64-bit loads and stores reach -/
  window : Bool := false
  deriving DecidableEq, Repr

/-- R88 for one bank. -/
def State.bankCause (s : State) (tag : BitVec 16) (world : BitVec 8) (bank : Nat) : Option Nat :=
  let o := s.owner 1 bank
  if o.tag ≠ tag then some cOwner else if o.world ≠ world then some cWorld else none

/-- An access of `size` bytes at an S-address (R87, R88). -/
def State.checkS (s : State) (tag : BitVec 16) (world : BitVec 8) (own lane ea size : Nat) : Checked :=
  let flats := (List.range size).map fun i => sFlat own (ea + i)
  if flats.any Option.isNone then { fails := [⟨cOwner, lane, ea, ea⟩] }
  else
    let fs := flats.filterMap id
    let causes := (fs.map bankOf).eraseDups.filterMap (s.bankCause tag world)
    if causes.isEmpty then { keys := fs.map (scratchBase + ·) }
    else { fails := causes.map fun c => ⟨c, lane, ea, ea⟩ }

/-- An access of `size` bytes at a G-address (R90, R91). DESIGN CHOICE (log entry 68, unsafe): the bytes after address
2^64 - 1 are those from address 0 on, and the bytes are checked in the order of the access, so that TRAPVAL and TRAPVEC follow
it; the spec reduces the effective address modulo 2^64 and says nothing of the bytes after it. -/
def State.checkG (s : State) (gq : Nat) (tag : BitVec 16) (world : BitVec 8) (need lane ea size : Nat) : Checked :=
  let rs := (List.range size).map fun i =>
    let va := (ea + i) % 2 ^ 64
    (va, s.translate gq tag world need va)
  let fails := rs.filterMap fun r => match r.2 with | .error c => some (⟨c, lane, ea, r.1⟩ : Fail) | .ok _ => none
  if fails.isEmpty then { keys := rs.filterMap fun r => match r.2 with | .error _ => none | .ok p => some p }
  else { fails := fails }

/-- A byte of an aperture or template frame: only scalar 64-bit loads and stores reach it (R260, R333). -/
def inWindow (k : Nat) : Bool :=
  if scratchBase ≤ k then false else match region k with | .aperture _ => true | .template _ => true | _ => false

/-- The check of an access by a team: `g` for a G-address. -/
def State.check (s : State) (t : Team) (g : Bool) (need lane ea size : Nat) : Checked :=
  if g then
    let c := s.checkG t.gq t.pstat.tag t.pstat.world need lane ea size
    if c.keys.any inWindow then { fails := [⟨cTbProt, lane, ea, ea⟩], window := true } else c
  else s.checkS t.pstat.tag t.pstat.world t.core lane ea size

/-- The order of R92. -/
def causeRank (c : Nat) : Nat :=
  if c = cAlign then 0 else if c = cBlock then 1 else if c = cTbMiss then 2 else if c = cTbProt then 3
  else if c = cOwner then 4 else 5

/-- R92: the cause that comes first, then the lowest lane, then the place in the list. -/
def worst : List Fail → Option Fail
  | [] => none
  | f :: fs => match worst fs with
    | none => some f
    | some g =>
      if causeRank g.cause < causeRank f.cause ∨ (causeRank g.cause = causeRank f.cause ∧ g.lane < f.lane) then some g else some f

/-- A failure goes into a list in the order of the lanes, before those of higher lanes. -/
def insertFail (f : Fail) : List Fail → List Fail
  | [] => [f]
  | g :: gs => if f.lane ≤ g.lane then f :: g :: gs else g :: insertFail f gs

/-- Failures in the order of their lanes. -/
def byLane (fs : List Fail) : List Fail := fs.foldr insertFail []

/-- R303: up to eight distinct missing pages, in the order of the lowest lane that misses each. -/
def missPages (fails : List Fail) : List Word :=
  let ms := byLane (fails.filter fun f => f.cause == cTbMiss)
  let pages := (ms.map fun f => f.byteAddr / 2 ^ 16).eraseDups.take 8
  pages.map fun pg =>
    let lane := ((ms.find? fun f => f.byteAddr / 2 ^ 16 == pg).map Fail.lane).getD 0
    BitVec.ofNat 64 (pg % 2 ^ 48 * 2 ^ 16 + lane * 2 ^ 6 + 1)

/-- The gathered pages when the reported cause is TB_MISS, else none (R303). -/
def vecFor (f : Fail) (fails : List Fail) : List Word := if f.cause = cTbMiss then missPages fails else []

/-! ### The ownership view (R384 to R387) -/

def Owner.word (o : Owner) (other : Bool) : Nat :=
  (if other then 0 else o.tag.toNat * 2 ^ 16 + o.world.toNat * 2 ^ 8)
    + bit o.shared 3 + bit o.poison 2 + bit o.retired 1 + bit other 0

/-- An entry of a table as a tag sees it. -/
def State.viewEntry (s : State) (tag : BitVec 16) (kind idx : Nat) : Nat :=
  let o := s.owner kind idx
  o.word (decide (o.tag ≠ tag))

/-- A 32-byte postcard entry (R348). -/
def PostEntry.bits (p : PostEntry) : Nat :=
  p.sub + p.pub * 2 ^ 32
    + (p.gen.toNat + p.world.toNat * 2 ^ 8 + p.tag.toNat * 2 ^ 16 + p.len / 128 * 2 ^ 32) * 2 ^ 64
    + (p.merges.toNat + p.cards.toNat * 2 ^ 32) * 2 ^ 128
    + (bit (p.state != 0) 0 + bit (p.state == 2) 1 + p.dropped.toNat * 2 ^ 32) * 2 ^ 192

/-- One byte of the view. -/
def State.viewByte (s : State) (tag : BitVec 16) (p : Nat) : Byte :=
  let o := p - 0x3F100000000
  let small (kind base count : Nat) : Nat :=
    if (o - base) / 4 < count then s.viewEntry tag kind ((o - base) / 4) / 256 ^ (o % 4) % 256 else 0
  BitVec.ofNat 8 <|
    if o < 0x4000 then small 1 0 3072
    else if o < 0x8000 then small 5 0x4000 3072
    else if o < 0xC000 then small 4 0x8000 3072
    else if o < 0x10000 then small 7 0xC000 256
    else if o < 0x40000 then small 6 0x10000 49152
    else if o < 0xA0000 then small 3 0x40000 98304
    else if o < 0xB0000 then
      let i := (o - 0xA0000) / 32
      let e := s.post i
      if i < 1536 ∧ e.tag = tag ∧ e.state ≠ 0 then e.bits / 256 ^ (o % 32) % 256 else 0
    else if o < 0x100000 then
      let i := (o - 0xB0000) / 16
      if i < 4096 ∧ fld (Store.get 0 s.remotes (2 * i + 1)).toNat 16 16 = tag.toNat then
        ((Store.get 0 s.remotes (2 * i)).toNat + (Store.get 0 s.remotes (2 * i + 1)).toNat * 2 ^ 64) / 256 ^ (o % 16) % 256
      else 0
    else if o < 0x2000000 then
      if (o - 0x100000) / 4 < 0x600000 then small 2 0x100000 0x600000 else 0
    else if o < 0xA000000 then s.viewEntry tag 2 (0x1000000 + (o - 0x2000000) / 4) / 256 ^ (o % 4) % 256
    else 0

/-- `n` bytes as a read-modify-write at their home reads them. -/
def State.placeNat (s : State) (k n : Nat) : Nat := bytesNat ((keysFrom k n).map fun k => s.byte (s.place k))

/-- A byte as a load reads it at its home: the view is computed, everything else is memory. -/
def State.homeByte (s : State) (tag : BitVec 16) (k : Nat) : Byte :=
  if scratchBase ≤ k then s.byte k else if region k = .view then s.viewByte tag k else s.byte (s.place k)

/-! ### The store-delay queue as seen by the team's own loads (R122) -/

/-- A queued atomic or reduction will change this byte. -/
def WriteOp.changes (w : WriteOp) (k : Nat) : Bool :=
  match w.what with
  | .atomic o => decide (o.key ≤ k) && decide (k < o.key + o.size)
  | .reduction o _ => decide (o.key ≤ k) && decide (k < o.key + o.size)
  | .stile key _ _ _ _ => decide (key ≤ k) && decide (k < key + 16)
  | _ => false

/-- A queued store's data for a byte; a later store of the list is the newer one. -/
def WriteOp.data (w : WriteOp) (k : Nat) : Option Byte :=
  match w.what with
  | .bytes bs => (bs.find? fun b => b.1 == k).map Prod.snd
  | _ => none

def forward : List WriteOp → Nat → Option Byte
  | [], _ => none
  | w :: ws, k => match forward ws k with | some b => some b | none => w.data k

/-- The bytes that a queued write touches. -/
def WriteOp.keys (w : WriteOp) : List Nat :=
  match w.what with
  | .bytes bs => bs.map Prod.fst
  | .atomic o => keysFrom o.key o.size
  | .reduction o _ => keysFrom o.key o.size
  | .stile k _ _ _ _ => keysFrom k 16
  | .arg ch n _ => keysFrom (apertureFrame (ch / 64) + ch % 64 * 64 + 8 * n) 8
  | .template slot n _ => keysFrom (templateFrame (slot / 1024) + slot % 1024 * 64 + 8 * n) 8
  | _ => []

/-- A line that an engine owns (R114): the line, the team it acts for, and the number from which writes of the team come after the
command. -/
structure EngineLine where
  line    : Nat
  team    : Nat
  after   : Nat
  /-- the cycle and the tick of the command's issue, when it took the line -/
  born    : Nat
  tick    : Nat

/-- The lines that transfers have still to write, theirs from the issue of the go store on. -/
def State.transferLines (s : State) : List EngineLine :=
  s.channels.flatMap fun c => match c.2.run with
    | some r => r.lines.map fun l => ⟨l.1, r.team, if r.armed then 0 else 2 ^ 64, r.born, r.tick⟩
    | none => []

/-- The lines that drains to scratchpad have still to write, but for those of some sequencers. -/
def State.commandLines (s : State) (but : List Nat) : List EngineLine :=
  (s.seqs.filter fun q => !but.contains q.1).flatMap fun q =>
    q.2.flatMap fun c => c.lines.map fun l => ⟨l, c.team, c.op, c.born, c.tick⟩

def State.engineLines (s : State) : List EngineLine := s.transferLines ++ s.commandLines []

/-- R114: a load of this byte by team `id` is recalled and held. The issuing team's accesses are held wherever the line's home
is, those of others only where it is on the device. -/
def State.recalled (s : State) (id k : Nat) : Bool :=
  s.engineLines.any fun l => l.line == lineOf k && (l.team == id || onDevice k)

/-- The same for a write `op` of team `id` that issued in cycle `born`: one that came before the command is not held (whether
it arrives before the ownership is taken is unspecified). -/
def State.recalledNow (s : State) (id op born k : Nat) : Bool :=
  s.engineLines.any fun l => l.line == lineOf k
    && (if l.team = id then decide (l.after < op) else decide (l.born < born) && onDevice k)

/-- One of the lines holds an access that an engine makes for a command of team `id` issued in cycle `born`. -/
def heldBy (ls : List EngineLine) (id born k : Nat) : Bool :=
  ls.any fun l => l.line == lineOf k && decide (l.born < born) && (l.team == id || onDevice k)

/-- The same for a line that a drain writes. -/
def State.engineHeld (s : State) (id born k : Nat) : Bool := heldBy s.engineLines id born k

/-- The same for a line that a transfer reads or writes: transfers are mutually unordered (R340), so only drains hold it. -/
def State.transferHeld (s : State) (id born k : Nat) : Bool := heldBy (s.commandLines []) id born k

/-- R121: a buffered reduction line that a contributing team's access touches. -/
def State.bufferedFor (s : State) (id k : Nat) : Bool :=
  s.redbuf.any fun r => r.2.any fun l => l.teams.contains id && s.sameLine [128 * l.line] [k]

/-- The reduction lines that satisfy `p` are sent to their homes (R121). -/
def State.sendLines (s : State) (p : RedLine → Bool) : State :=
  { s with redbuf := s.redbuf.map fun r => (r.1, r.2.map fun l => if p l then { l with sent := true } else l) }

/-- The access of a contributing team sends the lines that it touches (R121). -/
def State.sendTouched (s : State) (id : Nat) (keys : List Nat) : State :=
  s.sendLines fun l => l.teams.contains id && s.sameLine [128 * l.line] keys

/-- Writes that fail, and reduction lines that are dropped, while a quiesce drains (R458). -/
def State.countDrain (s : State) (writes lines : Nat) : State :=
  if s.quiesce.active && !s.quiesce.stopped then
    { s with quiesce := { s.quiesce with failed := s.quiesce.failed + writes, dropped := s.quiesce.dropped + lines } }
  else s

/-- A quiesce holds the access at its checks (R456). -/
def State.fabricHeld (s : State) (keys : List Nat) : Bool := s.fabricHold && keys.any onFabric

/-- A returning atomic is still to be performed. -/
def WriteOp.returns (w : WriteOp) : Bool := match w.what with | .atomic _ => true | _ => false

/-- A queued write of the team lies at a place of these bytes under another address of the window (R451): it is not forwarded. -/
def State.renamed (s : State) (t : Team) (keys : List Nat) : Bool :=
  t.sdq.any fun w => w.keys.any fun a => onFabric a && keys.any fun b => a != b && s.place a == s.place b

/-- An access of the executing team to these bytes has to wait (R104, R114, R121, R122, R456). -/
def State.mustWait (s : State) (t : Team) (keys : List Nat) : Bool :=
  s.fabricHeld keys || t.sdq.any WriteOp.acquire || s.renamed t keys || keys.any fun k => t.sdq.any (·.changes k) || s.recalled s.cur k || s.bufferedFor s.cur k

/-- A byte as the team loads it: its own queued stores first. -/
def State.loadByte (s : State) (t : Team) (k : Nat) : Byte := (forward t.sdq k).getD (s.homeByte t.pstat.tag k)

/-- Bytes as the team loads them, as a number. -/
def State.load (s : State) (t : Team) (keys : List Nat) : Nat := bytesNat (keys.map (s.loadByte t))

/-- R440: a load consumes poison where a byte is not forwarded from the queue. -/
def State.loadPoisoned (s : State) (t : Team) (keys : List Nat) : Bool :=
  keys.any fun k => s.poisoned k && (forward t.sdq k).isNone

/-! ### Fetch (R168) -/

/-- The word at an address of scalar code: a fetch fault is the cause, the failing byte and the missing pages. -/
def State.fetch (s : State) (t : Team) (va n : Nat) : Except (Fail × List Word) (List Nat) :=
  let c := s.check t true needX 0 va n
  match worst c.fails with
  | some f => .error (f, vecFor f c.fails)
  | none => .ok c.keys

/-- What a fetch reads: the bytes as a load would, or, where a store of the team has not been followed by a fence, those
or the older ones, per word (R168). -/
def State.fetched (s : State) (t : Team) (va : Nat) (keys : List Nat) : Nat :=
  let old (k : Nat) : Option Byte := (t.stale.find? fun b => b.1 == k).map Prod.snd
  if keys.any (fun k => (old k).isSome) && pick s.free 0 (va % 2 ^ 64) then
    bytesNat (keys.map fun k => (old k).getD (s.loadByte t k))
  else s.load t keys

/-- A 32-bit word of scalar code, when its fetch does not fault. -/
def State.fetchWord? (s : State) (t : Team) (va : Nat) : Option Nat :=
  match s.fetch t va 4 with
  | .ok keys => some (s.fetched t va keys)
  | .error _ => none

/-- The word at `va` is an `ext`; a faulting fetch counts as not being one (R45, R146). -/
def State.isExt (s : State) (t : Team) (va : Nat) : Bool :=
  match s.fetchWord? t va with
  | some w => fld w 26 6 == 0x3F
  | none => false

/-! ### What a fetch finds -/

/-- The outcome of a fetch. -/
inductive Fetched where
  | fault (f : Fail) (vec : List Word)
  /-- held as a relaxed load of these bytes is held -/
  | waits (keys : List Nat)
  /-- its home cannot be reached (R454) -/
  | lost
  | poisoned (keys : List Nat)
  | word (w : Nat)
  deriving DecidableEq, Repr

/-- Fetch reads memory as a relaxed load by the team (R168): after its check it is held (R114, R121, R122, R456), fails (R454) and
consumes poison (R440) as one. -/
def State.fetchAt (s : State) (t : Team) (va n : Nat) : Fetched :=
  match s.fetch t va n with
  | .error (f, vec) => .fault f vec
  | .ok keys =>
    if s.mustWait t keys then .waits keys
    else if keys.any s.unreachable then .lost
    else if s.loadPoisoned t keys then .poisoned keys
    else .word (s.fetched t va keys)

end Sys2Proof.Machine
end

