-- ==== Sys2Proof/Machine/Integrity.lean ====
section
/-!
DEFINITION. Machine/Integrity.lean: the causes that management raises in a team (R302, R404), and what follows when the tag of
a stored line fails (R412, R440).
-/

namespace Sys2Proof.Machine

/-! ### Causes raised in a team (R302, R404) -/

/-- Bytes of a rucksack (R398). -/
def rucksackSize : Nat := 2 ^ 20

/-- Where management put the rucksack of a team. -/
def State.sackAt (s : State) (id : Nat) : Nat := (s.teamAt id).sack.getD 0 * rucksackSize

/-- The PEND bits of HDR, by cause. -/
def pendBits : List (Nat × Nat) := [(16, cRevoke), (17, cCheckpoint), (18, cFabric), (19, cIntegrity)]

/-- A cause reaches a team at its next exact point; for a Saved team its PEND bit is set in the rucksack. -/
def State.deliverCause (s : State) (id cause : Nat) (val : Word) : State :=
  let t := s.teamAt id
  if t.life = .resident then s.putTeam id (t.addAsync cause val)
  else if t.life = .saved then
    match pendBits.find? fun p => p.2 == cause with
    | some p =>
      (s.putTeam id (t.addAsync cause val)).setBytes (spread (keysFrom (s.sackAt id) 8) (s.readNat (s.sackAt id) 8 ||| 2 ^ p.1))
    | none => s
  else s

/-- A team whose descriptor asked for tenant level (R329): PL is bit 21 of its first word (R375). -/
def State.tenantLevel (s : State) (t : Team) : Bool :=
  (t.life == .resident || t.life == .saved)
    && fld ((Store.get {} s.grids (s.groupOf t).grid : Grid).words.getD 0 0).toNat 21 1 == 1

/-- The runtime team of a tag (R329). -/
def State.runtimeTeam (s : State) (tag : Nat) : Option Nat :=
  (s.teams.find? fun t => s.tenantLevel t.2 && t.2.pstat.tag.toNat == tag).map Prod.fst

/-- The runtime teams of a world. -/
def State.worldRuntime (s : State) (world : BitVec 8) : List Nat :=
  (s.teams.filter fun t => s.tenantLevel t.2 && t.2.pstat.world == world).map Prod.fst

/-! ### Lines whose tag fails (R412) -/

/-- The memory channel that holds a line, which the spec does not give: a free choice, always the same (log entry 85). -/
def channelOf (line : Nat) : Nat := draw 0 18 line

/-- Sectors of a frame are found bad: they are poisoned, the frame's POISON bit is set, the error counts, and INTEGRITY goes to the
world's runtime team (R384, R412, R441, R445). -/
def State.frameFails (s : State) (frame : Nat) (secs : List Nat) : State :=
  let o := s.owner 2 frame
  let s := secs.foldl (fun (s : State) sec => s.setPoison sec true) (s.setOwner 2 frame { o with poison := true })
  let s := (s.noteError .channel (channelOf (512 * frame)) 3).countErr o.tag.toNat ePois secs.length
  (s.worldRuntime o.world).foldl (fun s id => s.deliverCause id cIntegrity (BitVec.ofNat 64 (frame * 2 ^ 16))) s

/-- A frame whose version, world or tags fail at its return (R414). -/
def State.integrity (s : State) (frame : Nat) : State := s.frameFails frame ((List.range 2048).map (2048 * frame + ·))

/-- A line whose tag fails is read. -/
def State.tagFails (s : State) (line : Nat) : State :=
  if s.tampered line then
    { s with tampers := Store.erase s.tampers line }.frameFails (line / 512) ((List.range 4).map (4 * line + ·))
  else s

/-- These bytes are read from their home: the first read of a line finds that its tag fails. -/
def State.checkTags (s : State) (keys : List Nat) : State :=
  ((s.tampers.map Prod.fst).filter fun l => keys.any fun k => lineOf (s.place k) == l).foldl (fun s l => s.tagFails l) s

/-- The tags of lines that a write covers whole are made anew. DEDUCED (log entry 85): a write of a part of a line leaves a tag that
fails as it is, and the next read finds it. -/
def State.freshTags (s : State) (places : List Nat) : State :=
  { s with tampers := s.tampers.filter fun x => !(List.range 128).all fun i => places.contains (128 * x.1 + i) }

end Sys2Proof.Machine
end

