-- ==== Sys2Proof/Machine/Flags.lean ====
section
/-!
DEFINITION. Machine/Flags.lean: the condition codes and mask-zero flags: which instruction computes them and how
(R19, R149, R167, R180).
-/

namespace Sys2Proof.Machine

/-- N, Z, C and V. -/
structure Nzcv where
  n : Bool
  z : Bool
  c : Bool
  v : Bool
  deriving DecidableEq, Repr

def Team.setFlags (t : Team) (f : Nzcv) : Team :=
  { t with pstat := { t.pstat with n := f.n, z := f.z, c := f.c, v := f.v } }

/-- Flags of a sum (R167): carry out of bit 63, signed overflow. -/
def addFlags (x y : Word) : Nzcv :=
  { n := (x + y).msb, z := x + y == 0#64, c := decide (2 ^ 64 ≤ x.toNat + y.toNat),
    v := x.msb == y.msb && (x + y).msb != x.msb }

/-- Flags of a difference (R149, R167): C is 1 when no borrow occurs. -/
def subFlags (x y : Word) : Nzcv :=
  { n := (x - y).msb, z := x - y == 0#64, c := decide (y.toNat ≤ x.toNat),
    v := x.msb != y.msb && (x - y).msb != x.msb }

/-- Flags of a binary32 comparison (R180). -/
def fcmpFlags (x y : FVal) : Nzcv :=
  if x = .absent ∨ y = .absent then ⟨false, true, false, true⟩
  else if x = .nan ∨ y = .nan then ⟨false, false, false, true⟩
  else if FVal.lt x y then ⟨true, false, false, false⟩
  else if FVal.lt y x then ⟨false, false, true, false⟩
  else ⟨false, true, true, false⟩

/-- The conditions of R149. -/
def condHolds (c : BitVec 4) (p : Pstat) : Bool :=
  if c = 0#4 then true
  else if c = 1#4 then p.z
  else if c = 2#4 then !p.z
  else if c = 3#4 then p.n != p.v
  else if c = 4#4 then p.n == p.v
  else if c = 5#4 then !p.z && p.n == p.v
  else if c = 6#4 then p.z || p.n != p.v
  else if c = 7#4 then !p.c
  else if c = 8#4 then p.c
  else if c = 9#4 then p.c && !p.z
  else if c = 10#4 then !p.c || p.z
  else if c = 11#4 then p.v
  else if c = 12#4 then p.p
  else if c = 13#4 then p.mz
  else if c = 14#4 then !p.mz
  else p.ma

/-- `mtest` (R19): MZ when no live bit is set, MA when every live bit is. -/
def Team.setMaskFlags (t : Team) (x : Mask) : Team :=
  { t with pstat := { t.pstat with mz := x &&& t.m0 == 0#1024, ma := x &&& t.m0 == t.m0 } }

end Sys2Proof.Machine
end

