-- ==== Sys2Proof/Machine/ScalarAlu.lean ====
section
/-!
DEFINITION. Machine/ScalarAlu.lean: scalar integer arithmetic (R169 to R171) and the condition select.
-/

namespace Sys2Proof.Machine

abbrev Out := Host.Outcome State Fault Refusal

/-- Run the body when the instruction is well formed; otherwise its word traps ILLEGAL (R147, R154). -/
def guarded (i : Instr) (s : State) (body : Out) : Out :=
  if i.wf then body else .next (s.illegal (encode i))

/-- A register form without flags: d := f a b. -/
def State.regOp (s : State) (f : Word → Word → Word) (d a b : BitVec 6) : State :=
  s.upd fun t => (t.setReg d (f (t.reg a) (t.reg b))).advance

/-- The same with one source. -/
def State.regOp1 (s : State) (f : Word → Word) (d a : BitVec 6) : State :=
  s.upd fun t => (t.setReg d (f (t.reg a))).advance

/-- A result and its flags, over `n` bytes of code. -/
def Team.putFlags (t : Team) (d : BitVec 6) (x : Word) (f : Nzcv) (n : Word) : Team :=
  { ((t.setReg d x).setFlags f) with pc := t.pc + n }

def execIadd (d a b : BitVec 6) (s : State) : Out :=
  .next (s.upd fun t => t.putFlags d (t.reg a + t.reg b) (addFlags (t.reg a) (t.reg b)) 4)
def execIsub (d a b : BitVec 6) (s : State) : Out :=
  .next (s.upd fun t => t.putFlags d (t.reg a - t.reg b) (subFlags (t.reg a) (t.reg b)) 4)
def execImul (d a b : BitVec 6) (s : State) : Out := .next (s.regOp (· * ·) d a b)

/-- Bits [127:64] of the signed and of the unsigned product. -/
def mulHigh (x y : Word) : Word := BitVec.ofInt 64 ((x.toInt * y.toInt) / 2 ^ 64)
def mulHighU (x y : Word) : Word := BitVec.ofNat 64 (x.toNat * y.toNat / 2 ^ 64)

def execImulh (d a b : BitVec 6) (s : State) : Out := .next (s.regOp mulHigh d a b)
def execImulhu (d a b : BitVec 6) (s : State) : Out := .next (s.regOp mulHighU d a b)

/-- The quotients and remainders with the defined results of R170. -/
def quot (x y : Word) : Word :=
  if y = 0#64 then BitVec.allOnes 64 else BitVec.ofInt 64 (x.toInt.tdiv y.toInt)
def rem (x y : Word) : Word := if y = 0#64 then x else BitVec.ofInt 64 (x.toInt.tmod y.toInt)
def quotU (x y : Word) : Word := if y = 0#64 then BitVec.allOnes 64 else BitVec.ofNat 64 (x.toNat / y.toNat)
def remU (x y : Word) : Word := if y = 0#64 then x else BitVec.ofNat 64 (x.toNat % y.toNat)

/-- Division: a zero divisor traps DIVFAULT while CHK is 1 (R170). -/
def State.divOp (s : State) (f : Word → Word → Word) (d a b : BitVec 6) : State :=
  if s.team.pstat.chk ∧ s.team.reg b = 0#64 then s.trap cDivfault (s.team.reg a) else s.regOp f d a b

def execIdiv (d a b : BitVec 6) (s : State) : Out := .next (s.divOp quot d a b)
def execIdivu (d a b : BitVec 6) (s : State) : Out := .next (s.divOp quotU d a b)
def execIrem (d a b : BitVec 6) (s : State) : Out := .next (s.divOp rem d a b)
def execIremu (d a b : BitVec 6) (s : State) : Out := .next (s.divOp remU d a b)
def execAnd (d a b : BitVec 6) (s : State) : Out := .next (s.regOp (· &&& ·) d a b)
def execOr (d a b : BitVec 6) (s : State) : Out := .next (s.regOp (· ||| ·) d a b)
def execXor (d a b : BitVec 6) (s : State) : Out := .next (s.regOp (· ^^^ ·) d a b)

/-- The shift amount is b[5:0] (R169). -/
def shlW (x y : Word) : Word := x <<< (y.toNat % 64)
def shrW (x y : Word) : Word := x >>> (y.toNat % 64)
def sarW (x y : Word) : Word := x.sshiftRight (y.toNat % 64)

def execShl (d a b : BitVec 6) (s : State) : Out := .next (s.regOp shlW d a b)
def execShr (d a b : BitVec 6) (s : State) : Out := .next (s.regOp shrW d a b)
def execSar (d a b : BitVec 6) (s : State) : Out := .next (s.regOp sarW d a b)

def minS (x y : Word) : Word := if x.slt y then x else y
def maxS (x y : Word) : Word := if x.slt y then y else x
def minU (x y : Word) : Word := if x.ult y then x else y
def maxU (x y : Word) : Word := if x.ult y then y else x

def execImin (d a b : BitVec 6) (s : State) : Out := .next (s.regOp minS d a b)
def execImax (d a b : BitVec 6) (s : State) : Out := .next (s.regOp maxS d a b)
def execIminu (d a b : BitVec 6) (s : State) : Out := .next (s.regOp minU d a b)
def execImaxu (d a b : BitVec 6) (s : State) : Out := .next (s.regOp maxU d a b)

/-- `cmp` writes the flags only (R169). -/
def execCmp (a b : BitVec 6) (s : State) : Out :=
  .next (s.upd fun t => t.putFlags 0#6 0 (subFlags (t.reg a) (t.reg b)) 4)

/-- sext(a, n) in 64 bits. -/
def sxtW (n : Nat) (x : Word) : Word := (x.truncate n).signExtend 64

def execSxt8 (d a : BitVec 6) (s : State) : Out := .next (s.regOp1 (sxtW 8) d a)
def execSxt16 (d a : BitVec 6) (s : State) : Out := .next (s.regOp1 (sxtW 16) d a)
def execSxt32 (d a : BitVec 6) (s : State) : Out := .next (s.regOp1 (sxtW 32) d a)

def execSelCc (d a b : BitVec 6) (c : BitVec 4) (s : State) : Out :=
  .next (s.upd fun t => (t.setReg d (if condHolds c t.pstat then t.reg a else t.reg b)).advance)

/-! ### Immediate forms (R171): `imm` is the 14-bit or the 40-bit immediate, `n` the bytes of code -/

/-- sext(IMM14, 14). -/
def imm14 (i : BitVec 14) : Word := i.signExtend 64
/-- sext(IMM26 × 2^14 + IMM14, 40) (R142). -/
def imm40 (hi : BitVec 26) (i : BitVec 14) : Word := (hi ++ i).signExtend 64

def State.addImm (s : State) (d a : BitVec 6) (imm n : Word) : State :=
  s.upd fun t => t.putFlags d (t.reg a + imm) (addFlags (t.reg a) imm) n
def State.cmpImm (s : State) (a : BitVec 6) (imm n : Word) : State :=
  s.upd fun t => t.putFlags 0#6 0 (subFlags (t.reg a) imm) n
def State.immOp (s : State) (f : Word → Word → Word) (d a : BitVec 6) (imm n : Word) : State :=
  s.upd fun t => { (t.setReg d (f (t.reg a) imm)) with pc := t.pc + n }

def execIaddi (d a : BitVec 6) (i : BitVec 14) (s : State) : Out := .next (s.addImm d a (imm14 i) 4)
def execImuli (d a : BitVec 6) (i : BitVec 14) (s : State) : Out := .next (s.immOp (· * ·) d a (imm14 i) 4)
def execAndi (d a : BitVec 6) (i : BitVec 14) (s : State) : Out := .next (s.immOp (· &&& ·) d a (imm14 i) 4)
def execOri (d a : BitVec 6) (i : BitVec 14) (s : State) : Out := .next (s.immOp (· ||| ·) d a (imm14 i) 4)
def execXori (d a : BitVec 6) (i : BitVec 14) (s : State) : Out := .next (s.immOp (· ^^^ ·) d a (imm14 i) 4)
def execShli (d a n : BitVec 6) (s : State) : Out := .next (s.regOp1 (· <<< n.toNat) d a)
def execShri (d a n : BitVec 6) (s : State) : Out := .next (s.regOp1 (· >>> n.toNat) d a)
def execSari (d a n : BitVec 6) (s : State) : Out := .next (s.regOp1 (·.sshiftRight n.toNat) d a)
def execCmpi (a : BitVec 6) (i : BitVec 14) (s : State) : Out := .next (s.cmpImm a (imm14 i) 4)

end Sys2Proof.Machine
end

