-- ==== Sys2Proof/Machine/ScalarFp.lean ====
section
/-!
DEFINITION. Machine/ScalarFp.lean: scalar binary32 (R179 to R181).
-/

namespace Sys2Proof.Machine

/-- binary32 in bits [31:0] of a register. -/
def Team.f32 (t : Team) (i : BitVec 6) : Nat := (t.reg i).toNat % 2 ^ 32

/-- The RND code with DYN resolved from an FMT (R68). -/
def resolveRnd (r : Nat) (fmt : Word) : Nat := if r = 7 then fld fmt.toNat 7 3 else r

/-- A rounding mode from its code, with the random bits that SR takes (R153). -/
def rndMode (code random : Nat) : Rnd :=
  if code = 0 then .rne else if code = 1 then .rna else if code = 2 then .rtz else if code = 3 then .rdn
  else if code = 4 then .rup else .sr random

/-- The random bits of a scalar SR instruction (R72): lane 0, element 0. -/
def Team.scalarBits (t : Team) : Nat := srBits t.srseed t.srctr (fld t.fmt.toNat 14 4) 0 0

/-- The rounding of a scalar instruction at its execution (R179). -/
def Team.scalarRnd (t : Team) (r : BitVec 3) : Rnd := rndMode (resolveRnd r.toNat t.fmt) t.scalarBits

/-- SRCTR advances when the instruction is SR (R67, R179). -/
def Team.countSr (t : Team) (r : BitVec 3) : Team :=
  if resolveRnd r.toNat t.fmt = 5 then { t with srctr := t.srctr + 1 } else t

/-- A scalar FP32 result: 32 bits, the upper half 0. -/
def Team.putF32 (t : Team) (d : BitVec 6) (r : BitVec 3) (x : Nat) : Team :=
  ((t.setReg d (BitVec.ofNat 64 (x % 2 ^ 32))).countSr r).advance

/-- round(f a b d) with the register values decoded (R69, R75, R76; SAT 0). -/
def State.fpOp (s : State) (f : Rnd → FVal → FVal → FVal → FVal) (d a b : BitVec 6) (r : BitVec 3) : State :=
  s.upd fun t =>
    let rnd := t.scalarRnd r
    t.putF32 d r (fmtF32.ofVal rnd false
      (f rnd (fmtF32.decode (t.f32 a)) (fmtF32.decode (t.f32 b)) (fmtF32.decode (t.f32 d)))).code

def execFaddF32 (d a b : BitVec 6) (r : BitVec 3) (s : State) : Out :=
  guarded (.faddF32 d a b r) s (.next (s.fpOp (fun rnd x y _ => FVal.add rnd x y) d a b r))
def execFsubF32 (d a b : BitVec 6) (r : BitVec 3) (s : State) : Out :=
  guarded (.fsubF32 d a b r) s (.next (s.fpOp (fun rnd x y _ => FVal.add rnd x y.neg) d a b r))
def execFmulF32 (d a b : BitVec 6) (r : BitVec 3) (s : State) : Out :=
  guarded (.fmulF32 d a b r) s (.next (s.fpOp (fun _ x y _ => FVal.mul x y) d a b r))
def execFfmaF32 (d a b : BitVec 6) (r : BitVec 3) (s : State) : Out :=
  guarded (.ffmaF32 d a b r) s (.next (s.fpOp (fun rnd x y z => FVal.fma rnd x y z) d a b r))

/-- Step 3 of R178 after R76: ABSENT in gives ABSENT. -/
def minMax32 (isMax : Bool) (x y : Nat) : Nat :=
  if fmtF32.decode x = .absent ∨ fmtF32.decode y = .absent then fmtF32.absent else fmtF32.minMax isMax x y

def State.fpMinMax (s : State) (isMax : Bool) (d a b : BitVec 6) : State :=
  s.upd fun t => (t.setReg d (BitVec.ofNat 64 (minMax32 isMax (t.f32 a) (t.f32 b)))).advance

def execFminF32 (d a b : BitVec 6) (s : State) : Out := .next (s.fpMinMax false d a b)
def execFmaxF32 (d a b : BitVec 6) (s : State) : Out := .next (s.fpMinMax true d a b)

def execFcmpF32 (a b : BitVec 6) (s : State) : Out :=
  .next (s.upd fun t => (t.setFlags (fcmpFlags (fmtF32.decode (t.f32 a)) (fmtF32.decode (t.f32 b)))).advance)

/-- `cvt.f32.s32` (R179). -/
def execCvtF32S32 (d a : BitVec 6) (r : BitVec 3) (s : State) : Out :=
  guarded (.cvtF32S32 d a r) s (.next (s.upd fun t =>
    t.putF32 d r (fmtF32.ofVal (t.scalarRnd r) false (FVal.ofInt (sext (t.f32 a) 32))).code))

/-- `cvt.s32.f32` (R181): NaN and ABSENT give 0; the result is sign-extended. -/
def execCvtS32F32 (d a : BitVec 6) (r : BitVec 3) (s : State) : Out :=
  guarded (.cvtS32F32 d a r) s (.next (s.upd fun t =>
    ((t.setReg d (BitVec.ofInt 64 ((fmtF32.decode (t.f32 a)).toInt (t.scalarRnd r) (-2 ^ 31) (2 ^ 31 - 1)))).countSr
      r).advance))

end Sys2Proof.Machine
end

