-- ==== Sys2Proof/Machine/Operands.lean ====
section
/-!
DEFINITION. Machine/Operands.lean: the operands of lane words: which registers, masks and slots a word names (R152 to
R158, R201), the checks made when it is enqueued (R24, R42, R154, R205, R284, R287), the values that operands yield at a
pass (R25, R26, R8), passes (R34), the checking mode (R300), and the writes a pass leaves outstanding (R297).
-/

namespace Sys2Proof.Machine

/-- A lane operation: CLASS, OP and fields. -/
structure LaneOp where
  cls : Nat
  op  : Nat
  f   : LaneFields
  deriving DecidableEq, Repr

/-- A lane word's operation. -/
def LaneOp.ofWord (w : Nat) : LaneOp := ⟨fld w 92 4, fld w 84 8, laneFields w⟩

/-- The full operation that a pair half stands for (R163). -/
def LaneOp.ofHalf (h : PairHalf) : LaneOp :=
  let f : LaneFields :=
    { mask := h.mask, rnd := BitVec.ofNat 3 h.rndCode, ty := BitVec.ofNat 4 (if h.isLogic then 0 else h.tyCode), sat := 0,
      d := h.d, a := h.a, b := h.b, stall := h.stall, post := 0, reuse := 0, mod := 0,
      imm := if h.op = 0x08 then 0x88EC#32 else if h.op = 0x09 then 0xEEEC#32 else if h.op = 0x0A then 0x66EC#32
             else if h.isAcc then BitVec.ofNat 32 h.d.toNat else 0#32 }
  if h.op = 0x00 then ⟨0, 0, f⟩ else if h.op = 0x01 then ⟨0, 1, f⟩ else if h.op = 0x02 then ⟨0, 2, f⟩
  else if h.op = 0x03 then ⟨0, 4, f⟩ else if h.op = 0x04 then ⟨0, 7, f⟩ else if h.op = 0x05 then ⟨0, 8, f⟩
  else if h.op = 0x06 then ⟨0, 0xB, f⟩ else if h.isLogic then ⟨1, 0, f⟩
  else if h.op = 0x0B then ⟨1, 1, f⟩ else if h.op = 0x0C then ⟨1, 2, f⟩ else if h.op = 0x0D then ⟨1, 3, f⟩
  else ⟨3, h.op - 0x10, f⟩

/-! ### What a word names -/

namespace LaneOp

def ty (o : LaneOp) : Nat := o.f.t
/-- Operations without a TYPE (R201). -/
def untyped (o : LaneOp) : Bool :=
  (o.cls == 1 && (o.op == 0 || decide (7 ≤ o.op))) || (o.cls == 2 && o.op == 3)
/-- Registers of an element of the type: a 64-bit element takes two. -/
def width (o : LaneOp) : Nat := if o.untyped then 1 else if tyBits o.ty = 64 then 2 else 1
def immC (o : LaneOp) : BitVec 8 := BitVec.ofNat 8 o.f.imm.toNat
def hasC (o : LaneOp) : Bool :=
  (o.cls == 0 && o.op == 4) || (o.cls == 1 && (o.op == 0 || o.op == 6)) || (o.cls == 3 && o.op == 3)
/-- The word may take an immediate B under MOD[5]. -/
def hasIb (o : LaneOp) : Bool :=
  o.f.ib && (o.cls == 0 || (o.cls == 1 && decide (o.op ≤ 5)) || o.cls == 2 || o.cls == 3 || (o.cls == 6 && o.op == 4))
/-- B is an operand of the operation (when no immediate replaces it). -/
def hasB (o : LaneOp) : Bool :=
  (o.cls == 0 && decide (o.op ≤ 8)) || (o.cls == 1 && decide (o.op ≤ 6)) || (o.cls == 2 && decide (o.op ≤ 2))
    || (o.cls == 3 && decide (o.op ≤ 5)) || (o.cls == 6 && o.op == 4) || (o.cls == 7 && o.op == 0 && !o.f.ib)
    || o.cls == 8 || o.cls == 9
/-- A is an operand code of a lane source. -/
def hasA (o : LaneOp) : Bool :=
  !(o.cls == 0xA && decide (2 ≤ o.op)) && !(o.cls == 0 && o.op == 0xB && o.f.ib)
def isCvt (o : LaneOp) : Bool := o.cls == 5 && o.op == 0
def isMem (o : LaneOp) : Bool := o.cls == 8 || o.cls == 9
def srcTy (o : LaneOp) : Nat := if o.isCvt then o.f.modF 0 4 else if o.cls == 6 && o.op == 0 then o.f.modF 0 4 else o.ty

/-- E of R233. -/
def cvtElems (o : LaneOp) : Nat := max (tyElems o.ty) (tyElems o.srcTy)

/-- The format of `.b8` under an FMT (R64), and its block width BW. -/
def fmtB8Of (fmt : Word) : FFmt := fmtB8 (fld fmt.toNat 0 3) (fmt.getLsbD 3) (fmt.getLsbD 4)

/-- `.blkf` resolved (R66). -/
def blockTy (t : Nat) (fmt : Word) : Nat :=
  if t = 0 then (if fld fmt.toNat 5 2 = 0 then 0xD else if fld fmt.toNat 5 2 = 1 then 0xE else 0xF) else t

/-- Bytes of a block record (R61). -/
def recSize (t : Nat) : Nat := if t = 0xD then 17 else if t = 0xE then 25 else 33
/-- Lanes of a block image (R237). -/
def imgLanes (t : Nat) : Nat := if t = 0xD then 5 else if t = 0xE then 7 else 9

/-- Bytes of a drained row (R287). -/
def rowBytes (t : Nat) : Nat :=
  if t = 1 then 128 else if t = 2 ∨ t = 3 then 64 else if t = 4 then 32 else recSize t

/-- AWIN of a loop descriptor (R284). -/
def awin (y : Word) : Nat := fld y.toNat 24 8

/-- The lane sources, in the order A, B, C, with the registers each spans (R300). -/
def sources (o : LaneOp) (y : Word) : List (BitVec 8 × Nat) :=
  if o.cls = 0xA then
    (if o.op = 0 then [(o.f.a, 1)] ++ (if tyIsBlkf o.ty then [(o.f.b, 1)] else [])
     else if o.op = 1 then [(o.f.a, awin y)] ++ (if tyIsBlkf o.ty then [(o.f.b, awin y)] else [])
     else [])
  else if o.isCvt then [(o.f.a, LaneFields.spanRegs o.cvtElems o.srcTy)]
  else if o.isMem then
    [(o.f.a, if o.f.modF 5 1 = 1 then 2 else 1), (o.f.b, if o.cls = 9 then o.width else 1)]
      ++ (if (o.cls = 8 ∧ o.op = 1) ∨ (o.cls = 9 ∧ o.op = 7) then [(o.f.d, o.width)] else [])
  else if o.cls = 6 ∧ (o.op ≤ 2 ∨ (o.op = 5 ∧ tyIsBlock o.ty)) then [(o.f.a, 1)]
  else
    (if o.hasA then [(o.f.a, o.width)] else [])
      ++ (if o.hasB && !o.hasIb then [(o.f.b, if o.cls = 7 then 1 else o.width)] else [])
      ++ (if o.hasC then [(o.immC, o.width)] else [])

/-- The lane registers written: first register and count. -/
def dests (o : LaneOp) (fmt : Word) : List (Nat × Nat) :=
  let d := o.f.d.toNat
  if o.cls = 0xA then
    (if o.op = 3 ∧ o.f.modF 5 1 = 0 then [(d, (rowBytes (if o.ty = 0 ∨ 0xD ≤ o.ty then blockTy o.ty fmt else o.ty) + 3) / 4)]
     else if o.op = 4 ∧ o.f.imm.toNat ≠ 0xEC then [(o.f.imm.toNat, 1)] else [])
  else if o.cls = 2 ∧ o.op ≠ 2 then []
  else if o.cls = 6 ∧ (o.op = 3 ∨ o.op = 5) then []
  else if o.cls = 6 ∧ o.op ≤ 2 then [(d, 1)]
  else if o.cls = 8 ∧ 1 ≤ o.op then []
  else if o.cls = 9 ∧ 0x10 ≤ o.op then []
  else if o.isCvt then [(d, LaneFields.spanRegs o.cvtElems o.ty)]
  else if o.cls = 7 ∧ 2 ≤ o.op ∧ o.f.modF 4 1 = 1 then [(d, o.width + 1)]
  else [(d, o.width)]

/-- The masks written (R212, R214, R241). -/
def maskDests (o : LaneOp) : List Nat :=
  if o.cls = 2 ∧ o.op ≤ 1 ∨ o.cls = 6 ∧ o.op = 3 then (List.range (tyElems o.ty)).map (o.f.d.toNat + ·)
  else if o.cls = 2 ∧ o.op = 3 then [o.f.d.toNat]
  else []

/-- The masks read: MASK, then the selector of `sel` (R213). -/
def maskSources (o : LaneOp) : List Nat :=
  [o.f.mask.toNat] ++ (if o.cls = 2 ∧ o.op = 2 then [o.f.modF 0 4] else [])

/-- The stream slots named, with the width in bits that each must have (R205). -/
def slots (o : LaneOp) : List (Nat × Nat) :=
  ((o.sources 0).filter fun c => isSlot c.1).map fun c =>
    (c.1.toNat - 0xE0, if o.untyped then 32 else if o.isCvt then tyBits o.srcTy else tyBits o.ty)

/-- The masks (0 to 15) and slots (16 + q) that the word names (R40). -/
def names (o : LaneOp) : List Nat := o.maskSources ++ o.maskDests ++ o.slots.map fun q => 16 + q.1

/-- May raise a synchronous fault (R42, R205). -/
def mayFault (o : LaneOp) : Bool := o.isMem || o.cls == 0xA || !o.slots.isEmpty

/-- The histogram slot to which the word adds bins when it issues (R244); none for a word that bins nothing. -/
def binSlot (o : LaneOp) (fmt : Word) : Option Nat :=
  if o.cls = 6 ∧ o.op = 5 then some (o.f.modF 0 2)
  else if (o.isCvt ∨ (o.cls = 6 ∧ (o.op = 0 ∨ o.op = 2))) ∧ o.f.modF 5 1 = 1 ∧ fmt.getLsbD 11 then some (fld fmt.toNat 12 2)
  else none

/-- The tile named (R33). -/
def tile? (o : LaneOp) : Option Nat :=
  if o.cls = 0xA then some (if o.op = 3 then o.f.a.toNat else o.f.d.toNat) else none

/-- The fixed latency of the class; 0 for long latency (R155, R296). -/
def latency (o : LaneOp) : Nat :=
  if o.cls ≤ 2 then 4
  else if o.cls = 3 then (if o.ty = 0 then 10 else 6)
  else if o.cls = 4 then 12
  else if o.cls = 5 ∨ o.cls = 6 then 6
  else if o.cls = 7 ∧ o.op ≤ 1 then 8
  else 0

/-- It rounds stochastically under the FMT captured (R39). -/
def isSr (o : LaneOp) (fmt : Word) : Bool := resolveRnd o.f.rnd.toNat fmt == 5

/-- Every register of a span is allocated (R24). -/
def spanOk (nvreg : Nat) (first count : Nat) : Bool := decide (first + count ≤ 8 * nvreg)

/-- What depends on the team, for one operation: its registers, slots, crew and loop descriptor (R24, R205, R284, R287,
R291). The static part is `Instr.wf`. -/
def teamOk (o : LaneOp) (t : Team) (fmt x y : Word) : Bool :=
  let _ := x
  ((o.sources y).all fun c => !isReg c.1 || spanOk t.nvreg c.1.toNat c.2)
    && ((o.dests fmt).all fun d => spanOk t.nvreg d.1 d.2)
    && (o.slots.all fun q => tyBits (Store.get {} t.q q.1).ty.toNat == q.2)
    && (o.cls != 0xA || decide (2 ≤ o.op) || o.f.modF 5 1 == 0 || t.crewed.isSome)
    && (o.cls != 0xA || o.op != 1 ||
          (decide (1 ≤ fld y.toNat 0 13) && decide (fld y.toNat 0 13 ≤ 4096) && decide (1 ≤ awin y) && decide (awin y ≤ 224)
            && fld y.toNat 13 7 == 0))
    && (o.cls != 0xA || o.op != 3 || o.f.modF 5 1 == 0 ||
          (let n := rowBytes (if o.ty = 0 ∨ 0xD ≤ o.ty then blockTy o.ty fmt else o.ty)
           decide (o.f.immF 16 16 = 0) || decide (n ≤ o.f.immF 16 16)))

end LaneOp

/-- The operations of a lane word: one, or the two halves of a pair. -/
def laneOps (w : Nat) : List LaneOp :=
  if fld w 92 4 = 0xF then [LaneOp.ofHalf (pairHalf w 46), LaneOp.ofHalf (pairHalf w 0)] else [LaneOp.ofWord w]

/-- An SR word, or a pair with an SR half (R39). -/
def laneIsSr (w : Nat) (fmt : Word) : Bool := (laneOps w).any fun o => o.isSr fmt

/-- The token that a word posts to. -/
def lanePost (w : Nat) : Option Nat :=
  if fld w 92 4 = 0xF then none
  else if (laneFields w).posts then some (laneFields w).token else none

/-! ### Enqueue (R39, R41 to R43) -/

/-- The tile that a lane word names is the team's: granted to its group and owned by its tag (R33). -/
def State.tileOwned (s : State) (t : Team) (n : Nat) : Bool :=
  (s.groupOf t).tilemask.getLsbD n && (s.owner 4 (16 * t.gq + n)).tag == t.pstat.tag

/-- Why a lane word traps as it is enqueued: ILLEGAL with the word's upper bits, or OWNER with the tile number. -/
def State.enqueueFault (s : State) (t : Team) (w : Nat) (mf : Bool) : Option (Nat × Word) :=
  let ill := some (cIllegal, BitVec.ofNat 64 (w / 2 ^ 32))
  let f := laneFields w
  match decodeLane w with
  | .error _ => ill
  | .ok i =>
    if !i.wf then ill
    else if !((laneOps w).all fun o =>
        o.teamOk t t.fmt (t.reg (f.imm.truncate 6)) (t.reg (BitVec.ofNat 6 (f.immF 8 6)))) then ill
    else if (laneOps w).any LaneOp.mayFault && !mf then ill
    else match (LaneOp.ofWord w).tile? with
      | none => none
      | some n => if s.tileOwned t n then none else some (cOwner, BitVec.ofNat 64 n)

/-- The queue entry of a word, with its captures. -/
def Team.capture (t : Team) (w : Nat) (pc : Word) (lidx : Nat) (holds : Bool) : LaneEntry :=
  let f := laneFields w
  { word := BitVec.ofNat 96 w, seq := t.seqctr, lidx := lidx, pc := pc, x := t.reg (f.imm.truncate 6),
    y := t.reg (BitVec.ofNat 6 (f.immF 8 6)), fmt := t.fmt, seed := t.srseed, ctr := t.srctr, hist := t.histbase,
    chk := t.pstat.chk, stp := t.pstat.stp, holds := holds }

/-- The counters after an enqueue (R39, R41). -/
def Team.countEnqueue (t : Team) (w : Nat) : Team :=
  { t with seqctr := t.seqctr + 1, srctr := if laneIsSr w t.fmt then t.srctr + 1 else t.srctr }

/-- The first byte in scratchpad of the 256 bytes of bins that a queued word will add to. -/
def LaneEntry.binsAt (e : LaneEntry) (core : Nat) : Option Nat :=
  match (LaneOp.ofWord e.word.toNat).binSlot e.fmt with
  | none => none
  | some slot => (sFlat core (e.hist.toNat + 256 * slot)).map (scratchBase + ·)

/-- Histogram adds of queued lane instructions stand before this scalar access in program order (R244): a release waits for
every one of them, any other access for those that touch its bytes (R104, R122). -/
def Team.binsAhead (t : Team) (release : Bool) (keys : List Nat) : Bool :=
  t.laneq.any fun e => match e.binsAt t.core with
    | none => false
    | some b => release || keys.any fun k => decide (b ≤ k) && decide (k < b + 256)

/-- A scalar access that reads these bytes has to wait. -/
def State.scalarWait (s : State) (t : Team) (keys : List Nat) : Bool := s.mustWait t keys || t.binsAhead false keys

/-- Scalar fetch is suspended (R43). -/
def Team.suspended (t : Team) : Bool := t.laneq.any LaneEntry.holds

/-! ### Values of operands -/

/-- Register r of lane l as a key of the lane registers. -/
def vKey (r l : Nat) : Nat := 1024 * r + l

def Pend.regOf (p : Pend) (k : Nat) : Option Lane32 := (p.regs.find? fun x => x.1 == k).map Prod.snd

/-- The bits of a register that the operation writes: all of it, but for elements lost to another write (R297, R298). -/
def Pend.partOf (p : Pend) (k : Nat) : Option Lane32 := (p.part.find? fun x => x.1 == k).map Prod.snd

/-- A register that holds `x` after the operation has written `y`. -/
def Pend.merged (p : Pend) (k : Nat) (x y : Lane32) : Lane32 :=
  match p.partOf k with
  | none => y
  | some m => (x &&& ~~~m) ||| (y &&& m)

def Pend.maskOf (p : Pend) (k : Nat) : Option Bool := (p.masks.find? fun x => x.1 == k).map Prod.snd

/-- The result is certain at a cycle (R296); before that, and for a token's result until it is delivered, a reader may
find the old or the new value (R8, R297, R298). -/
def Pend.due (p : Pend) (cyc : Nat) : Bool := p.ready != 0 && decide (p.ready ≤ cyc)

/-- Which of the old and the new value of element `u` at key `k` a reader finds, when operation `id` writes it too near. -/
def pickReg (free id k u : Nat) : Bool := pick free 1 (id * 2 ^ 24 + 32 * k + u)

/-- A register of elements of `bits` bits, each of them old or new as `new` says. -/
def mixReg (bits : Nat) (new : Nat → Bool) (x y : Lane32) : Lane32 :=
  (List.range 32).foldl (fun acc i =>
    acc ||| (if new (i / max 1 bits) then y else x) &&& BitVec.ofNat 32 (2 ^ i)) 0#32

/-- A lane register seen through the outstanding writes, oldest first. Each element of `bits` bits is old or new by itself
(R8, R247); the two registers of a 64-bit element ask as its first register, `k0`. -/
def viewReg (free bits k0 k cyc : Nat) : List Pend → Lane32 → Lane32
  | [], x => x
  | p :: ps, x => viewReg free bits k0 k cyc ps
      (match p.regOf k with
       | none => x
       | some y =>
         let y := p.merged k x y
         if p.due cyc then y else mixReg bits (pickReg free p.id k0) x y)

def viewMask (free k cyc : Nat) : List Pend → Bool → Bool
  | [], x => x
  | p :: ps, x => viewMask free k cyc ps
      (match p.maskOf k with
       | none => x
       | some y => if p.due cyc || pick free 2 (p.id * 2 ^ 24 + k) then y else x)

/-- A lane register as a pass that issues at `cyc` reads it: register `r` of an operand whose element of `bits` bits begins in
register `r0`. -/
def Team.vreg (t : Team) (free bits cyc r0 r l : Nat) : Lane32 :=
  viewReg free bits (vKey r0 l) (vKey r l) cyc t.pend (Store.get 0 t.v (vKey r l))

/-- A mask bit as a pass that issues at `cyc` reads it. -/
def Team.maskBit (t : Team) (free cyc m l : Nat) : Bool :=
  if m = 0 then t.m0.getLsbD l else viewMask free (vKey m l) cyc t.pend ((t.mask m).getLsbD l)

/-! ### Passes (R34) -/

/-- A pass: its warp, its cycle and the lanes that take part. -/
structure Pass where
  warp  : Nat
  cyc   : Nat
  lanes : List Nat
  deriving DecidableEq, Repr, Inhabited

/-- The lanes of warp w. -/
def warpLanes (w : Nat) : List Nat := (List.range 32).map (32 * w + ·)

/-- Lanes of a warp that are set in a mask and live (R11's active). -/
def Team.activeLanes (t : Team) (free cyc m w : Nat) : List Nat :=
  (warpLanes w).filter fun l => t.m0.getLsbD l && t.maskBit free cyc m l

/-- Helper lanes that join a quad instruction: in a quad that holds an active lane (R17, R216). -/
def Team.quadLanes (t : Team) (free cyc m w : Nat) : List Nat :=
  let act := t.activeLanes free cyc m w
  (warpLanes w).filter fun l => act.contains l
    || (decide (t.live ≤ l) && decide (4 * (l / 4) < t.live) && act.any fun a => a / 4 == l / 4)

/-- The passes of a mask from a cycle on, in ascending warp order. -/
def Team.passesFrom (t : Team) (quad : Bool) (free cyc0 m : Nat) : List Pass :=
  (List.range t.nwarp).foldl (fun acc w =>
    let cyc := cyc0 + acc.length
    let ls := if quad then t.quadLanes free cyc m w else t.activeLanes free cyc m w
    if ls.isEmpty then acc else acc ++ [⟨w, cyc, ls⟩]) []

/-! ### The context of an issuing lane instruction -/

structure Ctx where
  s     : State
  t     : Team
  e     : LaneEntry
  o     : LaneOp
  /-- values of stream-slot operands: (2^16 × slot + lane, value) -/
  slots : List (Nat × Nat) := []
  /-- added to the element index of R72: 0x8000 in the Y half of a pair (R165) -/
  elOff : Nat := 0

/-- 1 in a type, replicated into each packed element (R25). -/
def oneOf (ty : Nat) (fmt : Word) : Nat :=
  if ty = 0 then 0x3FF0000000000000
  else if ty = 1 then 0x3F800000
  else if ty = 2 then 0x3C003C00
  else if ty = 3 then 0x3F803F80
  else if ty = 4 then (2 ^ (LaneOp.fmtB8Of fmt).trail * (LaneOp.fmtB8Of fmt).bias.toNat) * 0x01010101
  else if ty = 5 ∨ ty = 9 then 0x01010101
  else if ty = 6 ∨ ty = 0xA then 0x00010001
  else 1

/-- Grid coordinates of a lane (R309). -/
def State.gridX (s : State) (t : Team) (l : Nat) : Nat := (t.origin + l) % (s.groupOf t).extX
def State.gridY (s : State) (t : Team) (l : Nat) : Nat := (t.origin + l) / (s.groupOf t).extX % (s.groupOf t).extY
def State.gridZ (s : State) (t : Team) (l : Nat) : Nat :=
  (t.origin + l) / ((s.groupOf t).extX * (s.groupOf t).extY)

/-- A lane special (R25). -/
def Ctx.special (c : Ctx) (code ty l : Nat) : Nat :=
  if code = 0xE4 then l
  else if code = 0xE5 then l / 4
  else if code = 0xE6 then l / 32
  else if code = 0xE7 then c.t.index
  else if code = 0xE8 then (c.s.groupOf c.t).linear % 2 ^ 32
  else if code = 0xE9 then c.s.gridX c.t l % 2 ^ 32
  else if code = 0xEA then c.s.gridY c.t l % 2 ^ 32
  else if code = 0xEB then c.s.gridZ c.t l % 2 ^ 32
  else if code = 0xED then oneOf ty c.e.fmt
  else if code = 0xEE then (if tyBits ty = 64 then 2 ^ 64 - 1 else 2 ^ 32 - 1)
  else 0

/-- The first register of the element that holds register `i` of an operand from `r`. -/
def elemReg (bits r i : Nat) : Nat := if bits = 64 then r + i / 2 * 2 else r + i

/-- `n` registers from `r` in a lane, the first lowest, as elements of `bits` bits. -/
def Ctx.regs (c : Ctx) (bits cyc r l n : Nat) : Nat :=
  ((List.range n).map fun i => (c.t.vreg c.s.free bits cyc (elemReg bits r i) (r + i) l).toNat * 2 ^ (32 * i)).sum

/-- What a lane outside active(m) finds in a stream slot: nothing was read for it, and R204 gives it no value
(log entry 65). -/
def slotOutside (free slot l : Nat) : Nat := draw free 5 (2 ^ 16 * slot + l)

/-- The value of a source operand in a lane: 64 bits for a 64-bit type, else 32 (R24 to R26, R157). -/
def Ctx.src (c : Ctx) (code : BitVec 8) (ty cyc l : Nat) : Nat :=
  let k := code.toNat
  if isReg code then c.regs (tyBits ty) cyc k l (if tyBits ty = 64 then 2 else 1)
  else if isSlot code then
    ((c.slots.find? fun p => p.1 == 2 ^ 16 * (k - 0xE0) + l).map Prod.snd).getD
      (slotOutside c.s.free (k - 0xE0) l % 2 ^ (if tyBits ty = 64 then 64 else 32))
  else if k = 0xF0 then (if tyBits ty = 64 then c.e.x.toNat else c.e.x.toNat % 2 ^ 32)
  else if k = 0xF1 then (if tyBits ty = 64 then c.e.y.toNat else c.e.y.toNat % 2 ^ 32)
  else c.special k ty l

/-- The immediate B of R158, as a whole register. DESIGN CHOICE (log entry 66, unsafe): a binary32 NaN as the immediate of a
binary64 operation, `mov.f64` and the default of `fdflt.f64` among them, is the canonical binary64 NaN; R158 widens "exactly"
and says nothing of a NaN's payload. -/
def immOperand (imm : BitVec 32) (ty : Nat) : Nat :=
  let x := imm.toNat
  if ty = 0 then (fmtF64.ofVal .rne false (fmtF32.decode x)).code
  else if ty = 8 then wrapTo (sext x 32) 64
  else if tyBits ty = 16 then x % 2 ^ 16 * 0x10001
  else if tyBits ty = 8 then x % 2 ^ 8 * 0x01010101
  else x

/-- Operand B: the register or the immediate. -/
def Ctx.srcB (c : Ctx) (cyc l : Nat) : Nat :=
  if c.o.hasIb then immOperand c.o.f.imm c.o.ty else c.src c.o.f.b c.o.ty cyc l

/-- Element i of `bits` bits (R201). -/
def elem (x i bits : Nat) : Nat := fld x (i * bits) bits

/-- Elements packed, the first lowest. -/
def packElems (bits : Nat) : List Nat → Nat
  | [] => 0
  | y :: ys => y % 2 ^ bits + 2 ^ bits * packElems bits ys

/-- `n` registers of a value as writes of one lane from register d. -/
def putRegs (d l x : Nat) : Nat → List (Nat × Lane32)
  | 0 => []
  | n + 1 => (vKey d l, BitVec.ofNat 32 x) :: putRegs (d + 1) l (x / 2 ^ 32) n

/-- The resolved rounding of a lane instruction for one element (R68, R72). -/
def Ctx.rnd (c : Ctx) (lane el : Nat) : Rnd :=
  let code := resolveRnd c.o.f.rnd.toNat c.e.fmt
  rndMode code (if code = 5 then srBits c.e.seed c.e.ctr (fld c.e.fmt.toNat 14 4) lane (el + c.elOff) else 0)

/-- The floating format of a TYPE code under the captured FMT. -/
def fmtOf (ty : Nat) (fmt : Word) : FFmt :=
  if ty = 0 then fmtF64 else if ty = 1 then fmtF32 else if ty = 2 then fmtF16 else if ty = 3 then fmtBF16
  else LaneOp.fmtB8Of fmt

/-- The element format of a block type (R61). -/
def blockFmt (ty : Nat) (fmt : Word) : FFmt :=
  if ty = 0xD then fmtE4 else if ty = 0xE then fmtE6 else LaneOp.fmtB8Of fmt

/-! ### The checking mode (R300) -/

/-- One operand as the checking mode sees it: code or mask number with its elements and the cycles that touch them. -/
structure Touch where
  num   : Nat
  isMask : Bool
  write : Bool
  elems : List (Nat × Nat)
  /-- those that a pass touches -/
  inPass : List (Nat × Nat) := elems

/-- A register of which an operation will write a part. -/
def Pend.hasReg (p : Pend) (k : Nat) : Bool := ((p.regOf k).isSome || p.awaits.contains k) && p.partOf k != some 0

def Pend.writesElem (p : Pend) (isMask : Bool) (k : Nat) : Bool :=
  if isMask then (p.maskOf k).isSome else p.hasReg k

/-- The lowest token whose outstanding operation will write, or, under a write, read the element. DEDUCED (log entry 14, unsafe):
once the operation has released its token it will no longer write (R300), so a read between the release and the `wait` that
observes it gives the new value and no UNDERWAIT. -/
def Team.underTok (t : Team) (isMask write : Bool) (k cyc : Nat) : Option Nat :=
  let hits := t.pend.filter fun p =>
    p.tok.isSome && !p.due cyc && (p.writesElem isMask k || (write && !isMask && p.reads.contains k))
  (List.range 16).find? fun n => hits.any fun p => p.tok == some n

/-- An untokened producer's pass issued less than its latency ago. -/
def Team.shortHit (t : Team) (isMask : Bool) (k cyc : Nat) : Bool :=
  t.pend.any fun p => p.tok.isNone && p.ready != 0 && !p.due cyc && p.writesElem isMask k

/-- The first touch that fails UNDERWAIT, then the first that fails STALL_SHORT, with TRAPVAL. -/
def Team.checkTouches (t : Team) (ts : List Touch) : Option (Nat × Word) :=
  let u := ts.findSome? fun x => x.elems.findSome? fun e =>
    (t.underTok x.isMask x.write e.1 e.2).map fun n =>
      (cUnderwait, BitVec.ofNat 64 (n * 2 ^ 12 + bit x.write 8 + x.num))
  match u with
  | some r => some r
  | none => ts.findSome? fun x => x.inPass.findSome? fun e =>
      if t.shortHit x.isMask e.1 e.2 then
        some (cStallShort, BitVec.ofNat 64 (bit x.isMask 9 + bit x.write 8 + x.num)) else none

/-- A mask bit may be 1 when a pass reads it at `cyc`: it is 1 before or after each write that comes too near. -/
def mayMask (k cyc : Nat) : List Pend → Bool → Bool
  | [], x => x
  | p :: ps, x => mayMask k cyc ps
      (match p.maskOf k with
       | none => x
       | some y => if p.due cyc then y else x || y)

/-- The warp may have a pass under the mask (R34): some lane of it is active under the old word or the new one. -/
def Team.mayPass (t : Team) (cyc m w : Nat) : Bool :=
  (warpLanes w).any fun l => t.m0.getLsbD l && mayMask (vKey m l) cyc t.pend ((t.mask m).getLsbD l)

/-- The words of MASK that an issue at `cyc` reads, one for each of `warps` warps: a warp's word decides whether it has a pass,
so it is read with a pass and without one, in the cycle that its pass takes or would take. -/
def maskReads (warps cyc m : Nat) (ps : List Pass) : List (Nat × Nat) :=
  (List.range warps).flatMap fun w =>
    let c := ((ps.find? fun p => p.warp == w).map Pass.cyc).getD (cyc + (ps.filter fun p => decide (p.warp < w)).length)
    (warpLanes w).map fun l => (vKey m l, c)

/-- The touches of an operation over its passes from `cyc` on, in a team of `warps` warps: MASK, selector, sources, destinations, destination
masks; `rl` and `wl` give the lanes read through an operand code and written in a pass. Every warp's word of MASK is read; `mayPass` says
which warps may have a pass, whose reads STALL_SHORT asks for (R300). -/
def LaneOp.touches (o : LaneOp) (mayPass : Nat → Bool) (warps cyc : Nat) (y fmt : Word) (ps : List Pass) (rl : BitVec 8 → Pass → List Nat)
    (wl : Pass → List Nat) : List Touch :=
  let regT (write : Bool) (lanes : Pass → List Nat) (first n : Nat) : List Touch :=
    (List.range n).map fun i =>
      { num := first + i, isMask := false, write := write,
        elems := ps.flatMap fun p => (lanes p).map fun l => (vKey (first + i) l, p.cyc) }
  let m := o.f.mask.toNat
  (if m = 0 then [] else [({ num := m, isMask := true, write := false, elems := maskReads warps cyc m ps,
                             inPass := (maskReads warps cyc m ps).filter fun e => mayPass (e.1 % 1024 / 32) } : Touch)])
    ++ ((o.maskSources.drop 1).filter (· != 0)).map (fun m =>
      ({ num := m, isMask := true, write := false, elems := ps.flatMap fun p => (warpLanes p.warp).map fun l => (vKey m l, p.cyc) } : Touch))
    ++ ((o.sources y).filter fun c => isReg c.1).flatMap (fun c => regT false (rl c.1) c.1.toNat c.2)
    ++ (o.dests fmt).flatMap (fun d => regT true wl d.1 d.2)
    ++ o.maskDests.map (fun m =>
      ({ num := m, isMask := true, write := true, elems := ps.flatMap fun p => (wl p).map fun l => (vKey m l, p.cyc) } : Touch))

/-! ### Outstanding writes -/

/-- The cycle in which the pass of lane `l` issues; `cyc` for a warp without one. -/
def passCycle (cyc : Nat) (ps : List Pass) (l : Nat) : Nat := ((ps.find? fun p => p.warp == l / 32).map Pass.cyc).getD cyc

/-- The elements of a destination as the operation writes them: the bits of one, and the register from which they are counted. -/
structure Layout where
  bits  : Nat := 32
  first : Nat := 0

/-- The first register of the element that register key `k` holds a part of, or all of. -/
def Layout.head (x : Layout) (k : Nat) : Nat := vKey (elemReg x.bits x.first (k / 1024 - x.first)) (k % 1024)

/-- The layout of an operation's lane registers. -/
def LaneOp.layout (o : LaneOp) : Layout := ⟨tyBits o.ty, o.f.d.toNat⟩

/-- Bits of register `k` that a write by operation `p`, of which a newer write with elements `x` comes too near, loses to it: each
element by itself, a 64-bit one as a whole. -/
def lostBits (free : Nat) (x : Layout) (p : Pend) (k : Nat) : Lane32 :=
  mixReg x.bits (fun u => pick free 3 (p.id * 2 ^ 24 + 32 * x.head k + u)) 0 0xFFFFFFFF#32

/-- Less of a register is written. -/
def Pend.lose (p : Pend) (k : Nat) (bits : Lane32) : Pend :=
  if bits = 0 then p
  else { p with part := (k, (p.partOf k).getD 0xFFFFFFFF#32 &&& ~~~bits) :: p.part.filter fun x => x.1 != k }

/-- R297, R298: two writes of one element closer than the first one's latency, or of one whose release has not been seen, leave either
value. `cyc` is the cycle in which a lane's write of the new operation issues, `x` how its elements lie. -/
def Team.addPend (t : Team) (free : Nat) (x : Layout) (cyc : Nat → Nat) (q : Pend) : Team :=
  let clash (p : Pend) (k : Nat) : Bool := !p.due (cyc (k % 1024))
  let both (p : Pend) : List Nat := (q.regs.map Prod.fst ++ q.awaits).filter fun k => p.hasReg k && clash p k
  let loseOld (p : Pend) (k : Nat) : Bool := pick free 4 (p.id * 2 ^ 24 + k)
  let olds := t.pend.map fun p =>
    let p := (both p).foldl (fun p k => p.lose k (lostBits free x p k)) p
    { p with masks := p.masks.filter fun y => !(clash p y.1 && (q.maskOf y.1).isSome && loseOld p y.1) }
  let hitM (k : Nat) : Bool := t.pend.any fun p => clash p k && (p.maskOf k).isSome && !loseOld p k
  let q := t.pend.foldl (fun q p => (both p).foldl (fun q k => q.lose k (~~~lostBits free x p k)) q) q
  { t with pend := olds ++ [{ q with masks := q.masks.filter fun y => !hitM y.1 }] }

/-- An operation's number. -/
def Team.newOp (t : Team) : Team := { t with nextOp := t.nextOp + 1 }

end Sys2Proof.Machine
end

