-- ==== Sys2Proof/Machine/LaneIssue.lean ====
section
/-!
DEFINITION. Machine/LaneIssue.lean: how a fixed-latency lane instruction issues: the entry it takes from the queue, the
STALL of the one before it (R297), the consumption of stream slots (R204, R205), the checking mode (R300), its passes
and the results they leave outstanding (R296).
-/

namespace Sys2Proof.Machine

/-- The queue entry of the word that issues, and the team after it left the queue. A word that is not at the head of the
queue is enqueued and issued at once: its captures are taken now. -/
def Team.takeEntry (t : Team) (w : Nat) : LaneEntry × Team × Bool :=
  match t.laneq with
  | [] => (t.capture w t.pc 0 false, t.countEnqueue w, false)
  | e :: rest =>
    if e.word.toNat = w then (e, { t with laneq := rest }, true)
    else (t.capture w t.pc 0 false, t.countEnqueue w, false)

/-- The trap of a word that was not checked at its enqueue. -/
def State.directFault (s : State) (w : Nat) (queued : Bool) : Option (Nat × Word) :=
  if queued then none else s.enqueueFault s.team w true

/-! ### Stream slots -/

/-- What consuming a slot yields: failing elements in lane order, lane values, poisoned warps, fabric failures. -/
structure Consumed where
  fails  : List Fail := []
  vals   : List (Nat × Nat) := []
  poison : List Nat := []
  /-- lanes whose request cannot reach its home, with the address (R454) -/
  lost   : List (Nat × Word) := []
  waits  : Bool := false
  keys   : List Nat := []
  /-- the bytes of elements that consume poison -/
  bad    : List Nat := []

/-- Elements per lane that a slot supplies for an operand of `bits` bits (R204, R233). -/
def slotElems (bits : Nat) : Nat := if bits = 16 then 2 else if bits = 8 then 4 else 1

/-- One element (R204): absent past COUNT, else loaded at BASE + e × STRIDE. -/
def State.slotElem (s : State) (t : Team) (q : Slot) (bits lane e : Nat) : Consumed :=
  if q.count.toNat ≤ e then { vals := [(0, 2 ^ bits - 1)] }
  else
    let addr := wrapTo (q.base.toNat + (e : Int) * q.stride.toInt) 64
    let c := s.check t (q.kind == 1#1) needR lane addr (bits / 8)
    { fails := c.fails, vals := [(0, s.load t c.keys)],
      poison := if s.loadPoisoned t c.keys then [lane / 32] else [],
      lost := if c.keys.any s.unreachable then [(lane, BitVec.ofNat 64 addr)] else [],
      waits := s.mustWait t c.keys, keys := c.keys,
      bad := if s.loadPoisoned t c.keys then c.keys else [] }

/-- R204's consume, for the active lanes of the passes; a helper lane that joins a quad instruction reads nothing. -/
def State.consume (s : State) (t : Team) (slot bits : Nat) (lanes : List Nat) : Consumed :=
  let q : Slot := Store.get {} t.q slot
  let n := slotElems bits
  (lanes.filter fun l => decide (l < t.live)).foldl (fun acc l =>
    let xs := (List.range n).map fun i => s.slotElem t q bits l ((q.pos.toNat + n * l + i))
    { fails := acc.fails ++ xs.flatMap Consumed.fails
      vals := acc.vals ++ [(2 ^ 16 * slot + l, packElems bits (xs.map fun x => ((x.vals.head?).map Prod.snd).getD 0))]
      poison := acc.poison ++ xs.flatMap Consumed.poison
      lost := acc.lost ++ xs.flatMap Consumed.lost
      waits := acc.waits || xs.any Consumed.waits
      keys := acc.keys ++ xs.flatMap Consumed.keys
      bad := acc.bad ++ xs.flatMap Consumed.bad }) {}

/-- Every slot that the operation names. -/
def State.consumeAll (s : State) (t : Team) (o : LaneOp) (lanes : List Nat) : Consumed :=
  o.slots.foldl (fun acc q =>
    let c := s.consume t q.1 q.2 lanes
    { fails := acc.fails ++ c.fails, vals := acc.vals ++ c.vals, poison := acc.poison ++ c.poison,
      lost := acc.lost ++ c.lost, waits := acc.waits || c.waits, keys := acc.keys ++ c.keys, bad := acc.bad ++ c.bad }) {}

/-- POS after the instruction: it advances by the whole vector (R204). -/
def Team.advanceSlots (t : Team) (o : LaneOp) : Team :=
  o.slots.foldl (fun t q =>
    let x : Slot := Store.get {} t.q q.1
    { t with q := Store.set {} t.q q.1 { x with pos := x.pos + BitVec.ofNat 32 (slotElems q.2 * t.lanes) } }) t

/-! ### Issue -/

/-- What a pass writes: registers and mask bits. -/
structure PassOut where
  regs  : List (Nat × Lane32) := []
  masks : List (Nat × Bool) := []

/-- How one fixed-latency operation computes. -/
structure FixedSpec where
  eval  : Ctx → Pass → PassOut
  quad  : Bool := false
  /-- the lanes read and written in a pass, when they are not the pass's own -/
  rl    : Ctx → BitVec 8 → Pass → List Nat := fun _ _ p => p.lanes
  wl    : Ctx → Pass → List Nat := fun _ p => p.lanes
  /-- DIVFAULT and the like: cause and TRAPVAL -/
  guard : Ctx → List Pass → Option (Nat × Word) := fun _ _ => none
  /-- histogram updates (R85, R86) -/
  bins  : Ctx → List Pass → List Rmw := fun _ _ => []

/-- The outstanding passes of an operation: each is readable a latency after it issues; the last one releases the token, with
the cancel flag of a request that failed (R299, R454). -/
def passPends (c : Ctx) (sp : FixedSpec) (ps : List Pass) (tok : Option Nat) (cancel : Bool) : List Pend :=
  ps.zipIdx.map fun pi =>
    let r := sp.eval c pi.1
    { id := c.t.nextOp + pi.2, kind := .fixed, seq := c.e.seq, pc := c.e.pc, tok := tok,
      ready := pi.1.cyc + c.o.latency, names := c.o.names, regs := r.regs, masks := r.masks, last := pi.2 + 1 == ps.length,
      cancel := cancel }

/-- Queue the outstanding passes. -/
def Team.addPends (t : Team) (free : Nat) (x : Layout) (ps : List (Nat × Pend)) : Team :=
  ps.foldl (fun t q => (t.addPend free x (fun _ => q.1) q.2).newOp) t

/-- A queued entry for each part of an operation's writes. -/
def Team.addWrites (t : Team) (op cycle : Nat) (release : Option Nat) (ws : List (WriteWhat × Option Word))
    (acquire : Bool := false) : Team :=
  { t with sdq := t.sdq ++ ws.zipIdx.map fun x =>
             { id := t.nextOp + x.2, op := op, what := x.1.1, fabric := x.1.2, born := cycle, release := release,
               acquire := acquire }
           nextOp := t.nextOp + ws.length }

/-- Histogram updates, one relaxed atomic add per result (R86, R244). -/
def Team.addBins (t : Team) (cycle : Nat) (ops : List Rmw) : Team :=
  t.addWrites 0 cycle none (ops.map fun o => (.reduction o false, none))

/-- The first pass of the next lane instruction issues no earlier than this (R297). -/
def nextIssue (cycle passes stall : Nat) : Nat := cycle + max passes 1 + stall

/-- A post that would raise the count to 64 holds the instruction (R30, R299). -/
def Team.tokenFull (t : Team) (tok : Option Nat) : Bool :=
  match tok with | none => false | some k => decide (63 ≤ (t.token k).count)

def Team.postOpt (t : Team) (tok : Option Nat) : Team := match tok with | none => t | some k => t.post k

/-- The common start of a lane instruction: it leaves the queue, waits for its turn (R297), when it has a pass and so posts (R35)
for its token, and for the elements of its stream slots, and is checked in the checking mode, which sees the values of the slots. The
answer is its context and passes, or the state in which it is held or has trapped. -/
def State.beginLane (s : State) (i : Instr) (o : LaneOp) (quad : Bool) (rl : Ctx → BitVec 8 → Pass → List Nat)
    (wl : Ctx → Pass → List Nat) : Except State (Ctx × List Pass) :=
  let w := encode i
  let (e, t, queued) := s.team.takeEntry w
  match s.directFault w queued with
  | some (cause, val) => .error (s.trapLane e cause val [])
  | none =>
    let ps := t.passesFrom quad s.free s.cycle o.f.mask.toNat
    let q := s.consumeAll t o (ps.flatMap Pass.lanes)
    if s.cycle < t.laneFree || (t.tokenFull (lanePost w) && !ps.isEmpty) then .error s
    else if q.waits && q.fails.isEmpty then .error (s.sendTouched s.cur q.keys)
    else
      let c : Ctx := { s := s, t := t, e := e, o := o, slots := q.vals }
      match (if e.chk then t.checkTouches (o.touches (t.mayPass s.cycle o.f.mask.toNat) t.nwarp s.cycle e.y e.fmt ps (rl c) (wl c))
        else none) with
      | some (cause, val) => .error (s.trapLane e cause val [])
      | none => .ok (c, ps)

/-- The common end: the team issues its next lane instruction after the last pass and STALL (R297), and the counter of
free values moves on. -/
def State.endLane (s : State) (t : Team) (passes stall : Nat) : State :=
  (s.setTeam { t.issuesUntil (s.cycle + passes) with laneFree := nextIssue s.cycle passes stall }).fresh.countEvent
    t.core t.pstat.tag 3 passes

/-- Issue of one fixed-latency lane instruction. -/
def State.issueFixed (s : State) (i : Instr) (o : LaneOp) (sp : FixedSpec) : State :=
  match s.beginLane i o sp.quad sp.rl sp.wl with
  | .error s' => s'
  | .ok (c, ps) =>
    let q := s.consumeAll c.t o (ps.flatMap Pass.lanes)
    match worst q.fails with
    | some f => s.trapLane c.e f.cause (BitVec.ofNat 64 f.addr) (vecFor f q.fails)
    | none =>
      match (if c.e.chk then sp.guard c ps else none) with
      | some (cause, val) => s.trapLane c.e cause val []
      | none =>
        let gone := q.lost.map Prod.fst
        let live := (ps.filter fun p => !q.poison.contains p.warp).map fun p =>
          { p with lanes := p.lanes.filter fun l => !gone.contains l }
        let tok := if live.isEmpty then none else lanePost (encode i)
        let pends := (passPends c sp live tok (!q.lost.isEmpty)).zip live |>.map fun x => (x.2.cyc, x.1)
        let t := (((c.t.addPends s.free o.layout pends).postOpt tok).advanceSlots o).addBins s.cycle (sp.bins c live)
        let t := { t with async := t.async ++ q.lost.map fun a => (cFabric, a.2) }
        (q.poison.foldl (fun s w => s.killWarp s.cur w) (s.endLane t ps.length o.f.stall.toNat)).checkTags q.bad

/-- Issue of a pair word (R165): both halves in one cycle, both reading before either writes. DESIGN CHOICE (log entry 67,
unsafe): the next instruction issues STALL + 1 cycles after a half's last pass, as R297 counts, where R165 says "the last pass
plus the STALL"; and the checking mode looks at all of X before Y, an order that R300 leaves open between two halves. -/
def State.issuePair (s : State) (i : Instr) (x y : LaneOp) (sx sy : FixedSpec) : State :=
  let w := encode i
  let (e, t, queued) := s.team.takeEntry w
  match s.directFault w queued with
  | some (cause, val) => s.trapLane e cause val []
  | none =>
    if s.cycle < t.laneFree then s
    else
      let px := t.passesFrom false s.free s.cycle x.f.mask.toNat
      let py := t.passesFrom false s.free s.cycle y.f.mask.toNat
      let cx : Ctx := { s := s, t := t, e := e, o := x }
      let cy : Ctx := { s := s, t := t, e := e, o := y, elOff := 0x8000 }
      let chk := if e.chk then
          t.checkTouches (x.touches (t.mayPass s.cycle x.f.mask.toNat) t.nwarp s.cycle e.y e.fmt px (fun _ => Pass.lanes) Pass.lanes
            ++ y.touches (t.mayPass s.cycle y.f.mask.toNat) t.nwarp s.cycle e.y e.fmt py (fun _ => Pass.lanes) Pass.lanes)
        else none
      match chk with
      | some (cause, val) => s.trapLane e cause val []
      | none =>
        let ox := (passPends cx sx px none false).zip px
        let t' := t.addPends s.free x.layout (ox.map fun z => (z.2.cyc, z.1))
        let oy := (passPends { cy with t := t } sy py none false).zip py
        let t' := t'.addPends s.free y.layout (oy.map fun z => (z.2.cyc, { z.1 with id := t'.nextOp + (z.1.id - t.nextOp) }))
        let next := max (nextIssue s.cycle px.length x.f.stall.toNat) (nextIssue s.cycle py.length y.f.stall.toNat)
        let t' := { t'.issuesUntil (s.cycle + max px.length py.length) with laneFree := next }
        (s.setTeam t').fresh.countEvent t.core t.pstat.tag 3 (px.length + py.length)

/-- FIXED_LATENCY_WRITE_BACK: a pass whose latency has run out writes its results; the last one releases the token. An
earlier write of the same element goes first. -/
def Team.writeBack (t : Team) (p : Pend) : Team :=
  { t with v := Store.setAll 0 t.v (p.regs.map fun x => (x.1, p.merged x.1 (Store.get 0 t.v x.1) x.2))
           m := p.masks.foldl (fun m x =>
             let old : Mask := Store.get 0 m (x.1 / 1024)
             let b := BitVec.ofNat 1024 (2 ^ (x.1 % 1024))
             Store.set 0 m (x.1 / 1024) (if x.2 then old ||| b else old &&& ~~~b)) t.m }

/-- No older outstanding operation writes an element of this one, and, for a pass that releases, none of its own. -/
def Team.firstInLine (t : Team) (p : Pend) : Bool :=
  let older := t.pend.takeWhile fun q => q.id != p.id
  !(older.any fun q => (q.regs.any fun x => p.hasReg x.1) || (q.awaits.any p.hasReg) || (q.masks.any fun x => (p.maskOf x.1).isSome)
      || (p.tok.isSome && q.kind == .fixed && q.seq == p.seq && q.tok == p.tok && q.inFrame == p.inFrame))

def Team.finishPass (t : Team) (p : Pend) : Team :=
  let t := (t.writeBack p).dropOp p.id
  if p.last then t.release p p.cancel else t

end Sys2Proof.Machine
end

