-- ==== Sys2Proof/Machine/LaneInt.lean ====
section
/-!
DEFINITION. Machine/LaneInt.lean: lane integer arithmetic, logic, shifts, bit fields, counts, compare-to-mask, select,
vote, shuffle and quad (classes 0x0, 0x1, 0x2 and the fixed part of 0x7; R201 to R217).
-/

namespace Sys2Proof.Machine

/-- The issue of a fixed-latency lane instruction as an outcome. -/
def laneFixed (i : Instr) (o : LaneOp) (sp : FixedSpec) (s : State) : Out := .next (s.issueFixed i o sp)

/-- The third operand. -/
def Ctx.srcC (c : Ctx) (cyc l : Nat) : Nat := c.src c.o.immC c.o.ty cyc l
def Ctx.srcA (c : Ctx) (cyc l : Nat) : Nat := c.src c.o.f.a c.o.ty cyc l

/-- D of every lane of the pass. -/
def Ctx.perLane (c : Ctx) (p : Pass) (g : Nat → Nat) : PassOut :=
  { regs := p.lanes.flatMap fun l => putRegs c.o.f.d.toNat l (g l) c.o.width }

/-- A lane's result, element by element, from its elements of A, B and C (R201); `g` also takes the element number. -/
def Ctx.perElem (c : Ctx) (p : Pass) (g : Nat → Nat → Nat → Nat → Nat → Nat) : PassOut :=
  let bits := tyBits c.o.ty
  c.perLane p fun l =>
    let a := c.srcA p.cyc l
    let b := if c.o.hasB then c.srcB p.cyc l else 0
    let x := if c.o.hasC then c.srcC p.cyc l else 0
    packElems bits ((List.range (tyElems c.o.ty)).map fun i => g l i (elem a i bits) (elem b i bits) (elem x i bits))

/-! ### Class 0x0 -/

/-- An element as an integer of its type. -/
def intVal (ty x : Nat) : Int := if tyIsSigned ty then sext x (tyBits ty) else ((x % 2 ^ tyBits ty : Nat) : Int)

/-- R202: the clamps, or the wrap. -/
def intFit (ty : Nat) (sat ab : Bool) (v : Int) : Nat :=
  let n := tyBits ty
  wrapTo (if sat || ab then clampInt (intLo (tyIsSigned ty) ab n) (intHi (tyIsSigned ty) ab n) v else v) n

/-- ABSENT of an integer type. -/
def intAb (ty : Nat) : Nat := intAbsent (tyIsSigned ty) (tyBits ty)

def LaneOp.sat (o : LaneOp) : Bool := o.f.sat == 1#1
/-- `.ab` of classes 0x0 and 0x2. -/
def LaneOp.ab (o : LaneOp) : Bool := o.f.modF 4 1 == 1

/-- An integer operation on elements: ABSENT in any operand gives ABSENT under `.ab`, and so does no result. -/
def intSpec (g : Nat → Int → Int → Int → Option Int) : FixedSpec where
  eval c p := c.perElem p fun _ _ a b x =>
    let ty := c.o.ty
    let absent := c.o.ab && (a == intAb ty || (c.o.hasB && b == intAb ty) || (c.o.hasC && x == intAb ty))
    if absent then intAb ty
    else match g (tyBits ty) (intVal ty a) (intVal ty b) (intVal ty x) with
      | some v => intFit ty c.o.sat c.o.ab v
      | none => intAb ty

/-- The lowest lane with a zero divisor (R207). -/
def zeroDivisor (c : Ctx) (ps : List Pass) : Option (Nat × Word) :=
  let bits := tyBits c.o.ty
  ps.findSome? fun p => p.lanes.findSome? fun l =>
    if (List.range (tyElems c.o.ty)).any (fun i => elem (c.srcB p.cyc l) i bits == 0) then
      some (cDivfault, BitVec.ofNat 64 l) else none

/-- Division with the defined results of R207: `z` is the result for a zero divisor without `.ab`. -/
def divSpec (q : Int → Int → Int) (z : Nat → Nat → Int → Int) : FixedSpec where
  eval c p := c.perElem p fun _ _ a b _ =>
    let ty := c.o.ty
    let n := tyBits ty
    if c.o.ab && (a == intAb ty || b == intAb ty || b % 2 ^ n == 0) then intAb ty
    else if b % 2 ^ n = 0 then wrapTo (z ty n (intVal ty a)) n
    else intFit ty c.o.sat c.o.ab (q (intVal ty a) (intVal ty b))
  guard := zeroDivisor

def specIadd : FixedSpec := intSpec fun _ a b _ => some (a + b)
def specIsub : FixedSpec := intSpec fun _ a b _ => some (a - b)
def specImul : FixedSpec := intSpec fun _ a b _ => some (a * b)
def specImulhi : FixedSpec := intSpec fun n a b _ => some (a * b / 2 ^ n)
def specImad : FixedSpec := intSpec fun _ a b x => some (a * b + x)
def specIdiv : FixedSpec := divSpec Int.tdiv fun ty n _ => if tyIsSigned ty then -1 else 2 ^ n - 1
def specIrem : FixedSpec := divSpec Int.tmod fun _ _ a => a
def specImin : FixedSpec := intSpec fun _ a b _ => some (min a b)
def specImax : FixedSpec := intSpec fun _ a b _ => some (max a b)
def specIabs : FixedSpec := intSpec fun _ a _ _ => some (a.natAbs : Int)
def specIneg : FixedSpec := intSpec fun _ a _ _ => some (-a)

/-- `mov` copies the bits of A, or the immediate (R206). -/
def specMov : FixedSpec where
  eval c p := c.perLane p fun l => if c.o.hasIb then c.srcB p.cyc l else c.srcA p.cyc l

def execLaneIadd (f : LaneFields) (s : State) : Out := laneFixed (.laneIadd f) ⟨0, 0x00, f⟩ specIadd s
def execLaneIsub (f : LaneFields) (s : State) : Out := laneFixed (.laneIsub f) ⟨0, 0x01, f⟩ specIsub s
def execLaneImul (f : LaneFields) (s : State) : Out := laneFixed (.laneImul f) ⟨0, 0x02, f⟩ specImul s
def execLaneImulhi (f : LaneFields) (s : State) : Out := laneFixed (.laneImulhi f) ⟨0, 0x03, f⟩ specImulhi s
def execLaneImad (f : LaneFields) (s : State) : Out := laneFixed (.laneImad f) ⟨0, 0x04, f⟩ specImad s
def execLaneIdiv (f : LaneFields) (s : State) : Out := laneFixed (.laneIdiv f) ⟨0, 0x05, f⟩ specIdiv s
def execLaneIrem (f : LaneFields) (s : State) : Out := laneFixed (.laneIrem f) ⟨0, 0x06, f⟩ specIrem s
def execLaneImin (f : LaneFields) (s : State) : Out := laneFixed (.laneImin f) ⟨0, 0x07, f⟩ specImin s
def execLaneImax (f : LaneFields) (s : State) : Out := laneFixed (.laneImax f) ⟨0, 0x08, f⟩ specImax s
def execLaneIabs (f : LaneFields) (s : State) : Out := laneFixed (.laneIabs f) ⟨0, 0x09, f⟩ specIabs s
def execLaneIneg (f : LaneFields) (s : State) : Out := laneFixed (.laneIneg f) ⟨0, 0x0A, f⟩ specIneg s
def execLaneMov (f : LaneFields) (s : State) : Out := laneFixed (.laneMov f) ⟨0, 0x0B, f⟩ specMov s

/-! ### Class 0x1 -/

/-- The number whose bit j is `g j`, below `n`. -/
def fromBits (g : Nat → Bool) (n : Nat) : Nat := (List.range n).foldl (fun acc j => acc + bit (g j) j) 0

/-- R208. -/
def lfn3 (ft a b x : Nat) : Nat :=
  fromBits (fun j => ft.testBit ((a.testBit j).toNat + 2 * (b.testBit j).toNat + 4 * (x.testBit j).toNat)) 32

def specLfn3 : FixedSpec where
  eval c p := c.perLane p fun l =>
    lfn3 (c.o.f.immF 8 8) (c.src c.o.f.a 0xB p.cyc l) (c.src c.o.f.b 0xB p.cyc l) (c.src c.o.immC 0xB p.cyc l)

/-- A shift of N-bit elements (R209). -/
def shiftSpec (g : Nat → Nat → Nat → Nat) : FixedSpec where
  eval c p := c.perElem p fun _ _ a b _ => g (tyBits c.o.ty) a b

def shl (n a k : Nat) : Nat := if k < n then a * 2 ^ k % 2 ^ n else 0
def shr (n a k : Nat) : Nat := if k < n then a / 2 ^ k else 0
def sar (n a k : Nat) : Nat := wrapTo (sext a n / 2 ^ (min k n)) n
def rot (n a k : Nat) : Nat := (a * 2 ^ (k % n) + a / 2 ^ (n - k % n)) % 2 ^ n

def specIshl : FixedSpec := shiftSpec shl
def specIshr : FixedSpec := shiftSpec shr
def specIsar : FixedSpec := shiftSpec sar
def specIrot : FixedSpec := shiftSpec rot

/-- The field of a descriptor: its position and its length (R210). -/
def fieldOf (b : Nat) : Nat × Nat :=
  let p := fld b 0 5
  (p, min (p + min (fld b 8 6) 32) 32 - p)

def bfext (signed : Bool) (a b : Nat) : Nat :=
  let (p, n) := fieldOf b
  let x := fld a p n
  if signed && decide (0 < n) then wrapTo (sext x n) 32 else x

def bfins (a b x : Nat) : Nat :=
  let (p, n) := fieldOf b
  x - fld x p n * 2 ^ p + a % 2 ^ n * 2 ^ p

def specBfext : FixedSpec where
  eval c p := c.perElem p fun _ _ a b _ => bfext (tyIsSigned c.o.ty) a b
def specBfins : FixedSpec where
  eval c p := c.perElem p fun _ _ a b x => bfins a b x

/-- A function of 32 bits without a type. -/
def bitsSpec (g : Nat → Nat) : FixedSpec where
  eval c p := c.perLane p fun l => g (c.src c.o.f.a 0xB p.cyc l)

def bfrev (a : Nat) : Nat := fromBits (fun j => a.testBit (31 - j)) 32
def popc (a : Nat) : Nat := ((List.range 32).filter a.testBit).length
def clz (a : Nat) : Nat := if a % 2 ^ 32 = 0 then 32 else 31 - (a % 2 ^ 32).log2
def ctz (a : Nat) : Nat := ((List.range 32).find? a.testBit).getD 32

def execLaneLfn3 (f : LaneFields) (s : State) : Out := laneFixed (.laneLfn3 f) ⟨1, 0x00, f⟩ specLfn3 s
def execLaneIshl (f : LaneFields) (s : State) : Out := laneFixed (.laneIshl f) ⟨1, 0x01, f⟩ specIshl s
def execLaneIshr (f : LaneFields) (s : State) : Out := laneFixed (.laneIshr f) ⟨1, 0x02, f⟩ specIshr s
def execLaneIsar (f : LaneFields) (s : State) : Out := laneFixed (.laneIsar f) ⟨1, 0x03, f⟩ specIsar s
def execLaneIrot (f : LaneFields) (s : State) : Out := laneFixed (.laneIrot f) ⟨1, 0x04, f⟩ specIrot s
def execLaneBfext (f : LaneFields) (s : State) : Out := laneFixed (.laneBfext f) ⟨1, 0x05, f⟩ specBfext s
def execLaneBfins (f : LaneFields) (s : State) : Out := laneFixed (.laneBfins f) ⟨1, 0x06, f⟩ specBfins s
def execLaneBfrev (f : LaneFields) (s : State) : Out := laneFixed (.laneBfrev f) ⟨1, 0x07, f⟩ (bitsSpec bfrev) s
def execLanePopc (f : LaneFields) (s : State) : Out := laneFixed (.lanePopc f) ⟨1, 0x08, f⟩ (bitsSpec popc) s
def execLaneClz (f : LaneFields) (s : State) : Out := laneFixed (.laneClz f) ⟨1, 0x09, f⟩ (bitsSpec clz) s
def execLaneCtz (f : LaneFields) (s : State) : Out := laneFixed (.laneCtz f) ⟨1, 0x0A, f⟩ (bitsSpec ctz) s

/-! ### Class 0x2 -/

/-- A compare: element i of the type writes mask D + i for the lanes of the pass (R212). -/
def cmpSpec (g : Ctx → Nat → Nat → Bool) : FixedSpec where
  eval c p :=
    let bits := tyBits c.o.ty
    { masks := p.lanes.flatMap fun l =>
        let a := c.srcA p.cyc l
        let b := c.srcB p.cyc l
        (List.range (tyElems c.o.ty)).map fun i =>
          (vKey (c.o.f.d.toNat + i) l, g c (elem a i bits) (elem b i bits)) }

/-- The relations 0 to 5 of R211 from "below" and "equal". -/
def relOf (rel : Nat) (lt eq : Bool) : Bool :=
  if rel = 0 then eq else if rel = 1 then !eq else if rel = 2 then lt else if rel = 3 then lt || eq
  else if rel = 4 then !lt && !eq else !lt

def specIcmp : FixedSpec := cmpSpec fun c a b =>
  let ty := c.o.ty
  if c.o.ab && (a == intAb ty || b == intAb ty) then false
  else relOf (c.o.f.modF 0 3) (decide (intVal ty a < intVal ty b)) (intVal ty a == intVal ty b)

/-- `fcmp` on two values (R211, R77). -/
def fcmpRel (rel : Nat) (x y : FVal) : Bool :=
  if x == .absent || y == .absent then false
  else if x == .nan || y == .nan then decide (rel = 1) || decide (rel = 6)
  else if rel = 6 then false
  else relOf rel (FVal.lt x y) (!FVal.lt x y && !FVal.lt y x)

def specFcmp : FixedSpec := cmpSpec fun c a b =>
  let m := fmtOf c.o.ty c.e.fmt
  fcmpRel (c.o.f.modF 0 3) (m.decode a) (m.decode b)

/-- `sel` chooses per lane by the selector mask (R213). -/
def specSel : FixedSpec where
  eval c p := c.perLane p fun l =>
    if c.t.maskBit c.s.free p.cyc (c.o.f.modF 0 4) l then c.srcA p.cyc l else c.srcB p.cyc l

/-- `vote` writes the whole word of each warp with a pass (R214). -/
def specVote : FixedSpec where
  eval c p :=
    let votes := p.lanes.map fun l => (l, c.src c.o.f.a 0xB p.cyc l != 0)
    let anyT := votes.any Prod.snd
    let allT := votes.all Prod.snd
    let mode := c.o.f.modF 0 2
    { masks := (warpLanes p.warp).map fun l =>
        (vKey c.o.f.d.toNat l,
          match votes.find? fun v => v.1 == l with
          | none => false
          | some v => if mode = 0 then v.2 else if mode = 1 then anyT else if mode = 2 then allT else allT || !anyT) }
  wl _ p := warpLanes p.warp

def execLaneIcmp (f : LaneFields) (s : State) : Out := laneFixed (.laneIcmp f) ⟨2, 0x00, f⟩ specIcmp s
def execLaneFcmp (f : LaneFields) (s : State) : Out := laneFixed (.laneFcmp f) ⟨2, 0x01, f⟩ specFcmp s
def execLaneSel (f : LaneFields) (s : State) : Out := laneFixed (.laneSel f) ⟨2, 0x02, f⟩ specSel s
def execLaneVote (f : LaneFields) (s : State) : Out := laneFixed (.laneVote f) ⟨2, 0x03, f⟩ specVote s

/-! ### Class 0x7: shuffles and quads -/

/-- The source lane of R215. -/
def shflSource (mode s l k : Nat) : Nat :=
  let j := l % s
  let base := l - j
  if mode = 0 ∨ mode = 4 then base + k % s
  else if mode = 1 then (if k ≤ j then l - k else l)
  else if mode = 2 then (if j + k < s then l + k else l)
  else base + (j ^^^ (k % s))

/-- The lane from which lane `l` reads. DESIGN CHOICE (log entry 78, unsafe): R215 does not say how wide k is in `shfl.n64`; the
model reads one 32-bit register, which may be odd, or the low 32 bits of a capture. -/
def Ctx.shflLane (c : Ctx) (cyc l : Nat) : Nat :=
  let k := if c.o.f.modF 5 1 = 1 then c.o.f.immF 0 5 else c.src c.o.f.b 0xB cyc l
  shflSource (c.o.f.modF 0 3) (32 / 2 ^ c.o.f.modF 3 2) l k

def specShfl : FixedSpec where
  eval c p := c.perLane p fun l => c.srcA p.cyc (c.shflLane p.cyc l)
  rl c code p :=
    (if code = c.o.f.a then p.lanes.map (c.shflLane p.cyc) else [])
      ++ (if code = c.o.f.b ∧ c.o.f.modF 5 1 = 0 then p.lanes else [])

/-- The source lane of R217. -/
def quadSource (mode imm l : Nat) : Nat :=
  let q := 4 * (l / 4)
  let j := l % 4
  if mode = 0 then q + (j ^^^ 1) else if mode = 1 then q + (j ^^^ 2) else if mode = 2 then q + (j ^^^ 3)
  else if mode = 3 then q + imm % 4 else q + (j + 1) % 4

def Ctx.quadLane (c : Ctx) (l : Nat) : Nat := quadSource (c.o.f.modF 0 3) c.o.f.imm.toNat l

def specQuad : FixedSpec where
  quad := true
  eval c p := c.perLane p fun l => c.srcA p.cyc (c.quadLane l)
  rl c _ p := p.lanes.map c.quadLane

def execLaneShfl (f : LaneFields) (s : State) : Out := laneFixed (.laneShfl f) ⟨7, 0x00, f⟩ specShfl s
def execLaneQuad (f : LaneFields) (s : State) : Out := laneFixed (.laneQuad f) ⟨7, 0x01, f⟩ specQuad s

end Sys2Proof.Machine
end

