-- ==== Sys2Proof/Machine/LaneFp.lean ====
section
/-!
DEFINITION. Machine/LaneFp.lean: lane floating point (class 0x3, R224 to R227) and the special functions (class 0x4, R228
to R231).
-/

namespace Sys2Proof.Machine

/-- The element format of an instruction's type. -/
def Ctx.fmt (c : Ctx) : FFmt := fmtOf c.o.ty c.e.fmt

/-- A floating operation on elements, rounded once (R225): `g` gives the exact result of the decoded operands. -/
def fpSpec (g : Rnd → FVal → FVal → FVal → FVal) : FixedSpec where
  eval c p := c.perElem p fun l i a b x =>
    let f := c.fmt
    let rnd := c.rnd l i
    (f.ofVal rnd c.o.sat (g rnd (f.decode a) (f.decode b) (f.decode x))).code

def specFadd : FixedSpec := fpSpec fun rnd a b _ => FVal.add rnd a b
def specFsub : FixedSpec := fpSpec fun rnd a b _ => FVal.add rnd a b.neg
def specFmul : FixedSpec := fpSpec fun _ a b _ => FVal.mul a b
def specFfma : FixedSpec := fpSpec FVal.fma

/-- `fmin` and `fmax` of two codes (R226). -/
def FFmt.pick (f : FFmt) (isMax : Bool) (a b : Nat) : Nat :=
  if f.decode a = .absent ∨ f.decode b = .absent then f.absent else f.minMax isMax a b

def minMaxSpec (isMax : Bool) : FixedSpec where
  eval c p := c.perElem p fun _ _ a b _ => c.fmt.pick isMax a b

/-- `fabs` and `fneg` change the sign bit alone (R226). -/
def FFmt.signOp (f : FFmt) (negate : Bool) (a : Nat) : Nat :=
  let half := 2 ^ (f.width - 1)
  match f.decode a with
  | .absent => f.absent
  | .nan => f.nan
  | _ => if negate then (if half ≤ a then a - half else a + half) else a % half

def signSpec (negate : Bool) : FixedSpec where
  eval c p := c.perElem p fun _ _ a _ _ => c.fmt.signOp negate a

/-- The class codes of R227. -/
def FFmt.classOf (f : FFmt) (a : Nat) : Nat :=
  match f.decode a with
  | .absent => 9
  | .nan => 8
  | .inf neg => if neg then 0 else 7
  | .num neg m _ =>
    if m = 0 then (if neg then 3 else 4)
    else if m < 2 ^ f.trail then (if neg then 2 else 5)
    else if neg then 1 else 6

def specFclass : FixedSpec where
  eval c p := c.perElem p fun _ _ a _ _ => c.fmt.classOf a

def execLaneFadd (f : LaneFields) (s : State) : Out := laneFixed (.laneFadd f) ⟨3, 0x00, f⟩ specFadd s
def execLaneFsub (f : LaneFields) (s : State) : Out := laneFixed (.laneFsub f) ⟨3, 0x01, f⟩ specFsub s
def execLaneFmul (f : LaneFields) (s : State) : Out := laneFixed (.laneFmul f) ⟨3, 0x02, f⟩ specFmul s
def execLaneFfma (f : LaneFields) (s : State) : Out := laneFixed (.laneFfma f) ⟨3, 0x03, f⟩ specFfma s
def execLaneFmin (f : LaneFields) (s : State) : Out := laneFixed (.laneFmin f) ⟨3, 0x04, f⟩ (minMaxSpec false) s
def execLaneFmax (f : LaneFields) (s : State) : Out := laneFixed (.laneFmax f) ⟨3, 0x05, f⟩ (minMaxSpec true) s
def execLaneFabs (f : LaneFields) (s : State) : Out := laneFixed (.laneFabs f) ⟨3, 0x06, f⟩ (signSpec false) s
def execLaneFneg (f : LaneFields) (s : State) : Out := laneFixed (.laneFneg f) ⟨3, 0x07, f⟩ (signSpec true) s
def execLaneFclass (f : LaneFields) (s : State) : Out := laneFixed (.laneFclass f) ⟨3, 0x08, f⟩ specFclass s

/-! ### Class 0x4 -/

/-- A positive number m · 2^e as a fraction. -/
def fracOf (m : Nat) (e : Int) : Nat × Nat := scalePair m 1 e

/-- `frcp` (0), `frsq` (1) and `fsqrt` (2) of a code (R228, R229). -/
def FFmt.rootFn (f : FFmt) (fn : Nat) (rnd : Rnd) (sat : Bool) (a : Nat) : Nat :=
  match f.decode a with
  | .absent => f.absent
  | .nan => f.nan
  | .inf neg =>
    if fn = 0 then f.encodeMag neg 0
    else if neg then f.nan
    else if fn = 1 then 0 else (f.overflow false false).code
  | .num neg m e =>
    let (n, d) := fracOf m e
    if m = 0 then (if fn = 2 then f.encodeMag neg 0 else (f.overflow sat neg).code)
    else if fn = 0 then (f.roundMag rnd sat neg ⟨d, n, false⟩).code
    else if neg then f.nan
    else (f.roundMag rnd sat false (if fn = 1 then ⟨d, n, true⟩ else ⟨n, d, true⟩)).code

def rootSpec (fn : Nat) : FixedSpec where
  eval c p := c.perElem p fun l i a _ _ => c.fmt.rootFn fn (c.rnd l i) c.o.sat a

def approxSpec (fn : Nat) : FixedSpec where
  eval c p := c.perElem p fun _ _ a _ _ => approxFn c.fmt fn c.o.ty c.o.sat a

def execLaneFrcp (f : LaneFields) (s : State) : Out := laneFixed (.laneFrcp f) ⟨4, 0x00, f⟩ (rootSpec 0) s
def execLaneFrsq (f : LaneFields) (s : State) : Out := laneFixed (.laneFrsq f) ⟨4, 0x01, f⟩ (rootSpec 1) s
def execLaneFsqrt (f : LaneFields) (s : State) : Out := laneFixed (.laneFsqrt f) ⟨4, 0x02, f⟩ (rootSpec 2) s
def execLaneFexp2 (f : LaneFields) (s : State) : Out := laneFixed (.laneFexp2 f) ⟨4, 0x03, f⟩ (approxSpec 3) s
def execLaneFlog2 (f : LaneFields) (s : State) : Out := laneFixed (.laneFlog2 f) ⟨4, 0x04, f⟩ (approxSpec 4) s
def execLaneFsin (f : LaneFields) (s : State) : Out := laneFixed (.laneFsin f) ⟨4, 0x05, f⟩ (approxSpec 5) s
def execLaneFcos (f : LaneFields) (s : State) : Out := laneFixed (.laneFcos f) ⟨4, 0x06, f⟩ (approxSpec 6) s
def execLaneFtanh (f : LaneFields) (s : State) : Out := laneFixed (.laneFtanh f) ⟨4, 0x07, f⟩ (approxSpec 7) s

end Sys2Proof.Machine
end

