-- ==== Sys2Proof/Machine/LaneConv.lean ====
section
/-!
DEFINITION. Machine/LaneConv.lean: conversions (class 0x5, R232 to R236), blocks in registers, the absent code and
histograms (class 0x6, R237 to R244).
-/

namespace Sys2Proof.Machine

/-! ### Conversions -/

/-- A code as a value of a type; under `.ab` an integer type has its ABSENT code (R234). -/
def valueOf (ty : Nat) (ab : Bool) (fmt : Word) (x : Nat) : FVal :=
  if tyIsInt ty then (if ab && x == intAb ty then .absent else FVal.ofInt (intVal ty x)) else (fmtOf ty fmt).decode x

/-- Whether `round` clamps a value to an integer range. -/
def clamps (rnd : Rnd) (lo hi : Int) (v : FVal) : Bool :=
  match v with
  | .inf _ => true
  | .num neg m e =>
    let n := if m = 0 then 0 else nearestInt rnd neg (Mag.dyadic m e)
    decide (n < lo) || decide (hi < n)
  | _ => false

/-- One element of `cvt`: its code, and its bin when it has one (R234, R85). -/
def cvtElem (dt st : Nat) (ab sat : Bool) (rnd : Rnd) (fmt : Word) (x : Nat) : Nat × Option Nat :=
  let v := valueOf st ab fmt x
  let n := tyBits dt
  if !tyIsInt dt then
    let f := fmtOf dt fmt
    let r := f.ofVal rnd sat v
    (r.code, f.bin r)
  else
    match v with
    | .absent => if ab then (intAb dt, none) else (0, some 0)
    | .nan => (0, some 0)
    | v =>
      let lo := intLo (tyIsSigned dt) ab n
      let hi := intHi (tyIsSigned dt) ab n
      let y : Int :=
        if tyIsInt st && !sat && !ab then intVal dt (wrapTo (intVal st x) n) else v.toInt rnd lo hi
      (wrapTo y n, some (intBin ((sat || ab) && clamps rnd lo hi v) y))

/-- The elements of one lane of a `cvt`. -/
def Ctx.cvtLane (c : Ctx) (cyc l : Nat) : List (Nat × Option Nat) :=
  let dt := c.o.ty
  let st := c.o.srcTy
  let e := c.o.cvtElems
  let x := if isReg c.o.f.a then c.regs (tyBits st) cyc c.o.f.a.toNat l (LaneFields.spanRegs e st) else c.src c.o.f.a st cyc l
  (List.range e).map fun i =>
    cvtElem dt st (c.o.f.modF 4 1 == 1) c.o.sat (c.rnd l i) c.e.fmt (elem x i (tyBits st))

/-- A bin's update: an add of 1 that holds at 0xFFFFFFFF (R86); an S-address that the device rejects bins nothing. -/
def Ctx.binAt (c : Ctx) (slot b : Nat) : List Rmw :=
  match sFlat c.t.core (c.e.hist.toNat + 256 * slot + 4 * b) with
  | some f => [{ mode := { op := .bin }, key := scratchBase + f, size := 4, val := 1 }]
  | none => []

/-- Bins under the HI modifier (R85, R244). -/
def Ctx.hiBins (c : Ctx) (bs : List (Option Nat)) : List Rmw :=
  if c.o.f.modF 5 1 = 1 ∧ c.e.fmt.getLsbD 11 then
    (bs.filterMap id).flatMap fun b => c.binAt (fld c.e.fmt.toNat 12 2) b
  else []

def specCvt : FixedSpec where
  eval c p :=
    let n := LaneFields.spanRegs c.o.cvtElems c.o.ty
    { regs := p.lanes.flatMap fun l =>
        putRegs c.o.f.d.toNat l (packElems (tyBits c.o.ty) ((c.cvtLane p.cyc l).map Prod.fst)) n }
  bins c ps := c.hiBins (ps.flatMap fun p => p.lanes.flatMap fun l => (c.cvtLane p.cyc l).map Prod.snd)

/-- `frnd` (R236). -/
def FFmt.integral (f : FFmt) (rnd : Rnd) (a : Nat) : Nat :=
  match f.decode a with
  | .absent => f.absent
  | .nan => f.nan
  | .inf _ => a
  | .num neg m e =>
    if m = 0 then a
    else (f.roundNum .rtz false neg (nearestInt rnd neg (Mag.dyadic m e)).natAbs 0).code

def specFrnd : FixedSpec where
  eval c p := c.perElem p fun l i a _ _ => c.fmt.integral (c.rnd l i) a

def execLaneCvt (f : LaneFields) (s : State) : Out := laneFixed (.laneCvt f) ⟨5, 0x00, f⟩ specCvt s
def execLaneFrnd (f : LaneFields) (s : State) : Out := laneFixed (.laneFrnd f) ⟨5, 0x01, f⟩ specFrnd s

/-! ### Block records (R61, R62, R237) -/

/-- Bits of an element of a block. -/
def blkBits (t : Nat) : Nat := if t = 0xD then 4 else if t = 0xE then 6 else 8
/-- Element i of a record. -/
def recElem (t r i : Nat) : Nat := fld r (8 + blkBits t * i) (blkBits t)
/-- A record from its scale byte and its codes. -/
def mkRec (t scale : Nat) (codes : List Nat) : Nat := scale + 256 * packElems (blkBits t) codes

/-- Element i of a record as a value before scaling (R62). -/
def recVal (f : FFmt) (t r i : Nat) : FVal :=
  if r % 256 = 0xFE then .absent else if r % 256 = 0xFF then .nan else f.decode (recElem t r i)

/-- The bin of an element after scaling (R85): c is the scale byte. -/
def FFmt.binScaled (f : FFmt) (c : Nat) (r : Rounded) : Option Nat :=
  if c = 0xFE then none
  else if c = 0xFF then some 63
  else if r.ovf then some 62
  else match f.decode r.code with
    | .absent => none
    | .nan => some 63
    | .inf _ => some 62
    | .num _ m e =>
      if m < 2 ^ f.trail || m == 0 then some 0
      else some (31 + min (max ((m.log2 : Int) + e + c - 127) (-30)) 30).toNat

/-- The lanes of a warp's image. -/
def imageLanes (t w : Nat) : List Nat := (List.range (LaneOp.imgLanes t)).map (32 * w + ·)

/-- The record that register `r` holds in a warp. -/
def Ctx.image (c : Ctx) (t r w cyc : Nat) : Nat :=
  ((imageLanes t w).zipIdx.foldl (fun acc x => acc + (c.t.vreg c.s.free 8 cyc r r x.1).toNat * 2 ^ (32 * x.2)) 0)
    % 2 ^ (8 * LaneOp.recSize t)

/-- Write a record as the image of a warp in D. -/
def Ctx.putImage (c : Ctx) (t w r : Nat) : PassOut :=
  { regs := (imageLanes t w).zipIdx.map fun x => (vKey c.o.f.d.toNat x.1, BitVec.ofNat 32 (r / 2 ^ (32 * x.2))) }

/-- The block type of TYPE, or of MOD[3:0], under the captured FMT (R66). -/
def Ctx.blk (c : Ctx) : Nat := LaneOp.blockTy c.o.ty c.e.fmt
def Ctx.srcBlk (c : Ctx) : Nat := LaneOp.blockTy (c.o.f.modF 0 4) c.e.fmt

/-- floor(log2) of a format's largest finite value (R238). -/
def FFmt.emax (f : FFmt) : Int := ((f.magOf f.maxCode).1.log2 : Int) + (f.magOf f.maxCode).2

/-- floor(log2 |x|) of a finite non-zero value. -/
def FVal.lead : FVal → Option Int
  | .num _ m e => if m = 0 then none else some ((m.log2 : Int) + e)
  | _ => none

/-- The scale byte that `bpack` computes (R238). -/
def packScale (emax : Int) (xs : List FVal) : Nat :=
  if xs.all (· == .absent) then 0xFE
  else match (xs.filterMap FVal.lead).max? with
    | none => 127
    | some k => (clampInt 0 0xFD (k - emax + 127)).toNat

/-- `bpack` of a warp: the scale byte and the rounded codes. -/
def Ctx.packWarp (c : Ctx) (p : Pass) : Nat × List Rounded :=
  let st := c.o.f.modF 0 4
  let ef := blockFmt c.blk c.e.fmt
  let sf := fmtOf st c.e.fmt
  let xs := (warpLanes p.warp).map fun l =>
    if p.lanes.contains l then sf.decode (elem (c.src c.o.f.a st p.cyc l) 0 (tyBits st)) else .absent
  let sx := c.o.f.modF 4 1 == 1
  let scale := if sx then c.o.f.immF 0 8 else packScale ef.emax xs
  (scale, xs.zipIdx.map fun x =>
    if 0xFE ≤ scale then ⟨0, false⟩
    else ef.ofVal (c.rnd (32 * p.warp + x.2) 0) (!sx || c.o.sat) (x.1.scaleBy (127 - scale)))

def specBpack : FixedSpec where
  eval c p :=
    let r := c.packWarp p
    c.putImage c.blk p.warp (mkRec c.blk r.1 (r.2.map Rounded.code))
  wl c p := imageLanes c.blk p.warp
  bins c ps := c.hiBins (ps.flatMap fun p =>
    let r := c.packWarp p
    r.2.map ((blockFmt c.blk c.e.fmt).binScaled r.1))

def specBunpack : FixedSpec where
  eval c p :=
    let t := c.srcBlk
    let r := c.image t c.o.f.a.toNat p.warp p.cyc
    let f := c.fmt
    { regs := p.lanes.map fun l =>
        let v := recVal (blockFmt t c.e.fmt) t r (l % 32)
        (vKey c.o.f.d.toNat l, BitVec.ofNat 32 (f.ofVal (c.rnd l 0) c.o.sat (v.scaleBy ((r % 256 : Nat) - 127))).code) }
  rl c _ p := imageLanes c.srcBlk p.warp

/-- `bscale` of a warp (R240): the scale byte and the codes. -/
def Ctx.scaleWarp (c : Ctx) (p : Pass) : Nat × List Rounded :=
  let t := c.blk
  let ef := blockFmt t c.e.fmt
  let r := c.image t c.o.f.a.toNat p.warp p.cyc
  let old := r % 256
  let goal : Int := (old : Int) + sext c.o.f.imm.toNat 32
  let codes := (List.range 32).map (recElem t r)
  if 0xFE ≤ old then (old, codes.map fun x => ⟨x, false⟩)
  else if 0 ≤ goal ∧ goal ≤ 0xFD then (goal.toNat, codes.map fun x => ⟨x, false⟩)
  else
    let new := clampInt 0 0xFD goal
    (new.toNat, codes.zipIdx.map fun x =>
      match ef.decode x.1 with
      | .num neg m e => ef.roundNum (c.rnd (32 * p.warp + x.2) 0) c.o.sat neg m (e + (goal - new))
      | _ => ⟨x.1, false⟩)

def specBscale : FixedSpec where
  eval c p :=
    let r := c.scaleWarp p
    c.putImage c.blk p.warp (mkRec c.blk r.1 (r.2.map Rounded.code))
  rl c _ p := imageLanes c.blk p.warp
  wl c p := imageLanes c.blk p.warp
  bins c ps := c.hiBins (ps.flatMap fun p =>
    let r := c.scaleWarp p
    r.2.map ((blockFmt c.blk c.e.fmt).binScaled r.1))

/-- An element is its type's ABSENT code. -/
def Ctx.isAbsent (c : Ctx) (x : Nat) : Bool :=
  if tyIsInt c.o.ty then x == intAb c.o.ty else x == c.fmt.absent

def specFpres : FixedSpec where
  eval c p :=
    { masks := p.lanes.flatMap fun l =>
        (List.range (tyElems c.o.ty)).map fun i =>
          (vKey (c.o.f.d.toNat + i) l, !(c.isAbsent (elem (c.srcA p.cyc l) i (tyBits c.o.ty)))) }

def specFdflt : FixedSpec where
  eval c p := c.perElem p fun _ _ a b _ => if c.isAbsent a then b else a

def specHist : FixedSpec where
  eval _ _ := {}
  rl c _ p := if tyIsBlock c.o.ty then imageLanes c.o.ty p.warp else p.lanes
  bins c ps :=
    let bs := ps.flatMap fun p =>
      if tyIsBlock c.o.ty then
        let r := c.image c.o.ty c.o.f.a.toNat p.warp p.cyc
        (List.range 32).map fun i => (blockFmt c.o.ty c.e.fmt).binScaled (r % 256) ⟨recElem c.o.ty r i, false⟩
      else
        p.lanes.flatMap fun l =>
          (List.range (tyElems c.o.ty)).map fun i => c.fmt.bin ⟨elem (c.srcA p.cyc l) i (tyBits c.o.ty), false⟩
    (bs.filterMap id).flatMap fun b => c.binAt (c.o.f.modF 0 2) b

def execLaneBpack (f : LaneFields) (s : State) : Out := laneFixed (.laneBpack f) ⟨6, 0x00, f⟩ specBpack s
def execLaneBunpack (f : LaneFields) (s : State) : Out := laneFixed (.laneBunpack f) ⟨6, 0x01, f⟩ specBunpack s
def execLaneBscale (f : LaneFields) (s : State) : Out := laneFixed (.laneBscale f) ⟨6, 0x02, f⟩ specBscale s
def execLaneFpres (f : LaneFields) (s : State) : Out := laneFixed (.laneFpres f) ⟨6, 0x03, f⟩ specFpres s
def execLaneFdflt (f : LaneFields) (s : State) : Out := laneFixed (.laneFdflt f) ⟨6, 0x04, f⟩ specFdflt s
def execLaneHist (f : LaneFields) (s : State) : Out := laneFixed (.laneHist f) ⟨6, 0x05, f⟩ specHist s

/-! ### Pair words (R162 to R165) -/

/-- The meaning of the operation that a half stands for. -/
def halfSpec (o : LaneOp) : FixedSpec :=
  if o.cls = 0 then
    (if o.op = 0 then specIadd else if o.op = 1 then specIsub else if o.op = 2 then specImul
     else if o.op = 4 then specImad else if o.op = 7 then specImin else if o.op = 8 then specImax else specMov)
  else if o.cls = 1 then
    (if o.op = 0 then specLfn3 else if o.op = 1 then specIshl else if o.op = 2 then specIshr else specIsar)
  else
    (if o.op = 0 then specFadd else if o.op = 1 then specFsub else if o.op = 2 then specFmul
     else if o.op = 3 then specFfma else if o.op = 4 then minMaxSpec false else minMaxSpec true)

def execPairWord (x y : PairHalf) (s : State) : Out :=
  let ox := LaneOp.ofHalf x
  let oy := LaneOp.ofHalf y
  .next (s.issuePair (.pairWord x y) ox oy (halfSpec ox) (halfSpec oy))

end Sys2Proof.Machine
end

