-- ==== Sys2Proof/Machine/Break.lean ====
section
/-!
DEFINITION. Machine/Break.lean: breakpoints (R424).
-/

namespace Sys2Proof.Machine

/-- The lowest breakpoint that matches a team at a point: at its next scalar instruction, or at the index that an `lrun` is
about to enqueue, with its number. -/
def State.breakAt (s : State) (t : Team) (lane : Option Nat) : Option (Nat × Breakpoint) :=
  let d := s.dbg t.core
  if !s.sees d.dbg.owner t.pstat.tag then none
  else d.bps.find? fun b =>
    let c := b.2.ctl.toNat
    c.testBit 63 && fld c 32 16 == t.pstat.tag.toNat && b.2.pc == t.pc
      && (match lane with
          | none => !c.testBit 62 && !s.isExt t (t.pc - 4#64).toNat
          | some i => c.testBit 62 && fld c 0 11 == i)
      && (!c.testBit 61 || b.2.seq == t.seqctr)

/-- `brk` halts its team: the hypervisor has claimed breakpoints and set BRKH (R425). -/
def State.brkHalts (s : State) (t : Team) : Bool := (s.dbg t.core).dbg.owner == 0xFE && (s.dbg t.core).brkh

/-- A match acts: it halts the team before the point, or writes a trace record once; the answer says that it halts. -/
def State.breakpoint (s : State) (lane : Option Nat) : State × Bool :=
  let t := s.team
  if t.bpSkip = some (t.pc, lane) then (s, false)
  else match s.breakAt t lane with
    | none => (s, false)
    | some (n, b) =>
      if b.ctl.getLsbD 60 then (s.upd fun t => { t with bpHalt := true }, true)
      else
        let lidx : BitVec 32 := match lane with | some i => BitVec.ofNat 32 i | none => 0xFFFFFFFF#32
        ((s.traceTeam 2 t.pc t.seqctr.toNat lidx (BitVec.ofNat 64 n)).upd fun t => { t with bpSkip := some (t.pc, lane) }, false)

end Sys2Proof.Machine
end

