-- ==== Sys2Proof/Machine/Control.lean ====
section
/-!
DEFINITION. Machine/Control.lean: control transfers (R172), the prefix (R142, R145, R146), the dispatch of lane blocks
(R37, R160, R182), waits and token reads (R183, R184), traps and returns (R196 to R198).
A held instruction (R185) is a step that changes nothing.
-/

namespace Sys2Proof.Machine

/-! ### Transfers -/

/-- Continue at a target; the step that fetches it tests it for a prefix (R146). -/
def Team.jump (t : Team) (target : Word) : Team := { t with came := some t.pc, pc := target }

/-- 4 × sext of a displacement in words (R143). -/
def disp {n : Nat} (d : BitVec n) : Word := d.signExtend 64 <<< 2

def execBrCc (c : BitVec 4) (d : BitVec 22) (s : State) : Out :=
  .next (s.upd fun t => if condHolds c t.pstat then t.jump (t.pc + disp d) else t.advance)

def execCall (d : BitVec 22) (s : State) : Out :=
  .next (s.upd fun t => (t.setReg 1#6 (t.pc + 4#64)).jump (t.pc + disp d))

/-- A transfer to a register's value; a target that is not a multiple of 4 traps ALIGN before anything is written. -/
def State.jumpTo (s : State) (target : Word) (f : Team → Team) : State :=
  if target.toNat % 4 ≠ 0 then s.trap cAlign target else s.upd fun t => (f t).jump target

def execJr (a : BitVec 6) (s : State) : Out := .next (s.jumpTo (s.team.reg a) id)
def execCallr (a : BitVec 6) (s : State) : Out :=
  .next (s.jumpTo (s.team.reg a) fun t => t.setReg 1#6 (t.pc + 4#64))
def execRet (s : State) : Out := .next (s.jumpTo (s.team.reg 1#6) id)

def execDbnz (d : BitVec 6) (i : BitVec 14) (s : State) : Out :=
  .next (s.upd fun t =>
    let x := t.reg d - 1#64
    let u := t.setReg d x
    if x = 0#64 then u.advance else u.jump (t.pc + disp i))

/-! ### The prefix -/

/-- TRAPVAL of a fault on one access by a scalar instruction: the lowest missing byte for TB_MISS, else the address of
the access (R175). -/
def Fail.scalarVal (f : Fail) : Word := BitVec.ofNat 64 (if f.cause = cTbMiss then f.byteAddr else f.addr)

/-- Poison reached a scalar access or a fetch: the team stops and escalates with code 0x81 (R440). -/
def State.poisonStop (s : State) (keys : List Nat) (addr : Nat) : State :=
  let s := s.checkTags keys
  s.escalate 0x81 (s.team.scalarPoint 0x81 (BitVec.ofNat 64 addr))

/-- The prefixed instruction with its 40-bit immediate, over eight bytes of code. -/
def State.prefixed (s : State) (hi : BitVec 26) : Instr → State
  | .iaddi d a i => s.addImm d a (imm40 hi i) 8
  | .imuli d a i => s.immOp (· * ·) d a (imm40 hi i) 8
  | .andi d a i => s.immOp (· &&& ·) d a (imm40 hi i) 8
  | .ori d a i => s.immOp (· ||| ·) d a (imm40 hi i) 8
  | .xori d a i => s.immOp (· ^^^ ·) d a (imm40 hi i) 8
  | .cmpi a i => s.cmpImm a (imm40 hi i) 8
  | i => s.illegal (encode i)

/-- `ext` with the instruction after it, as one instruction. -/
def execExt (i : BitVec 26) (s : State) : Out :=
  .next <|
    let va := (s.team.pc + 4#64).toNat
    match s.fetchAt s.team va 4 with
    | .fault f vec => s.trapVec f.cause (BitVec.ofNat 64 va) vec
    | .waits keys => s.sendTouched s.cur keys
    | .lost => s.trap cFabric (BitVec.ofNat 64 va)
    | .poisoned keys => s.poisonStop keys va
    | .word w =>
      if !([1, 2, 3, 4, 5, 9].contains (fld w 26 6)) then s.trap cBadExt 0
      else
        let j := decodeScalar w
        if j.wf then s.prefixed i j else s.illegal w

/-! ### Lane dispatch -/

/-- What `lrun` finds at a header: what refuses it, what its fetch meets, or LEN and MF. -/
inductive Header where
  | refused
  | missed (f : Fail) (vec : List Word)
  | waits (keys : List Nat)
  | lost
  | poisoned (keys : List Nat)
  | block (len : Nat) (mf : Bool)
  deriving DecidableEq, Repr

/-- R38 and R160. -/
def State.header (s : State) (t : Team) (hdr : Nat) : Header :=
  let base := (s.groupOf t).lcbase.toNat
  let stop := base + (s.groupOf t).lclen
  if hdr % 4 ≠ 0 ∨ hdr < base ∨ stop < hdr + 12 then .refused
  else match s.fetchAt t hdr 12 with
    | .fault f vec => .missed f vec
    | .waits keys => .waits keys
    | .lost => .lost
    | .poisoned keys => .poisoned keys
    | .word h =>
      let len := fld h 0 11
      if fld h 92 4 ≠ 0xE ∨ fld h 13 79 ≠ 0 ∨ fld h 11 1 ≠ 0 ∨ len = 0 ∨ 1024 < len ∨ stop < hdr + 12 * (1 + len) then .refused
      else .block len (fld h 12 1 = 1)

/-- The `lrun` stands at an index of its block, or is over. -/
def Team.atIndex (t : Team) (b : LaneBlock) (i : Nat) : Team :=
  if b.len ≤ i then { t.advance with lidx := none, lhdr := none, lastRun := some t.pc }
  else { t with lidx := some i, lhdr := some b }

/-- One index is enqueued, or faults, or its fetch is held (R37, R39, R41 to R43, R168); the answer says whether it is enqueued. With
CHK = 1 the block counts as may-fault (R42). -/
def State.enqueueOne (s : State) (b : LaneBlock) (i : Nat) : State × Bool :=
  let t := s.team
  let mf := b.mf || t.pstat.chk
  let va := b.hdr.toNat + 12 * (1 + i)
  match s.fetchAt t va 12 with
  | .fault f vec => (s.trapEnqueue t.pc i f.cause f.scalarVal vec, false)
  | .waits keys => ((s.upd fun t => t.atIndex b i).sendTouched s.cur keys, false)
  | .lost => (s.trapEnqueue t.pc i cFabric (BitVec.ofNat 64 va) [], false)
  | .poisoned keys => ((s.checkTags keys).escalate 0x81 { t.scalarPoint 0x81 (BitVec.ofNat 64 va) with lidx := BitVec.ofNat 32 i }, false)
  | .word w =>
    match s.enqueueFault t w mf with
    | some (cause, val) => (s.trapEnqueue t.pc i cause val [], false)
    | none =>
      let holds := (mf && (laneOps w).any LaneOp.mayFault) || t.pstat.chk || t.pstat.stp
      let u := { t with laneq := t.laneq ++ [t.capture w t.pc i holds], lcptr := BitVec.ofNat 64 (va + 12), bpSkip := none }
      (s.setTeam (u.countEnqueue w), true)

/-- The instruction has trapped. -/
def Team.trapped (before t : Team) : Bool :=
  t.trapReq.isSome || t.esc.isSome || (!before.pstat.inh && t.pstat.inh)

/-- Enqueue from index `i` while there is room; `n` is the free places. A breakpoint halts before an index, unless that
index faults, and then at the handler's first instruction (R404, R433); a debugger's STEP halts after one (R425). -/
def State.enqueueFrom (s : State) (blk : LaneBlock) : Nat → Nat → State
  | 0, i => s.upd fun t => t.atIndex blk i
  | n + 1, i =>
    if blk.len ≤ i then s.upd fun t => t.atIndex blk i
    else
      let b := s.breakpoint (some i)
      let r := (if b.2 then s else b.1).enqueueOne blk i
      if !r.2 then (if b.2 && Team.trapped s.team r.1.team then r.1.upd fun t => { t with haltReq := true } else r.1)
      else if b.2 then b.1.upd fun t => t.atIndex blk i
      else if s.team.stepOnce then
        r.1.upd fun t => { t.atIndex blk (i + 1) with stepOnce := false, bpHalt := true }
      else State.enqueueFrom r.1 blk n (i + 1)

/-- The 64 entries of the lane queue (R37). -/
def laneQueueSize : Nat := 64

/-- `lrun` and `lrunr` from a header address, which is read and tested once, before the first enqueue (R38): the whole block, or
its rest when part of it is enqueued already (`lhdr`). After a restore the header of the rest is read again, and what fails
then fails at the index (R44). -/
def State.runBlock (s : State) (word hdr : Nat) : State :=
  let t := s.team
  match t.lidx, t.lhdr with
  | some i, some b => s.enqueueFrom b (laneQueueSize - t.laneq.length) i
  | l, _ => match s.header t hdr with
    | .block len mf =>
      let b : LaneBlock := ⟨BitVec.ofNat 64 hdr, len, mf⟩
      match l with
      | some i => s.enqueueFrom b (laneQueueSize - t.laneq.length) i
      | none =>
        if laneQueueSize ≤ t.laneq.length then s
        else (s.upd fun t => { t with lcptr := BitVec.ofNat 64 (hdr + 12) }).enqueueFrom b (laneQueueSize - t.laneq.length) 0
    | .refused => s.trapHere cIllegal (BitVec.ofNat 64 word) []
    | .missed f vec => s.trapHere f.cause f.scalarVal vec
    | .waits keys => s.sendTouched s.cur keys
    | .lost => s.trapHere cFabric (BitVec.ofNat 64 hdr) []
    | .poisoned keys => (s.checkTags keys).escalate 0x81 { t.scalarPoint 0x81 (BitVec.ofNat 64 hdr) with lidx := t.lidxWord }

def execLrun (d : BitVec 26) (s : State) : Out := .next (s.runBlock (encode (.lrun d)) ((s.groupOf s.team).lcbase.toNat + 4 * d.toNat))

/-- `lrunr`. -/
def execLrunr (a : BitVec 6) (s : State) : Out := .next (s.runBlock (encode (.lrunr a)) (s.team.reg a).toNat)

def execLsync (s : State) : Out := .next (if s.team.laneq.isEmpty then s.upd Team.advance else s)

def execLqcnt (d : BitVec 6) (s : State) : Out :=
  .next (s.upd fun t => (t.setReg d (BitVec.ofNat 64 t.laneq.length)).advance)

/-! ### Tokens -/

/-- A queued lane instruction that posts to k. -/
def Team.queuedPost (t : Team) (k : Nat) : Bool := t.laneq.any fun e => lanePost e.word.toNat == some k

def execWait (k : BitVec 4) (n : BitVec 6) (s : State) : Out :=
  .next <|
    if s.orphanBlocks s.team k.toNat n.toNat then s.trap cTokenCancel (tokenCancelVal s.team k.toNat)
    else if s.team.queuedPost k.toNat ∨ n.toNat < (s.team.token k.toNat).count then s
    else s.upd Team.advance

/-- Count in [5:0], cancel flag in [6]. -/
def tokenWord (x : Token) : Word := BitVec.ofNat 64 (x.count + bit x.cancel 6)

def execTkrd (d : BitVec 6) (k : BitVec 4) (s : State) : Out :=
  .next (s.upd fun t =>
    let x := t.token k.toNat
    ((t.setReg d (tokenWord x)).setToken k.toNat { x with cancel := false }).advance)

/-! ### Traps and returns -/

def execNop (s : State) : Out := .next (s.upd Team.advance)

/-- `trap`: one of the twenty causes, else ILLEGAL (R197). -/
def execTrap (a b : BitVec 6) (s : State) : Out :=
  .next <|
    let c := (s.team.reg a).toNat
    if 1 ≤ c ∧ c ≤ 0x14 then s.raise { s.team.scalarPoint c (s.team.reg b) with sw := true }
    else s.illegal (encode (.trap a b))

/-- The header that a scalar word dispatches, when it is an `lrun` or `lrunr`. -/
def State.headerOf (s : State) (t : Team) (w : Nat) : Option Nat :=
  match decodeScalar w with
  | .lrun d => some ((s.groupOf t).lcbase.toNat + 4 * d.toNat)
  | .lrunr a => some (t.reg a).toNat
  | _ => none

/-- The resumption tests of R45: what fails, or the block of the resumed `lrun` or `lrunr`. -/
inductive Resume where
  | trap (cause : Nat) (val : Word) (vec : List Word)
  | waits (keys : List Nat)
  | poisoned (keys : List Nat) (addr : Nat)
  | block (b : Option LaneBlock)

def State.resumeTest (s : State) (t : Team) (word : Nat) : Resume :=
  let pc := t.trappc.toNat
  let ill : Resume := .trap cIllegal (BitVec.ofNat 64 word) []
  if s.isExt t ((t.trappc - 4#64).toNat) then .trap cBadExt t.trappc []
  else if t.traplidx = 0xFFFFFFFF#32 then .block none
  else match s.fetchAt t pc 4 with
    | .fault f vec => .trap f.cause f.scalarVal vec
    | .waits keys => .waits keys
    | .lost => .trap cFabric t.trappc []
    | .poisoned keys => .poisoned keys pc
    | .word w => match s.headerOf t w with
      | none => ill
      | some h => match s.header t h with
        | .block len mf => if t.traplidx.toNat < len then .block (some ⟨BitVec.ofNat 64 h, len, mf⟩) else ill
        | .missed f vec => .trap f.cause f.scalarVal vec
        | .waits keys => .waits keys
        | .lost => .trap cFabric (BitVec.ofNat 64 h) []
        | .poisoned keys => .poisoned keys h
        | .refused => ill

/-- `eret` (R198, R306). DESIGN CHOICE (log entry 71, unsafe): lane instructions of the handler that are still queued do not hold
it; they issue, and post, after it. R306 holds `eret` for the tokens alone. -/
def execEret (s : State) : Out :=
  .next <|
    let t := s.team
    if t.pstat.pl = 0#2 then s.priv (encode .eret)
    else if !t.pstat.inh then s.illegal (encode .eret)
    else match s.orphanToken t with
      | some k => s.trap cTokenCancel (tokenCancelVal t k)
      | none =>
        if !t.tokensZero then s
        else match s.resumeTest t (encode .eret) with
          | .trap cause val vec => s.trapVec cause val vec
          | .waits keys => s.sendTouched s.cur keys
          | .poisoned keys addr => s.poisonStop keys addr
          | .block hdr =>
            let s := s.traceTeam 4 t.trappc t.trapseq.toNat t.traplidx 0
            s.upd fun t =>
              let u := t.leave (t.frame.getD t.noFrame) hdr
              if u.pstat.p then { u with saveReq := some 4, deadline := none } else u

/-- A word that no row of R147 assigns traps ILLEGAL. -/
def execUnassignedScalarWord (word : BitVec 32) (s : State) : Out := .next (s.illegal word.toNat)

end Sys2Proof.Machine
end

