-- ==== Sys2Proof/Machine/MemOps.lean ====
section
/-!
DEFINITION. Machine/MemOps.lean: the shared operations of writes: read-modify-writes (R177, R178, R256, R257, R86),
the parts of an access (R96), the performing of a write with its forwarding by postcards (R116, R117, R350 to R352) and
its waking of `mwait` (R269).
-/

namespace Sys2Proof.Machine

/-! ### Read-modify-writes -/

/-- One element of a floating read-modify-write; none where no write is made (R178, R257). -/
def RmwMode.fpElem (m : RmwMode) (f : FFmt) (lane el old b : Nat) : Option Nat :=
  if f.decode b = .absent then none
  else if f.decode old = .absent then some b
  else match m.op with
    | .fmax => some (f.minMax true old b)
    | .fmin => some (f.minMax false old b)
    | _ =>
      let rnd := rndMode m.rnd.toNat (if m.rnd = 5#3 then srBits m.seed m.ctr m.str.toNat lane el else 0)
      some (f.ofVal rnd m.sat (FVal.add rnd (f.decode old) (f.decode b))).code

/-- One integer element; none where no write is made. -/
def RmwMode.intElem (m : RmwMode) (old b : Nat) : Option Nat :=
  let ty := m.ty.toNat
  if m.ab && b == intAb ty then none
  else if m.ab && old == intAb ty then some b
  else
    let x := intVal ty old
    let y := intVal ty b
    some (intFit ty m.sat m.ab (match m.op with | .min => min x y | .max => max x y | _ => x + y))

/-- The new value of the word that a read-modify-write names; none where no write is made. -/
def Rmw.apply (o : Rmw) (old : Nat) : Option Nat :=
  let b := o.val.toNat
  let ty := o.mode.ty.toNat
  match o.mode.op with
  | .and => some (old &&& b)
  | .or => some (old ||| b)
  | .xor => some (old ^^^ b)
  | .exch => some b
  | .cas => if old = o.cmp.toNat then some b else none
  | .bin => some (min (old + b) 0xFFFFFFFF)
  | .add => o.mode.intElem old b
  | .min => o.mode.intElem old b
  | .max => o.mode.intElem old b
  | op =>
    let f := fmtOf ty 0
    let n := tyBits ty
    let _ := op
    let rs := (List.range (tyElems ty)).map fun i => (elem old i n, o.mode.fpElem f o.lane i (elem old i n) (elem b i n))
    if rs.all fun r => r.2.isNone then none else some (packElems n (rs.map fun r => r.2.getD r.1))

/-! ### Parts of an access -/

/-- The bytes of a write by sector (R96). -/
def sectorParts (bs : List (Nat × Byte)) : List (List (Nat × Byte)) :=
  ((bs.map fun b => sectorOf b.1).eraseDups).map fun sec => bs.filter fun b => sectorOf b.1 == sec

/-- The plain writes of a store's bytes; those to the window carry the address on the fabric. -/
def storeParts (ea : Nat) (bs : List (Nat × Byte)) : List (WriteWhat × Option Word) :=
  (sectorParts bs).map fun part =>
    (.bytes part, if part.any fun b => !(decide (scratchBase ≤ b.1)) && region b.1 == .window then some (BitVec.ofNat 64 ea)
                  else none)

/-- Bytes of code that a store changes may be fetched old until a fence (R168). -/
def Team.noteStale (t : Team) (s : State) (g : Bool) (keys : List Nat) : Team :=
  if g then { t with stale := (keys.map fun k => (k, s.loadByte t k)) ++ t.stale } else t

/-! ### Performing a write -/

/-- The flat S-address of a key, if it lies in scratchpad. -/
def flatOf (k : Nat) : Option Nat := if scratchBase ≤ k then some (k - scratchBase) else none

/-- Close the open postcard (R117, R352). -/
def PostEntry.close (p : PostEntry) : PostEntry :=
  match p.openCard with
  | none => p
  | some c => { p with openCard := none, closed := p.closed ++ [c], cards := p.cards + 1 }

/-- Postcards of a core that wait to cross the mesh (R352). -/
def State.closedCards (s : State) (core : Nat) : Nat :=
  (List.range 32).foldl (fun n e => n + (s.post (32 * core + e)).closed.length) 0

/-- An entry publishes a byte. -/
def PostEntry.publishes (p : PostEntry) (flat : Nat) : Bool :=
  p.state == 1 && decide (p.pub ≤ flat) && decide (flat < p.pub + p.len)

/-- 64 mesh cycles, in ticks of 0.25 ns: the mesh runs at 2.0 GHz whatever the core clock (R9, R117, R467). -/
def mergeTime : Nat := 128

/-- A write of bytes of one line reaches an entry: it joins the open postcard of its line, or opens one. -/
def PostEntry.forward (p : PostEntry) (now : Nat) (bs : List (Nat × Byte)) : PostEntry :=
  let mine := (bs.filter fun b => p.publishes b.1).map fun b => (b.1 - p.pub, b.2)
  match mine with
  | [] => p
  | b :: _ =>
    let line := b.1 / 128
    match p.openCard with
    | some c =>
      if c.line = line ∧ now < c.opened + mergeTime then
        { p with openCard := some { c with bytes := (c.bytes.filter fun x => !(mine.any fun y => y.1 == x.1)) ++ mine },
                 merges := p.merges + 1 }
      else { p.close with openCard := some { line := line, bytes := mine, opened := now } }
    | none => { p with openCard := some { line := line, bytes := mine, opened := now } }

/-- The cores whose scratchpad holds bytes. -/
def coresOf (flats : List Nat) : List Nat := (flats.map (· / 2 ^ 25)).eraseDups

/-- Every active entry of the cores where the bytes lie forwards them, line by line. -/
def State.forwardWrite (s : State) (bs : List (Nat × Byte)) : State :=
  let flats := bs.filterMap fun b => (flatOf b.1).map fun f => (f, b.2)
  let parts := ((flats.map fun b => b.1 / 128).eraseDups).map fun ln => flats.filter fun b => b.1 / 128 == ln
  (coresOf (flats.map Prod.fst)).foldl (fun s core =>
    (List.range 32).foldl (fun s e =>
      let p := s.post (32 * core + e)
      let q := parts.foldl (fun p part => p.forward s.ticks part) p
      if q = p then s else s.putPost (32 * core + e) q) s) s

/-- A write into a published region waits while the forwarder of a core that it reaches has no free place, or fewer than the
postcards that the write would close (R352). -/
def State.forwarderFull (s : State) (keys : List Nat) : Bool :=
  let flats := keys.filterMap flatOf
  (coresOf flats).any fun core =>
    (flats.any fun f => (List.range 32).any fun e => (s.post (32 * core + e)).publishes f)
      && (decide (64 ≤ s.closedCards core) || decide (64 < (s.forwardWrite (keys.map fun k => (k, 0))).closedCards core))

/-- A region publishes a byte of each list. -/
def State.publishedBoth (s : State) (ks ls : List Nat) : Bool :=
  s.posts.any fun p => ((ks.filterMap flatOf).any p.2.publishes) && (ls.filterMap flatOf).any p.2.publishes

/-- A team parked by `mwait` on a written sector continues with D = 0 (R269). -/
def Team.wakeWatch (t : Team) (secs : List Nat) : Team :=
  match t.park with
  | some (.watch sec d) =>
    if secs.contains sec then { ((t.setReg d 0#64).stepDone) with park := none, pc := t.pc + 4#64 } else t
  | _ => t

def State.wakeWatchers (s : State) (keys : List Nat) : State :=
  let secs := (keys.map sectorOf).eraseDups
  s.teams.foldl (fun s x =>
    let t := s.teamAt x.1
    let u := t.wakeWatch secs
    if t.life = .resident ∧ t.saveReq ≠ some 3 then (if u.park = t.park then s else s.putTeam x.1 u) else s) s

/-- A write is performed: the bytes change, a sector written whole is cured of poison (R440), the tag of a line written whole is made
anew (R412), watchers wake, and, except for a postcard's own application, postcards carry it on. -/
def State.perform (s : State) (bs : List (Nat × Byte)) (forwarded : Bool) : State :=
  let at' := bs.map fun b => (s.place b.1, b.2)
  let s := (((s.setBytes at').freshTags (at'.map Prod.fst)).curePoison at').wakeWatchers (bs.map Prod.fst)
  if forwarded then s.forwardWrite bs else s

/-- `n` draws without replacement, for elements in unspecified order (R95). -/
def shuffle {α : Type} (free : Nat) : Nat → List α → List α
  | 0, xs => xs
  | n + 1, xs =>
    let i := draw free 6 n % xs.length
    match xs[i]? with
    | none => xs
    | some x => x :: shuffle free n (xs.eraseIdx i)

/-- The order in which elements that share a location are performed. -/
def unordered (free : Nat) (xs : List Rmw) : List Rmw :=
  if (xs.map Rmw.key).Nodup then xs else shuffle free xs.length xs

/-- Of several lanes that write one byte, one is taken for each byte (R95). -/
def oneWriter (free : Nat) (bs : List (Nat × Byte)) : List (Nat × Byte) :=
  if (bs.map Prod.fst).Nodup then bs
  else ((bs.map Prod.fst).eraseDups).map fun k =>
    let cands := (bs.filter fun b => b.1 == k).map Prod.snd
    (k, (cands[draw free 7 k % cands.length]?).getD 0)

end Sys2Proof.Machine
end

