-- ==== Sys2Proof/Machine/Stile.lean ====
section
/-!
DEFINITION. Machine/Stile.lean: stiles, the completion objects of scratchpad (R266, R267, R341 to R346), and the scalar
instructions on them.
-/

namespace Sys2Proof.Machine

/-- The fields of a stile (R341). -/
structure Stile where
  ptrans : Nat
  parr   : Nat
  earr   : Nat
  phase  : Nat
  errseq : Nat
  errpc  : Nat
  status : Nat
  deriving DecidableEq, Repr

def Stile.ofWords (a b : Nat) : Stile :=
  { ptrans := fld a 32 32, parr := fld a 16 16, earr := fld a 1 15, phase := fld a 0 1,
    errseq := fld b 32 32, errpc := fld b 8 24, status := fld b 0 8 }

def Stile.word0 (x : Stile) : Nat := x.ptrans * 2 ^ 32 + x.parr * 2 ^ 16 + x.earr * 2 + x.phase
def Stile.word1 (x : Stile) : Nat := x.errseq * 2 ^ 32 + x.errpc * 2 ^ 8 + x.status

/-- The stile at a key of memory. -/
def State.stile (s : State) (k : Nat) : Stile := .ofWords (s.readNat k 8) (s.readNat (k + 8) 8)

/-- STATUS bits (R344). -/
def stPoison : Nat := 0
def stCancel : Nat := 1
def stOvarr : Nat := 2
def stOvf : Nat := 3
def stUnder : Nat := 4
def stFabric : Nat := 5

/-- Set a STATUS bit; the first error also records where it came from (R344). -/
def Stile.err (x : Stile) (b : Nat) (pc : Word) (seq : BitVec 32) : Stile :=
  let x := if x.status = 0 then { x with errseq := seq.toNat, errpc := fld pc.toNat 2 24 } else x
  { x with status := x.status ||| 2 ^ b }

/-- R342's evaluation: the stile after it, and whether the phase advanced. -/
def Stile.evaluate (x : Stile) : Stile × Bool :=
  if x.parr = 0 ∧ x.ptrans = 0 then ({ x with phase := 1 - x.phase, parr := x.earr }, true) else (x, false)

/-- A team parked on the stile by `yield` is Ready at YIELDPC with D = 0 (R268, R346). -/
def Team.wakeStile (t : Team) (k : Nat) (d0 : Word) : Team :=
  match t.park with
  | some (.stile key _ d _) =>
    if key = k then { ((t.setReg d d0).stepDone) with park := none, pc := t.yieldpc } else t
  | _ => t

/-- Every resident team parked on the stile. -/
def State.wakeStile (s : State) (k : Nat) (d0 : Word) : State :=
  s.teams.foldl (fun s x =>
    let t := s.teamAt x.1
    let u := t.wakeStile k d0
    if t.life = .resident ∧ t.saveReq ≠ some 3 then (if u.park = t.park then s else s.putTeam x.1 u) else s) s

/-- Write a stile back at the bank, as one write. -/
def State.putStile (s : State) (k : Nat) (x : Stile) : State :=
  s.perform (spread (keysFrom k 8) x.word0 ++ spread (keysFrom (k + 8) 8) x.word1) true

/-- A change and the evaluation that it ends with. -/
def State.changeStile (s : State) (k : Nat) (x : Stile) : State :=
  let e := x.evaluate
  let s := s.putStile k e.1
  if e.2 then s.wakeStile k 0 else s

/-- `stexp` of `n` bytes, performed at the bank. An overflow changes nothing but the status (R267). -/
def State.expectBytes (s : State) (k n : Nat) (pc : Word) (seq : BitVec 32) : State :=
  let x := s.stile k
  if 2 ^ 32 ≤ x.ptrans + n then s.putStile k (x.err stOvf pc seq)
  else if n = 0 then s
  else s.changeStile k { x with ptrans := x.ptrans + n }

/-- `starr`, performed at the bank. -/
def State.arriveStile (s : State) (k : Nat) (pc : Word) (seq : BitVec 32) : State :=
  let x := s.stile k
  if x.parr = 0 then s.putStile k (x.err stOvarr pc seq)
  else s.changeStile k { x with parr := x.parr - 1 }

/-- Bytes of a transfer are counted off, with the STATUS bits of the line (R342, R343). -/
def State.countBytes (s : State) (k n : Nat) (bits : List Nat) (pc : Word) (seq : BitVec 32) : State :=
  let x := s.stile k
  let x := bits.foldl (fun x b => x.err b pc seq) x
  let x := if x.ptrans < n then { (x.err stUnder pc seq) with ptrans := 0 } else { x with ptrans := x.ptrans - n }
  s.changeStile k x

/-- A change that the memory system makes of itself: an arrival, or a count of bytes. -/
def State.settleStile (s : State) (w : StileWrite) : State :=
  if w.arrive then s.arriveStile w.key w.pc w.seq else s.countBytes w.key w.n w.bits w.pc w.seq

/-- It waits while the forwarder is full (R352), and behind a change of the same stile that waits. -/
def State.laterStile (s : State) (w : StileWrite) : State :=
  if s.forwarderFull (keysFrom w.key 16) || s.stileWaits.any (fun x => x.key == w.key) then { s with stileWaits := s.stileWaits ++ [w] } else s.settleStile w

/-- Those that wait are tried again, in order. -/
def State.retryStiles (s : State) : State := s.stileWaits.foldl State.laterStile { s with stileWaits := [] }

/-! ### The instructions -/

/-- The result word of a test (R266). -/
def Stile.result (x : Stile) (seen : Nat) : Word :=
  BitVec.ofNat 64 (x.status * 2 ^ 8 + x.phase * 2 + (if x.phase = seen % 2 then 0 else 1))

/-- The checks of R267: the cause, or the keys of the sixteen bytes. -/
def State.stileKeys (s : State) (t : Team) (a : Word) : Except Nat (List Nat) :=
  if a.toNat % 16 ≠ 0 then .error cAlign
  else
    let c := s.checkS t.pstat.tag t.pstat.world t.core 0 a.toNat 16
    match worst c.fails with
    | some f => .error f.cause
    | none => .ok c.keys

/-- `stexp` and `starr` pass through the store-delay queue; `starr` is a release at its scope (R111, R122). -/
def State.stileWrite (s : State) (a : Word) (arrive : Bool) (n : Nat) (release : Option Nat) : State :=
  let t := s.team
  match s.stileKeys t a with
  | .error c => s.trap c a
  | .ok keys =>
    if keys.any s.poisoned then s.poisonStop keys a.toNat
    else if t.binsAhead release.isSome keys then s
    else s.setTeam (t.addWrites 0 s.cycle release
      [(.stile (keys.headD 0) arrive n t.pc t.seqctr, none)]).advance

def execStexp (a b : BitVec 6) (s : State) : Out :=
  .next <|
    let n := (s.team.reg b).toNat
    if 2 ^ 32 ≤ n then s.illegal (encode (.stexp a b)) else s.stileWrite (s.team.reg a) false n none

def execStarr (a : BitVec 6) (scope : BitVec 4) (s : State) : Out :=
  guarded (.starr a scope) s (.next (s.stileWrite (s.team.reg a) true 0 (some scope.toNat)))

/-- A write of the team to these bytes is still queued. -/
def Team.queuedWrite (t : Team) (keys : List Nat) : Bool := t.sdq.any fun w => w.keys.any keys.contains

/-- `sttest`, and `stwait` with `wait`: it is held until the phase differs, and checks again at each evaluation. -/
def State.stileTest (s : State) (wait : Bool) (d : BitVec 6) (a b : Word) : State :=
  let t := s.team
  match s.stileKeys t a with
  | .error c => s.trap c a
  | .ok keys =>
    if t.queuedWrite keys ∨ s.scalarWait t keys then s
    else if keys.any s.poisoned then s.poisonStop keys a.toNat
    else
      let r := (s.stile (keys.headD 0)).result b.toNat
      if wait && !r.getLsbD 0 then s else s.setTeam (t.setReg d r).advance

def execSttest (d a b : BitVec 6) (scope : BitVec 4) (s : State) : Out :=
  guarded (.sttest d a b scope) s (.next (s.stileTest false d (s.team.reg a) (s.team.reg b)))
def execStwait (d a b : BitVec 6) (scope : BitVec 4) (s : State) : Out :=
  guarded (.stwait d a b scope) s (.next (s.stileTest true d (s.team.reg a) (s.team.reg b)))

end Sys2Proof.Machine
end

