-- ==== Sys2Proof/Machine/Ferry.lean ====
section
/-!
DEFINITION. Machine/Ferry.lean: the block-transfer engine of a core: apertures and templates (R259 to R261, R333 to R335),
the checks of a go store (R338), what a transfer writes (R336, R337), and its lines (R343, R344).
-/

namespace Sys2Proof.Machine

/-! ### Templates (R334, R335) -/

/-- A template as its fields. -/
structure Template where
  words  : List Word
  deriving DecidableEq, Repr

namespace Template
def w (x : Template) (i : Nat) : Nat := (x.words.getD i 0).toNat
def sty (x : Template) : Nat := fld (x.w 0) 0 4
def dty (x : Template) : Nat := fld (x.w 0) 4 4
def skind (x : Template) : Bool := fld (x.w 0) 8 1 == 1
def dkind (x : Template) : Bool := fld (x.w 0) 9 1 == 1
def trans (x : Template) : Bool := fld (x.w 0) 10 1 == 1
def pad (x : Template) : Nat := fld (x.w 0) 11 2
def bp (x : Template) : Nat := fld (x.w 0) 14 3
def bu (x : Template) : Bool := fld (x.w 0) 17 1 == 1
def bi (x : Template) : Bool := fld (x.w 0) 18 1 == 1
def srows (x : Template) : Nat := fld (x.w 1) 0 32
def scols (x : Template) : Nat := fld (x.w 1) 32 32
def drows (x : Template) : Nat := fld (x.w 2) 0 32
def dcols (x : Template) : Nat := fld (x.w 2) 32 32
def sstride (x : Template) : Int := sext (x.w 3) 64
def dstride (x : Template) : Int := sext (x.w 4) 64
def splane (x : Template) : Int := sext (x.w 5) 64
def dplane (x : Template) : Int := sext (x.w 6) 64

/-- Bytes of an element, or of a record (R337). -/
def size (t : Nat) : Nat := if tyIsBlock t then LaneOp.recSize t else tyBits t / 8
def rowBytes (x : Template) : Nat := if tyIsBlock x.dty then size x.dty else x.dcols * size x.dty
/-- XBYTES (R337). -/
def xbytes (x : Template) (count : Nat) : Nat := count * x.drows * x.rowBytes

def isFp (t : Nat) : Bool := t == 1 || t == 2 || t == 3

/-- The operation that the type pair selects (R336): 1 copy, 2 copy of records, 3 pack, 4 decode; 0 none. -/
def operation (x : Template) : Nat :=
  if x.sty = x.dty ∧ tyIsBlock x.sty = false then 1
  else if x.sty = x.dty ∧ x.trans = false then 2
  else if tyIsBlock x.dty && (isFp x.sty || tyIsBlock x.sty) then 3
  else if tyIsBlock x.sty && isFp x.dty then 4
  else 0

/-- BP, BU and BI obey R335. -/
def b8Ok (x : Template) : Bool :=
  if x.sty = 4 ∨ x.dty = 4 ∨ x.sty = 0xF ∨ x.dty = 0xF then x.bp != 0 else x.bp == 0 && !x.bu && !x.bi

/-- The source element of destination element (r, c). -/
def srcOf (x : Template) (r c : Nat) : Nat × Nat := if x.trans then (c, r) else (r, c)
def hasSrc (x : Template) (r c : Nat) : Bool :=
  decide ((x.srcOf r c).1 < x.srows) && decide ((x.srcOf r c).2 < x.scols)
/-- Every destination element has a source element; a destination without rows or columns has no element. -/
def covered (x : Template) : Bool := x.drows == 0 || x.dcols == 0 || x.hasSrc (x.drows - 1) (x.dcols - 1)

def dimOk (n : Nat) : Bool := decide (1 ≤ n) && decide (n ≤ 65536)

/-- The lowest template word that a failing check names (R338). -/
def badWord (x : Template) : Option Nat :=
  if fld (x.w 0) 19 45 ≠ 0 ∨ fld (x.w 0) 13 1 ≠ 0 ∨ x.pad = 3 ∨ x.operation = 0 ∨ x.b8Ok = false
      ∨ (x.pad = 0 ∧ x.covered = false) then some 0
  else if !dimOk x.srows || !dimOk x.scols || (tyIsBlock x.sty && x.scols != 32) then some 1
  else if !dimOk x.drows || !dimOk x.dcols || (tyIsBlock x.dty && x.dcols != 32) then some 2
  else if x.w 7 ≠ 0 then some 7
  else none

/-- A row distance that is no multiple of the record size (R338). -/
def badStride (x : Template) : Option Word :=
  let bad (t : Nat) (d : Int) : Bool := tyIsBlock t && d % (size t : Int) != 0
  if bad x.sty x.sstride then some (BitVec.ofNat 64 (x.w 3))
  else if bad x.sty x.splane then some (BitVec.ofNat 64 (x.w 5))
  else if bad x.dty x.dstride then some (BitVec.ofNat 64 (x.w 4))
  else if bad x.dty x.dplane then some (BitVec.ofNat 64 (x.w 6))
  else none

def srcRow (x : Template) (src : Word) (p sr : Nat) : Nat := wrapTo (src.toNat + p * x.splane + sr * x.sstride) 64
def dstRow (x : Template) (dst : Word) (p r : Nat) : Nat := wrapTo (dst.toNat + p * x.dplane + r * x.dstride) 64

/-- Address and length of the bytes of a source element: a block's element is read with its whole record. -/
def srcBytes (x : Template) (src : Word) (p sr sc : Nat) : Nat × Nat :=
  if tyIsBlock x.sty then (x.srcRow src p sr, size x.sty)
  else ((x.srcRow src p sr + sc * size x.sty) % 2 ^ 64, size x.sty)

/-- The planes and rows of the destination in the order of R337's pseudocode. -/
def rows (x : Template) (count : Nat) : List (Nat × Nat) :=
  (List.range count).flatMap fun p => (List.range x.drows).map fun r => (p, r)

/-- The addresses of `n` consecutive bytes, modulo 2^64. -/
def span (a n : Nat) : List Nat := (List.range n).map fun i => (a + i) % 2 ^ 64

/-- Every source byte read, in pseudocode order. -/
def sources (x : Template) (src : Word) (count : Nat) : List Nat :=
  (x.rows count).flatMap fun pr => (List.range x.dcols).flatMap fun c =>
    if x.hasSrc pr.2 c then
      let b := x.srcBytes src pr.1 (x.srcOf pr.2 c).1 (x.srcOf pr.2 c).2
      span b.1 b.2
    else []

/-- Every destination byte written, in pseudocode order. -/
def dests (x : Template) (dst : Word) (count : Nat) : List Nat :=
  (x.rows count).flatMap fun pr => span (x.dstRow dst pr.1 pr.2) x.rowBytes

/-- The binary8pP format of the template. -/
def b8 (x : Template) : FFmt := fmtB8 x.bp x.bu x.bi
def elemFmt (x : Template) (t : Nat) : FFmt :=
  if t = 0 then fmtF64 else if t = 1 then fmtF32 else if t = 2 then fmtF16 else if t = 3 then fmtBF16
  else if t = 0xD then fmtE4 else if t = 0xE then fmtE6 else x.b8

/-- The code of a padding element of a type that is not a block (R337). -/
def padCode (x : Template) (t : Nat) : Nat :=
  if x.pad = 1 then 0
  else if t = 4 then (if x.bu then 0x01 else 0x81)
  else if tyIsFloat t then (x.elemFmt t).absent
  else 2 ^ tyBits t - 1
end Template

/-! ### What a transfer writes -/

def Transfer.template (x : Transfer) : Template := ⟨x.tmpl⟩

/-- The key of a byte, under the translations that the transfer keeps (R339). -/
def Transfer.key (x : Transfer) (g : Bool) (va : Nat) : Nat :=
  if g then ((x.pages.find? fun p => p.1 == va / 2 ^ 16).map fun p => p.2 + va % 2 ^ 16).getD 0
  else scratchBase + (sFlat x.core va).getD 0

def Transfer.srcKeys (x : Transfer) (p r c : Nat) : List Nat :=
  let t := x.template
  if t.hasSrc r c then
    let b := t.srcBytes x.src p (t.srcOf r c).1 (t.srcOf r c).2
    (Template.span b.1 b.2).map (x.key t.skind)
  else []

def Transfer.rowKeys (x : Transfer) (p r : Nat) : List Nat :=
  (Template.span (x.template.dstRow x.dst p r) x.template.rowBytes).map (x.key x.template.dkind)

/-- A source byte as it was read. -/
def Transfer.byte (x : Transfer) (k : Nat) : Byte :=
  ((x.cache.find? fun c => c.1 == sectorOf k).map fun c => c.2.1.getD (k % 32) 0).getD 0
def Transfer.bad (x : Transfer) (k : Nat) : Bool :=
  ((x.cache.find? fun c => c.1 == sectorOf k).map fun c => c.2.2).getD false

/-- Read a source sector that has not been read yet (R113). -/
def Transfer.read (x : Transfer) (s : State) (sec : Nat) : Transfer :=
  if x.cache.any fun c => c.1 == sec then x
  else { x with cache := x.cache ++ [(sec, (keysFrom (32 * sec) 32).map (s.homeByte x.tag), s.poisoned (32 * sec))] }

/-- A source element as bits. -/
def Transfer.bits (x : Transfer) (p r c : Nat) : Nat := bytesNat ((x.srcKeys p r c).map x.byte)

/-- A source element, or its padding, as a value. -/
def Transfer.value (x : Transfer) (p r c : Nat) : FVal :=
  let t := x.template
  if t.hasSrc r c then
    let b := x.bits p r c
    if tyIsBlock t.sty then (recVal (t.elemFmt t.sty) t.sty b (t.srcOf r c).2).scaleBy ((b % 256 : Nat) - 127)
    else (t.elemFmt t.sty).decode b
  else if t.pad = 1 then .num false 0 0
  else .absent

/-- Values packed into one record by R238, with SX = 0, RNE and saturation. -/
def packRecord (ty : Nat) (f : FFmt) (xs : List FVal) : Nat :=
  let c := packScale f.emax xs
  mkRec ty c (xs.map fun v => if 0xFE ≤ c then 0 else (f.ofVal .rne true (v.scaleBy (127 - c))).code)

/-- Row r of plane p as a number of `rowbytes` bytes. -/
def Transfer.rowValue (x : Transfer) (p r : Nat) : Nat :=
  let t := x.template
  let pack := packRecord t.dty (t.elemFmt t.dty) ((List.range 32).map (x.value p r))
  match t.operation with
  | 1 => packElems (tyBits t.dty)
      ((List.range t.dcols).map fun c => if t.hasSrc r c then x.bits p r c else t.padCode t.dty)
  | 2 => if t.hasSrc r 0 then x.bits p r 0 else pack
  | 3 => pack
  | _ => packElems (tyBits t.dty)
      ((List.range t.dcols).map fun c => ((t.elemFmt t.dty).ofVal .rne false (x.value p r c)).code)

/-- The source keys that feed byte `i` of a row. -/
def Transfer.feeds (x : Transfer) (p r i : Nat) : List Nat :=
  let t := x.template
  if tyIsBlock t.dty then (List.range 32).flatMap (x.srcKeys p r) else x.srcKeys p r (i / Template.size t.dty)

/-- The row bytes that fall into a line: plane, row, byte of the row, key. -/
def Transfer.inLine (x : Transfer) (line : Nat) : List (Nat × Nat × Nat × Nat) :=
  (x.template.rows x.count).flatMap fun pr =>
    (((x.rowKeys pr.1 pr.2).zipIdx.filter fun k => lineOf k.1 == line).map fun k => (pr.1, pr.2, k.2, k.1))

/-- The source sectors that a line needs. -/
def Transfer.lineSectors (x : Transfer) (line : Nat) : List Nat :=
  (((x.inLine line).flatMap fun b => x.feeds b.1 b.2.1 b.2.2.1).map sectorOf).eraseDups

/-- The transfer with a byte of its source as a write of its own left it. -/
def Transfer.patch (x : Transfer) (k : Nat) (b : Byte) : Transfer :=
  { x with cache := x.cache.map fun c => if c.1 = sectorOf k then (c.1, c.2.1.set (k % 32) b, c.2.2) else c }

/-- The bytes of a line that feeds itself, in the order of the pseudocode: each is computed from the source as it was read or
as the earlier bytes left it (R340); `y` is the transfer with those. -/
def Transfer.ownBytes (x : Transfer) (free : Nat) : Transfer → List (Nat × Nat × Nat × Nat) → List (Nat × Byte)
  | _, [] => []
  | y, b :: bs =>
    let z := if pick free 12 b.2.2.2 then y else x
    let v : Byte := BitVec.ofNat 8 (z.rowValue b.1 b.2.1 / 256 ^ b.2.2.1)
    (b.2.2.2, v) :: Transfer.ownBytes x free (y.patch b.2.2.2 v) bs

/-- The bytes of a line, one writer for each byte (R340), and the poisoned destination sectors (R344). -/
def Transfer.lineBytes (x : Transfer) (free line : Nat) : List (Nat × Byte) × List Nat :=
  let bs := x.inLine line
  let vals := (bs.map fun b => (b.1, b.2.1)).eraseDups.map fun pr => (pr, x.rowValue pr.1 pr.2)
  (oneWriter free
      (if (x.lineSectors line).any fun sec => sec / 4 == line then x.ownBytes free x bs
       else bs.map fun b =>
        (b.2.2.2, BitVec.ofNat 8 (((vals.find? fun v => v.1 == (b.1, b.2.1)).map fun v => v.2 / 256 ^ b.2.2.1).getD 0))),
   ((bs.filter fun b => (x.feeds b.1 b.2.1 b.2.2.1).any x.bad).map fun b => sectorOf b.2.2.2).eraseDups)

/-! ### Aperture and template frames (R260, R333) -/

/-- Where an access to a frame of a window falls. -/
structure WindowAt where
  /-- a template frame -/
  tmpl : Bool
  core : Nat
  off  : Nat

def windowAt (k : Nat) : Option WindowAt :=
  if scratchBase ≤ k then none
  else match region k with
    | .aperture c => some ⟨false, c, k % 0x10000⟩
    | .template c => some ⟨true, c, k % 0x10000⟩
    | _ => none

/-- The channel or slot of an access, in its ownership table. -/
def WindowAt.unit (w : WindowAt) : Nat := if w.tmpl then 1024 * w.core + w.off / 64 else 64 * w.core + w.off / 64
def WindowAt.word (w : WindowAt) : Nat := w.off / 8 % 8

/-- The checks of R260 in their order, for a scalar access of `n` bytes: the cause that fails. -/
def State.windowFault (s : State) (t : Team) (ea n : Nat) (keys : List Nat) : Option Nat :=
  let ws := keys.filterMap windowAt
  if ws.any fun w => !w.tmpl && decide (0x1000 ≤ w.off) then some cTbProt
  else if n ≠ 8 ∨ ea % 8 ≠ 0 then some cAlign
  else match ws with
    | [] => none
    | w :: _ =>
      if w.core ≠ t.core then some cTbProt
      else
        let o := s.owner (if w.tmpl then 6 else 5) w.unit
        if o.tag ≠ t.pstat.tag then some cOwner else if o.world ≠ t.pstat.world then some cWorld else none

/-- An argument word as the team's program order leaves it. -/
def State.argWord (s : State) (t : Team) (ch w : Nat) : Word :=
  let c := s.channel ch
  let mem := if w = 0 then c.src else if w = 1 then c.dst else if w = 2 then c.count else c.stile
  t.sdq.foldl (fun x e => match e.what with
    | .arg ch' w' v => if ch' = ch ∧ w' = w then v else x
    | _ => x) mem

/-- A template word likewise. -/
def State.templateWord (s : State) (t : Team) (slot w : Nat) : Word :=
  t.sdq.foldl (fun x e => match e.what with
    | .template slot' w' v => if slot' = slot ∧ w' = w then v else x
    | _ => x) (Store.get 0 s.templates (8 * slot + w))

/-- STATE of a channel (R259). -/
def Channel.state (c : Channel) : Word := BitVec.ofNat 64 (c.seq.toNat * 2 ^ 32 + bit c.cancelled 1 + bit c.busy 0)

/-- What a load of a window word reads (R7, R259, R334). -/
def State.windowRead (s : State) (t : Team) (w : WindowAt) : Word :=
  if w.tmpl then s.templateWord t w.unit w.word
  else if w.word < 4 then s.argWord t w.unit w.word
  else if w.word = 5 then (s.channel w.unit).state
  else 0

/-! ### The go store (R261, R338) -/

/-- A check of a go that fails: cause, TRAPVAL, missing pages. -/
abbrev GoFault := Nat × Word × List Word

/-- What one byte of a range fails, or its key. -/
def State.ferryByte (s : State) (t : Team) (g : Bool) (need a : Nat) : Except Nat Nat :=
  if g then s.translate t.gq t.pstat.tag t.pstat.world need a
  else match sFlat t.core a with
    | none => .error cOwner
    | some f => match s.bankCause t.pstat.tag t.pstat.world (bankOf f) with
      | some c => .error c
      | none => .ok (scratchBase + f)

def State.ferryFails (s : State) (t : Team) (g : Bool) (need : Nat) (as : List Nat) : List Fail :=
  as.filterMap fun a => match s.ferryByte t g need a with
    | .error c => some ⟨c, 0, a, a⟩
    | .ok _ => none

/-- The lowest address that fails with the cause that ranks first. -/
def lowestFail (fs : List Fail) : Option Fail :=
  (worst fs).map fun f =>
    (fs.filter fun g => g.cause == f.cause).foldl (fun b g => if g.addr < b.addr then g else b) f

/-- The checks of R338 for a go to channel `ch` with template slot `slot` (its number in the device), in their order;
`ea` is the address of the go store. -/
def State.goFault (s : State) (t : Team) (ea : Word) (ch slot : Nat) : Option GoFault :=
  let x : Template := ⟨(List.range 8).map (s.templateWord t slot)⟩
  let src := s.argWord t ch 0
  let dst := s.argWord t ch 1
  let count := s.argWord t ch 2
  let stile := s.argWord t ch 3
  let o := s.owner 6 slot
  let num := BitVec.ofNat 64 (slot % 1024)
  if !(s.groupOf t).chanmask.getLsbD (ch % 64) then some (cOwner, ea, [])
  else if o.tag ≠ t.pstat.tag then some (cOwner, num, [])
  else if o.world ≠ t.pstat.world then some (cWorld, num, [])
  else match x.badWord with
    | some i => some (cIllegal, BitVec.ofNat 64 (i * 2 ^ 16 + slot % 1024), [])
    | none =>
      if count.toNat = 0 ∨ 65536 < count.toNat ∨ 2 ^ 32 ≤ x.xbytes count.toNat then some (cIllegal, count, [])
      else match s.stileKeys t stile with
        | .error c => some (c, stile, [])
        | .ok _ => match x.badStride with
          | some v => some (cBlock, v, [])
          | none =>
            let sa := x.sources src count.toNat
            let da := x.dests dst count.toNat
            let sf := s.ferryFails t x.skind needR sa
            let df := s.ferryFails t x.dkind needW da
            match lowestFail sf with
            | some f => some (f.cause, BitVec.ofNat 64 f.addr, vecFor f (sf ++ df))
            | none => match lowestFail df with
              | some f => some (f.cause, BitVec.ofNat 64 f.addr, vecFor f df)
              | none =>
                let win (g : Bool) (need : Nat) (as : List Nat) : List Nat := as.filter fun a =>
                  match s.ferryByte t g need a with | .ok k => inWindow k | .error _ => false
                match (win x.skind needR sa ++ win x.dkind needW da).min? with
                | some a => some (cTbProt, BitVec.ofNat 64 a, [])
                | none => none

/-- The 64 KiB pages of a G range with the keys that they translate to, and the slots used. -/
def State.ferryPages (s : State) (t : Team) (g : Bool) (need : Nat) (as : List Nat) : List (Nat × Nat) × List Nat :=
  if !g then ([], [])
  else
    let pages := (as.map (· / 2 ^ 16)).eraseDups
    (pages.filterMap fun p => match s.translate t.gq t.pstat.tag t.pstat.world need (p * 2 ^ 16) with
        | .ok k => some (p, k)
        | .error _ => none,
     pages.filterMap fun p =>
       (s.tlb.find? fun e => decide (e.1 / 512 = t.gq) && e.2.hits t.pstat.tag t.pstat.world (p * 2 ^ 16)).map Prod.fst)

/-- The transfer that an accepted go describes. -/
def State.makeTransfer (s : State) (t : Team) (ch slot : Nat) : Transfer :=
  let x : Template := ⟨(List.range 8).map (s.templateWord t slot)⟩
  let src := s.argWord t ch 0
  let dst := s.argWord t ch 1
  let count := (s.argWord t ch 2).toNat
  let sp := s.ferryPages t x.skind needR (x.sources src count)
  let dp := s.ferryPages t x.dkind needW (x.dests dst count)
  let r : Transfer :=
    { team := s.cur, pc := t.pc, seq := t.seqctr, tag := t.pstat.tag, world := t.pstat.world, core := t.core,
      tmpl := x.words, src := src, dst := dst, count := count,
      stile := scratchBase + (sFlat t.core (s.argWord t ch 3).toNat).getD 0, born := s.cycle, tick := s.ticks,
      pages := sp.1 ++ dp.1, slots := (sp.2 ++ dp.2).eraseDups }
  let lines := ((x.dests dst count).map fun a => lineOf (r.key x.dkind a))
  { r with lines := lines.eraseDups.map fun l => (l, lines.count l) }

/-- A store to a channel or template word; a store to GO is an engine command. -/
def State.windowStore (s : State) (ea v : Word) (release : Option Nat) (w : WindowAt) : State :=
  let t := s.team
  let put (x : WriteWhat) : State :=
    if t.binsAhead release.isSome [] then s else s.setTeam (t.addWrites 0 s.cycle release [(x, none)]).advance
  if w.tmpl then put (.template w.unit w.word v)
  else if w.word < 4 then put (.arg w.unit w.word v)
  else if w.word ≠ 4 then s.setTeam t.advance
  else
    let c := s.channel w.unit
    if c.busy || t.binsAhead true [] then s
    else if 1024 ≤ v.toNat then s.trap cIllegal v
    else
      let slot := 1024 * w.core + v.toNat
      match s.goFault t ea w.unit slot with
      | some (cause, val, vec) => s.trapVec cause val vec
      | none =>
        let s' := s.putChannel w.unit { c with seq := t.seqctr, busy := true, cancelled := false,
                                               run := some (s.makeTransfer t w.unit slot) }
        s'.setTeam { (t.addWrites 0 s.cycle release [(.go w.unit v, none)]) with
          seqctr := t.seqctr + 1 }.advance

/-! ### The engine -/

/-- FERRY_GO: the go store has left the queue, and the transfer starts; each source sector is read now or at its first
use (R113). -/
def execFerryGo (s : State) : Out :=
  .next <|
    let c := s.channel s.unit
    match c.run with
    | none => s
    | some r =>
      if !r.armed || r.started then s
      else
        let secs := (((r.template.sources r.src r.count).map fun a => sectorOf (r.key r.template.skind a)).eraseDups).filter
          fun sec => !s.transferHeld r.team r.born (32 * sec) && !s.fabricHeld [32 * sec] && !s.unreachable (32 * sec)
        let now := secs.filter fun sec => pick s.free 13 sec
        let r := now.foldl (fun r sec => r.read s sec) { r with started := true }
        ((s.putChannel s.unit { c with run := some r }).fresh).checkTags (now.map (32 * ·))

/-- The stile of a transfer is still its tenant's (R345). -/
def State.stileOwned (s : State) (r : Transfer) : Bool :=
  (s.bankCause r.tag r.world (bankOf (r.stile - scratchBase))).isNone

/-- A byte of a host, pool or peer home. -/
def offDevice (k : Nat) : Bool :=
  if scratchBase ≤ k then false else match region k with | .window | .host => true | _ => false

/-- A line whose home, or one of whose sources still to be read, fails (R344, R454). -/
def State.lineFails (s : State) (line : Nat) (secs : List Nat) : Bool :=
  let ks := (128 * line) :: secs.map (32 * ·)
  ks.any s.unreachable || (ks.any offDevice && pick s.free 14 line)

/-- The source sectors of a line that have not been read yet. -/
def Transfer.unread (r : Transfer) (line : Nat) : List Nat :=
  (r.lineSectors line).filter fun sec => !(r.cache.any fun c => c.1 == sec)

/-- A drain's line that the transfer would read or write holds it (R114). -/
def State.lineHeld (s : State) (r : Transfer) (line : Nat) : Bool :=
  ((128 * line) :: (r.unread line).map (32 * ·)).any (s.transferHeld r.team r.born)

/-- FERRY_LINE_PERFORMED: line `item` of channel `unit`. -/
def execFerryLinePerformed (s : State) : Out :=
  .next <|
    let c := s.channel s.unit
    match c.run with
    | none => s
    | some r =>
      match r.lines.find? fun l => l.1 == s.item with
      | none => s
      | some (line, n) =>
        if !r.started then s
        else
          let unread := r.unread line
          let failed := s.lineFails line unread
          let held := s.lineHeld r line
          let r := if failed then r else unread.foldl (fun r sec => r.read s sec) r
          let (bs, poisoned) := r.lineBytes s.free line
          if held || s.fabricHeld ((128 * line) :: unread.map (32 * ·)) then s
          else if s.forwarderFull ((if failed then [] else bs.map Prod.fst) ++ keysFrom r.stile 16) then s
          else
            let r' := { r with lines := r.lines.filter fun l => l.1 != line }
            let c' := if r'.lines.isEmpty then { c with busy := false, run := none } else { c with run := some r' }
            let s := (s.putChannel s.unit c').fresh
            let s := if failed then s.countDrain 1 0
              else (s.perform bs true).poisonSectors poisoned
            let bits := (if failed then [stFabric] else []) ++ (if !failed && !poisoned.isEmpty then [stPoison] else [])
            let s := if failed then s else s.countEvent r.core r.tag 6 n
            let s := if s.stileOwned r then s.countBytes r.stile n bits r.pc r.seq else s
            if failed then s else s.checkTags (unread.map (32 * ·))

end Sys2Proof.Machine
end

