-- ==== Sys2Proof/Machine/Sync.lean ====
section
/-!
DEFINITION. Machine/Sync.lean: fences (R262), barriers (R263 to R265), `yield` and `mwait` (R268, R269), and the
subscription instructions (R270, R271, R348, R349).
-/

namespace Sys2Proof.Machine

/-! ### Fences -/

/-- A reduction line to which the team contributed (R121). -/
def State.contributed (s : State) (id : Nat) : Bool := s.redbuf.any fun r => r.2.any fun l => l.teams.contains id

/-- Subscriptions of the team's tag and world: only they can carry its tenant's writes. -/
def PostEntry.ofTenant (p : PostEntry) (t : Team) : Bool := p.state != 0 && p.tag == t.pstat.tag && p.world == t.pstat.world

/-- Postcards that a release at gang scope waits for (R118). -/
def State.cardsPending (s : State) (t : Team) : Bool :=
  s.posts.any fun x => x.2.ofTenant t && (x.2.openCard.isSome || !x.2.closed.isEmpty)

/-- A release at gang scope closes the open postcards (R117), each as soon as the forwarder has a place for it (R352). -/
def State.closeCards (s : State) (t : Team) : State :=
  s.posts.foldl (fun s x =>
    let p := s.post x.1
    if p.ofTenant t && decide (s.closedCards (x.1 / 32) < 64) then s.putPost x.1 p.close else s) s

/-- The waits of R262: none when the fence is through, else the state in which it is held. Every fence waits for the team's
returning atomics: after one of them a `.acq` fence acts as its acquire (R104, R105). -/
def State.fenceWait (s : State) (rel : Bool) (scope : Nat) : Option State :=
  let t := s.team
  if !t.laneq.isEmpty then some s
  else if rel && !t.sdq.isEmpty then some s
  else if t.sdq.any WriteOp.returns then some s
  else if decide (1 ≤ scope) && s.contributed s.cur then some (s.sendLines fun l => l.teams.contains s.cur)
  else if decide (2 ≤ scope) && s.cardsPending t then some (s.closeCards t)
  else none

def execFence (scope : BitVec 4) (ord : BitVec 2) (s : State) : Out :=
  guarded (.fence scope ord) s (.next <|
    match s.fenceWait (decide (2 ≤ ord.toNat)) scope.toNat with
    | some s' => s'
    | none => s.upd fun t => { t.advance with stale := if ord = 3#2 then [] else t.stale })

/-! ### Barriers -/

def Group.bar (g : Group) (n : Nat) : Barrier := Store.get {} g.bars n
def Group.putBar (g : Group) (n : Nat) (b : Barrier) : Group := { g with bars := Store.set {} g.bars n b }

/-- The groups of a group's gang, or the group alone. -/
def State.gangOf (s : State) (gid : Nat) : List Nat :=
  let g := s.groupAt gid
  match g.gang with
  | none => [gid]
  | some x => (s.groups.filter fun y => y.2.alive && y.2.grid == g.grid && y.2.gang == some x).map Prod.fst

/-- The groups of a group's gang, with those that have exited: what they lost before the gang barrier completes is still to be
reported (R265). -/
def State.gangEver (s : State) (gid : Nat) : List Nat :=
  let g := s.groupAt gid
  match g.gang with
  | none => [gid]
  | some x => (s.groups.filter fun y => y.2.grid == g.grid && y.2.gang == some x).map Prod.fst

/-- The groups whose barriers a phase of this kind joins. -/
def State.barGroups (s : State) (gid : Nat) (gang : Bool) : List Nat := if gang then s.gangEver gid else [gid]

/-- A team of the expected set (R263). -/
def State.expected (s : State) (id : Nat) : Bool := (s.teamAt id).life != .exited && (s.teamAt id).life != .absent

/-- The status word (R265). -/
def statusWord (bs : List Barrier) : Word :=
  let teams := bs.foldl (fun x b => x ||| b.teams) 0#16
  let warps := bs.foldl (fun x b => x ||| b.warps) 0#32
  BitVec.ofNat 64 (warps.toNat * 2 ^ 32 + teams.toNat * 2 ^ 16 + bit (bs.any Barrier.departed) 1 + bit (teams != 0#16) 0)

/-- A waiting team departs; a Saved one at its restore (R264). -/
def Team.depart (t : Team) (n : Nat) (x : Word) : Team :=
  match t.barWait with
  | some (m, _, d) =>
    if m ≠ n then t
    else if t.life = .saved then { t with barWait := none, resumeD := some (d, x) }
    else { ((t.setReg d x).stepDone) with barWait := none, pc := t.pc + 4#64 }
  | none => t

/-- The phase of barrier n completes when every team of the expected set has arrived. -/
def State.tryBarrier (s : State) (gid n : Nat) : State :=
  match ((s.groupAt gid).bar n).kind with
  | none => s
  | some gang =>
    let gs := s.barGroups gid gang
    let arrived := gs.flatMap fun g => ((s.groupAt g).bar n).arrived
    let want := (gs.flatMap fun g => (s.groupAt g).members).filter s.expected
    if want.all arrived.contains then
      let x := statusWord (gs.map fun g => (s.groupAt g).bar n)
      let s := gs.foldl (fun s g => s.putGroup g ((s.groupAt g).putBar n {})) s
      (arrived.filter s.expected).foldl (fun s id => s.modTeam id fun t => t.depart n x) s
    else s

/-- A phase of the other kind is open (R263), in a group of the gang whose teams have all exited too. -/
def State.barClash (s : State) (gid n : Nat) (gang : Bool) : Bool :=
  (s.gangEver gid).any fun g => match ((s.groupAt g).bar n).kind with
    | none => false
    | some k => k != gang

def State.barrier (s : State) (word : Nat) (gang : Bool) (d : BitVec 6) (n : Nat) : State :=
  let t := s.team
  let g := s.groupOf t
  if g.nbar ≤ n ∨ (gang ∧ g.gang.isNone) then s.illegal word
  else match s.fenceWait true (if gang then 2 else 1) with
    | some s' => s'
    | none =>
      if s.barClash t.group n gang then s.illegal word
      else
        let b := g.bar n
        let s := s.putGroup t.group (g.putBar n { b with kind := some gang, arrived := b.arrived ++ [s.cur] })
        (s.upd fun t => { t with barWait := some (n, gang, d), stale := [] }).tryBarrier t.group n

def execBar (d : BitVec 6) (n : BitVec 4) (s : State) : Out := .next (s.barrier (encode (.bar d n)) false d n.toNat)
def execBarGang (d : BitVec 6) (n : BitVec 4) (s : State) : Out :=
  .next (s.barrier (encode (.barGang d n)) true d n.toNat)

/-! ### Yield and monitor -/

/-- The yield goes on at YIELDPC with D, at once, or, under P, is saved there (R268). -/
def Team.yieldTo (t : Team) (d : BitVec 6) (x : Word) : Team :=
  let u := { (t.setReg d x) with pc := t.yieldpc, pstat := { t.pstat with p := false } }
  if t.pstat.p then { u with saveReq := some 1, deadline := none } else u

/-- The team parks; with P set it is saved at once (R268). -/
def Team.parkOn (t : Team) (p : Park) : Team :=
  if t.pstat.p then { t with park := some p, saveReq := some 3, deadline := none } else { t with park := some p }

def State.yieldTest (s : State) (d a b : BitVec 6) : State :=
  let t := s.team
  if a = 0#6 then s.setTeam (t.yieldTo d 3)
  else match s.stileKeys t (t.reg a) with
    | .error c => s.trap c (t.reg a)
    | .ok keys =>
      if t.queuedWrite keys ∨ s.scalarWait t keys then s
      else if keys.any s.poisoned then s.poisonStop keys (t.reg a).toNat
      else
        let x := s.stile (keys.headD 0)
        let seen := (t.reg b).toNat % 2
        if t.pstat.p then s.setTeam (t.yieldTo d 2)
        else if x.phase ≠ seen then s.setTeam (t.yieldTo d 1)
        else s.setTeam (t.parkOn (.stile (keys.headD 0) (seen = 1) d (t.reg a)))

def execYield (d a b : BitVec 6) (s : State) : Out :=
  guarded (.yield d a b) s (.next <|
    let t := s.team
    match s.orphanToken t with
    | some k => s.trap cTokenCancel (tokenCancelVal t k)
    | none =>
      if !t.laneq.isEmpty || !t.tokensZero then s
      else if t.yieldpc.toNat % 4 ≠ 0 then s.trap cAlign t.yieldpc
      else if s.isExt t (t.yieldpc - 4#64).toNat then
        s.raise { t.scalarPoint cBadExt t.pc with pc := t.yieldpc }
      else s.yieldTest d a b)

def execMwait (d a b : BitVec 6) (s : State) : Out :=
  .next <|
    let t := s.team
    let ea := t.reg a
    let c := s.checkS t.pstat.tag t.pstat.world t.core 0 ea.toNat 8
    if ea.toNat % 8 ≠ 0 then s.trap cAlign ea
    else match worst c.fails with
      | some f => s.trap f.cause ea
      | none =>
        if s.scalarWait t c.keys then s
        else if s.loadPoisoned t c.keys then s.poisonStop c.keys ea.toNat
        else if BitVec.ofNat 64 (s.load t c.keys) ≠ t.reg b then s.setTeam (t.setReg d 1).advance
        else s.setTeam (t.parkOn (.watch (sectorOf (c.keys.headD 0)) d))

/-! ### Subscriptions -/

/-- The first byte of each bank of a region. -/
def regionBanks (base len : Nat) : List Nat :=
  base :: ((List.range (len / 2 ^ 19 + 2)).map fun i => (base / 2 ^ 19 + 1 + i) * 2 ^ 19).filter (· < base + len)

/-- The first bank of a region that fails R87 or R88: cause and TRAPVAL, the region's first byte in that bank, or, for an
address that R87 rejects, the effective address, which is the region's base (R87, R270). -/
def State.regionFail (s : State) (t : Team) (base len : Nat) : Option (Nat × Nat) :=
  (regionBanks base len).findSome? fun a => match sFlat t.core a with
    | none => some (cOwner, base)
    | some f => (s.bankCause t.pstat.tag t.pstat.world (bankOf f)).map fun c => (c, a)

/-- The core that holds a region, if one core holds all of it. -/
def regionCore (own base len : Nat) : Option Nat :=
  match sFlat own base, sFlat own (base + len - 1) with
  | some x, some y => if x / 2 ^ 25 = y / 2 ^ 25 then some (x / 2 ^ 25) else none
  | _, _ => none

/-- The lowest-numbered Free entry of a core's table. -/
def State.freePost (s : State) (core : Nat) : Option Nat :=
  (List.range 32).find? fun e => (s.post (32 * core + e)).state == 0

/-- The handle of an entry (R270). -/
def postHandle (gen core e : Nat) : Word := BitVec.ofNat 64 (gen * 2 ^ 16 + core * 2 ^ 8 + e)

def statusOf (n : Nat) : Word := BitVec.ofNat 64 (2 ^ 63 + n)

def execSub (d a b : BitVec 6) (s : State) : Out :=
  .next <|
    let t := s.team
    let pub := (t.reg a).toNat
    let sub := fld (t.reg b).toNat 0 32
    let len := fld (t.reg b).toNat 32 32
    let lenOk := len % 128 = 0 ∧ 128 ≤ len ∧ len ≤ 2 ^ 25
    if 2 ^ 32 ≤ pub then s.illegal (encode (.sub d a b))
    else if pub % 128 ≠ 0 then s.trap cAlign (BitVec.ofNat 64 pub)
    else if sub % 128 ≠ 0 then s.trap cAlign (BitVec.ofNat 64 sub)
    else if ¬ lenOk then s.trap cAlign (BitVec.ofNat 64 len)
    else match (s.regionFail t pub len).or (s.regionFail t sub len) with
      | some (c, x) => s.trap c (BitVec.ofNat 64 x)
      | none => match regionCore t.core pub len, regionCore t.core sub len with
        | some pc, some sc =>
          if sc ≠ t.core then s.setTeam (t.setReg d (statusOf 3)).advance
          else if pc = t.core then s.setTeam (t.setReg d (statusOf 2)).advance
          else match s.freePost pc with
            | none => s.setTeam (t.setReg d (statusOf 1)).advance
            | some e =>
              let g := (s.post (32 * pc + e)).gen + 1
              let s := s.putPost (32 * pc + e)
                { state := 1, gen := g, tag := t.pstat.tag, world := t.pstat.world, pub := (sFlat t.core pub).getD 0,
                  sub := (sFlat t.core sub).getD 0, len := len }
              s.setTeam (t.setReg d (postHandle g.toNat pc e)).advance
        | _, _ => s.setTeam (t.setReg d (statusOf 3)).advance

/-- The fields of a handle, when every other bit is 0 and the core exists. -/
def handleFields (h : Nat) : Option (Nat × Nat) :=
  let core := fld h 8 6
  if h = fld h 16 8 * 2 ^ 16 + core * 2 ^ 8 + fld h 0 5 ∧ core < 48 then some (32 * core + fld h 0 5, fld h 16 8) else none

/-- The team has a queued write into the published region. -/
def Team.queuedIn (t : Team) (p : PostEntry) : Bool :=
  t.sdq.any fun w => w.keys.any fun k => match flatOf k with
    | some f => decide (p.pub ≤ f) && decide (f < p.pub + p.len)
    | none => false

/-- Free an entry: GEN is kept (R349). DESIGN CHOICE (log entry 90, unsafe): its other fields hold 0, and the ownership view shows 0 for
all of a Free entry, GEN too; the spec does not say what a Free entry holds or shows beside the GEN that it keeps. -/
def PostEntry.free (p : PostEntry) : PostEntry := { gen := p.gen }

/-- `subflush`, and `unsub` with `stop`: its end instant is when the open postcard closes and the entry stops accepting
writes (state 3); it completes when every postcard has been applied. -/
def State.postEnd (s : State) (word : Nat) (stop : Bool) (d a : BitVec 6) : State :=
  let t := s.team
  let h := t.reg a
  let done (s : State) (x : Word) : State :=
    s.upd fun t => { (t.setReg d x).advance with going := none, flush := none }
  match handleFields h.toNat with
  | none => s.illegal word
  | some (i, gen) =>
    let p := s.post i
    let wait (s : State) : State := if stop then s else s.upd fun t => { t with flush := some (i, false) }
    if !stop && t.flush == some (i, true) then done s 1
    else if p.state = 0 ∨ p.gen.toNat ≠ gen then done s 2
    else if p.tag ≠ t.pstat.tag then s.trap cOwner h
    else if p.world ≠ t.pstat.world then s.trap cWorld h
    else if p.state = 2 then done (if stop then s.putPost i p.free else s) 1
    else if p.state = 3 then
      if !p.closed.isEmpty then wait s
      else done (if stop then s.putPost i p.free else s) 0
    else if t.queuedIn p then wait s
    else if stop then
      if p.closed.isEmpty && p.openCard.isNone then done (s.putPost i p.free) 0
      else if p.openCard.isSome && decide (64 ≤ s.closedCards (i / 32)) then s
      else (s.putPost i { p.close with state := 3 }).upd fun t => { t with going := some (BitVec.ofNat 32 word) }
    else if p.closed.isEmpty && p.openCard.isNone then done s 0
    else wait s

def execSubflush (d a : BitVec 6) (s : State) : Out := .next (s.postEnd (encode (.subflush d a)) false d a)
def execUnsub (d a : BitVec 6) (s : State) : Out := .next (s.postEnd (encode (.unsub d a)) true d a)

end Sys2Proof.Machine
end

