-- ==== Sys2Proof/Machine/System.lean ====
section
/-!
DEFINITION. Machine/System.lean: the format and seed instructions (R187), control registers (R22, R23, R190), and the
translation buffer (R186, R191 to R194, with the frame checks of R259, R333, R386 and R387).
-/

namespace Sys2Proof.Machine

/-! ### Format and seed -/

/-- A value that FMT may hold (R65). -/
def fmtOk (x : Word) : Bool :=
  decide (fld x.toNat 0 3 ≠ 0) && decide (fld x.toNat 5 2 ≠ 3) && decide (fld x.toNat 7 3 ≤ 5) && decide (x.toNat < 2 ^ 18)

def execFmtset (a : BitVec 6) (s : State) : Out :=
  .next <|
    let x := s.team.reg a
    if fmtOk x then s.upd fun t => { t.advance with fmt := x } else s.illegal (encode (.fmtset a))

def execFmtget (d : BitVec 6) (s : State) : Out := .next (s.upd fun t => (t.setReg d t.fmt).advance)

def execSrseed (a b : BitVec 6) (s : State) : Out :=
  .next (s.upd fun t => { t.advance with srseed := t.reg a, srctr := t.reg b })

/-! ### Control registers -/

/-- The function that a queue is bound to, if any (R374). -/
def Queue.function (q : Queue) : Option Nat := if q.vf.toNat < 64 then some q.vf.toNat else none
def State.queueAt (s : State) (q : Nat) : Queue := Store.get {} s.queues q
def State.putQueue (s : State) (q : Nat) (x : Queue) : State := { s with queues := Store.set {} s.queues q x }
def State.gridAt (s : State) (g : Nat) : Grid := Store.get {} s.grids g
def State.putGrid (s : State) (g : Nat) (x : Grid) : State := { s with grids := Store.set {} s.grids g x }
def State.timeBlock (s : State) (f : Nat) : TimeBlock := Store.get {} s.times f

/-- guest(T) (R464). -/
def TimeBlock.guest (b : TimeBlock) (now : Nat) : Word :=
  BitVec.ofNat 64 (b.offset.toNat + wrapTo ((now : Int) - (if b.hide then (b.stolen : Int) else 0)) 64 * b.scale.toNat / 2 ^ 32)

/-- TIME as a team reads it (R465). -/
def State.teamTime (s : State) (t : Team) : Word :=
  match (s.queueAt (s.gridAt (s.groupOf t).grid).queue).function with
  | some f => (s.timeBlock f).guest s.now
  | none => BitVec.ofNat 64 s.now

/-- TEAMINFO (R21). -/
def Team.info (t : Team) : Word :=
  BitVec.ofNat 64 (t.seqctr.toNat * 2 ^ 32 + t.nvreg * 2 ^ 24 + bit t.crewed.isSome 23 + t.crewed.getD 0 * 2 ^ 20
    + t.core * 2 ^ 14 + t.quarter * 2 ^ 12 + t.index * 2 ^ 8 + t.nwarp)
/-- GROUPINFO. DESIGN CHOICE (log entry 87, unsafe): of a gang index of 2^16 or more, GANG holds the low 16 bits. -/
def Group.info (g : Group) : Word :=
  BitVec.ofNat 64 (bit g.gang.isSome 56 + g.gang.getD 0 % 2 ^ 16 * 2 ^ 40 + g.nteam * 2 ^ 32 + g.linear)

/-- A register that R22 marks PRIV at user level; `w` for a write, which PSTAT also refuses (R23). -/
def privReg (r : Nat) (w : Bool) : Bool := (decide (4 ≤ r) && decide (r ≤ 9)) || r == 0xF || (w && r == 3)

/-- The entry of TRAPVEC at its cursor (R303). -/
def Team.trapvecEntry (t : Team) : Word := t.trapvec.getD t.trapcur 0

/-- What `cget` reads. -/
def State.control (s : State) (r : Nat) : Word :=
  let t := s.team
  if r = 0 then t.fmt
  else if r = 1 then t.srseed
  else if r = 2 then t.srctr
  else if r = 3 then t.pstat.word
  else if r = 4 then t.trapcause
  else if r = 5 then t.trappc
  else if r = 6 then t.trapseq
  else if r = 7 then t.traplidx.setWidth 64
  else if r = 8 then t.trapval
  else if r = 9 then t.trapvecEntry
  else if r = 0xA then t.yieldpc
  else if r = 0xB then s.teamTime t
  else if r = 0xC then t.info
  else if r = 0xD then (s.groupOf t).info
  else if r = 0xE then t.histbase.setWidth 64
  else (s.tenantAt t.pstat.tag.toNat).page

def execCget (d r : BitVec 6) (s : State) : Out :=
  guarded (.cget d r) s (.next <|
    if s.team.pstat.pl = 0#2 ∧ privReg r.toNat false then s.priv (encode (.cget d r))
    else
      let x := s.control r.toNat
      s.upd fun t =>
        let t := if r = 9#6 then { t with trapcur := t.trapcur + 1 } else t
        (t.setReg d x).advance)

/-- The test of R84 for the 1 KiB region at `x`: none when it passes. -/
def State.histCause (s : State) (tag : BitVec 16) (world : BitVec 8) (core x : Nat) : Option Nat :=
  if x % 1024 ≠ 0 then some cAlign
  else match sFlat core x with
    | none => some cOwner
    | some f => (s.bankCause tag world (bankOf f)).map fun _ => cOwner

/-- A write that R190 gives a check of its own: the trap, and otherwise the team after it. -/
def State.setControl (s : State) (t : Team) (r : Nat) (x : Word) : Except (Nat × Word) Team :=
  if r = 0 then (if fmtOk x then .ok { t with fmt := x } else .error (cIllegal, 0))
  else if r = 1 then .ok { t with srseed := x }
  else if r = 2 then .ok { t with srctr := x }
  else if r = 3 then .ok { t with pstat := t.pstat.write x }
  else if r = 4 then .ok { t with trapcause := BitVec.ofNat 64 (fld x.toNat 0 9) }
  else if r = 5 then .ok { t with trappc := x }
  else if r = 6 then .ok { t with trapseq := x }
  else if r = 7 then .ok { t with traplidx := x.setWidth 32 }
  else if r = 8 then .ok { t with trapval := x }
  else if r = 0xA then .ok { t with yieldpc := x }
  else if r = 0xE then
    match s.histCause t.pstat.tag t.pstat.world t.core (x.setWidth 32).toNat with
    | some c => .error (c, x)
    | none => .ok { t with histbase := x.setWidth 32 }
  else .ok t

def execCset (a r : BitVec 6) (s : State) : Out :=
  guarded (.cset a r) s (.next <|
    let t := s.team
    if t.pstat.pl = 0#2 ∧ privReg r.toNat true then s.priv (encode (.cset a r))
    else match s.setControl t r.toNat (t.reg a) with
      | .error (c, v) => if c = cIllegal then s.illegal (encode (.cset a r)) else s.trap c v
      | .ok t => s.setTeam t.advance)

/-! ### The translation buffer -/

/-- The 64 KiB frames that an entry covers. -/
def TlbEntry.frames (e : TlbEntry) : List Nat :=
  (List.range (2 ^ (e.shift - 16))).map fun i => fld e.w1.toNat 16 36 * 2 ^ 16 + i * 2 ^ 16

/-- The entry's own fields and the map check of R191. -/
def TlbEntry.formOk (e : TlbEntry) : Bool :=
  decide (fld e.w0.toNat 6 10 = 0) && decide (fld e.w1.toNat 52 12 = 0) && decide (fld e.w1.toNat 0 16 = 0)
    && decide (fld e.w0.toNat 4 2 ≠ 3) && canonical e.w0.toNat
    && decide (e.w0.toNat / 2 ^ 16 * 2 ^ 16 % 2 ^ e.shift = 0) && decide (e.w1.toNat % 2 ^ e.shift = 0)
    && (!e.w0.getLsbD 0 || e.frames.all fun p => region p != .outside)

/-- Some entry of a range of an ownership table has the tag, and some has the world too: what the check of a shared frame
asks (R259, R333). -/
def State.sharedCause (s : State) (tag : BitVec 16) (world : BitVec 8) (kind first n : Nat) : Option Nat :=
  let os := ((List.range n).map fun i => s.owner kind (first + i)).filter fun o => o.tag == tag
  if os.isEmpty then some cOwner else if os.any (fun o => o.world == world) then none else some cWorld

/-- The remote-range entries that are valid and cover a frame of the window or of host memory (R387), as word 1. -/
def State.rangesAt (s : State) (p : Nat) : List Nat :=
  (List.range 4096).filterMap fun n =>
    let w := (Store.get 0 s.remotes (2 * n)).toNat
    if w % 2 = 1 ∧ fld w 30 34 ≤ p / 2 ^ 30 ∧ p / 2 ^ 30 ≤ fld w 30 34 + fld w 14 16 then
      some (Store.get 0 s.remotes (2 * n + 1)).toNat else none

/-- The check of one frame by the rules of its own range (R191). -/
def State.frameCause (s : State) (tag : BitVec 16) (world : BitVec 8) (w0 : Word) (p : Nat) : Option Nat :=
  match region p with
  | .near | .far =>
    let o := s.owner 2 (p / 2 ^ 16)
    if o.tag ≠ tag then some cOwner else if o.world ≠ world then some cWorld else none
  | .aperture c => s.sharedCause tag world 5 (64 * c) 64
  | .template c => s.sharedCause tag world 6 (1024 * c) 1024
  | .view => if w0.getLsbD 2 || w0.getLsbD 3 then some cOwner else none
  | .window | .host =>
    let rs := (s.rangesAt p).filter fun w => fld w 16 16 == tag.toNat
    if rs.isEmpty then some cOwner else if rs.any (fun w => fld w 8 8 == world.toNat) then none else some cWorld
  | .outside => some cOwner

/-- The frame checks of a valid entry, OWNER for every frame before WORLD: cause and physical address. -/
def State.framesCause (s : State) (tag : BitVec 16) (world : BitVec 8) (e : TlbEntry) : Option (Nat × Nat) :=
  if !e.w0.getLsbD 0 then none
  else
    let bad := e.frames.filterMap fun p => (s.frameCause tag world e.w0 p).map fun c => (c, p)
    (bad.find? fun x => x.1 == cOwner).or bad.head?

/-- The owner of a slot (R191). -/
def State.slotCause (s : State) (tag : BitVec 16) (world : BitVec 8) (gq slot : Nat) : Option Nat :=
  let o := s.owner 3 (512 * gq + slot)
  if o.tag ≠ tag then some cOwner else if o.world ≠ world then some cWorld else none

/-- A key lies in one of the frames. -/
def Replace.covers (r : Replace) (k : Nat) : Bool := r.frames.any fun f => decide (f.1 ≤ k) && decide (k < f.1 + f.2)

/-- The keys through which a queued write was translated: those of its bytes, and, for a store to an aperture or template
frame, the frame's. -/
def WriteOp.frameKeys (w : WriteOp) : List Nat :=
  match w.what with
  | .arg ch _ _ => [apertureFrame (ch / 64)]
  | .go ch _ => [apertureFrame (ch / 64)]
  | .template slot _ _ => [templateFrame (slot / 1024)]
  | _ => w.keys

/-- What was translated through the old contents of slots of a quarter (R194): the queued writes of its teams into the old
frames, and the transfers that keep those translations. -/
def State.replacedAt (s : State) (gq : Nat) (slots : List Nat) : Replace :=
  let olds := (slots.map fun i => (Store.get {} s.tlb (512 * gq + i) : TlbEntry)).filter fun e => e.w0.getLsbD 0
  let r : Replace := { frames := olds.map fun e => (fld e.w1.toNat 16 36 * 2 ^ 16, 2 ^ e.shift) }
  { r with
    writes := s.teams.flatMap fun x =>
      if x.2.gq = gq ∧ x.2.life = .resident then
        ((x.2.sdq.filter fun w => w.frameKeys.any r.covers).map fun w => (x.1, w.id)) else []
    runs := s.channels.filterMap fun c => match c.2.run with
      | some q => if q.slots.any (fun k => slots.any fun i => 512 * gq + i == k) then some (c.1, c.2.seq) else none
      | none => none }

/-- The same for the executing team's quarter. -/
def State.replaced (s : State) (slots : List Nat) : Replace := s.replacedAt s.team.gq slots

/-- Everything translated through the old contents has been performed. -/
def State.replaceDone (s : State) (r : Replace) : Bool :=
  !(r.writes.any fun x => (s.teamAt x.1).sdq.any fun w => w.id == x.2)
    && !(r.runs.any fun x => let c := s.channel x.1; c.run.isSome && c.seq == x.2)
    && !(r.loads.any fun x => ((s.teamAt x.1).op? x.2).isSome)
    && !(s.redbuf.any fun x => x.2.any fun l => r.covers (128 * l.line))

/-- After the replacement instant: complete, or wait and send the reduction lines of the old frames. -/
def State.endReplace (s : State) (r : Replace) : State :=
  if s.replaceDone r then s.upd fun t => { t.advance with replace := none, going := none }
  else s.sendLines fun l => r.covers (128 * l.line)

/-- The replacement instant: the slots take their new contents, once every earlier lane instruction has passed its
checks. -/
def State.replaceSlots (s : State) (word : Nat) (new : List (Nat × TlbEntry)) : State :=
  let t := s.team
  if !t.laneq.isEmpty then s
  else
    let r := s.replaced (new.map Prod.fst)
    let s := { s with tlb := Store.setAll {} s.tlb (new.map fun (x : Nat × TlbEntry) => (512 * t.gq + x.1, x.2)) }
    (s.setTeam { t with replace := some r, going := some (BitVec.ofNat 32 word) }).endReplace r

/-- An instruction on the translation buffer: at tenant level, and going on past its replacement instant. -/
def State.tlbOp (s : State) (word : Nat) (f : Team → State) : State :=
  let t := s.team
  if t.pstat.pl = 0#2 then s.priv word
  else match t.replace with
    | some r => s.endReplace r
    | none => f t

def execTlbw (d a b : BitVec 6) (s : State) : Out :=
  .next <| s.tlbOp (encode (.tlbw d a b)) fun t =>
    let slot := (t.reg d).toNat
    let e : TlbEntry := { w0 := t.reg a, w1 := t.reg b, tag := t.pstat.tag, world := t.pstat.world }
    if 512 ≤ slot ∨ !e.formOk then s.illegal (encode (.tlbw d a b))
    else match s.slotCause t.pstat.tag t.pstat.world t.gq slot with
      | some c => s.trap c (BitVec.ofNat 64 slot)
      | none => match s.framesCause t.pstat.tag t.pstat.world e with
        | some (c, p) => s.trap c (BitVec.ofNat 64 p)
        | none => s.replaceSlots (encode (.tlbw d a b)) [(slot, e)]

/-- An invalid slot. -/
def TlbEntry.invalid (e : TlbEntry) : TlbEntry := { e with w0 := e.w0 &&& ~~~1#64 }

def execTlbi (a : BitVec 6) (s : State) : Out :=
  .next <| s.tlbOp (encode (.tlbi a)) fun t =>
    let x := (t.reg a).toNat
    let old (i : Nat) : TlbEntry := Store.get {} s.tlb (512 * t.gq + i)
    if x / 2 ^ 63 = 1 then
      if x ≠ 2 ^ 63 then s.illegal (encode (.tlbi a))
      else s.replaceSlots (encode (.tlbi a)) (((List.range 512).filter fun i =>
        (s.slotCause t.pstat.tag t.pstat.world t.gq i).isNone).map fun i => (i, (old i).invalid))
    else if 512 ≤ x then s.illegal (encode (.tlbi a))
    else match s.slotCause t.pstat.tag t.pstat.world t.gq x with
      | some c => s.trap c (BitVec.ofNat 64 x)
      | none => s.replaceSlots (encode (.tlbi a)) [(x, (old x).invalid)]

/-- `tlbr` of word 0 or word 1. -/
def State.tlbRead (s : State) (word : Nat) (d a : BitVec 6) (g : TlbEntry → Word) : State :=
  let t := s.team
  let x := (t.reg a).toNat
  if t.pstat.pl = 0#2 then s.priv word
  else if 512 ≤ x then s.illegal word
  else match s.slotCause t.pstat.tag t.pstat.world t.gq x with
    | some c => s.trap c (BitVec.ofNat 64 x)
    | none => s.setTeam (t.setReg d (g (Store.get {} s.tlb (512 * t.gq + x)))).advance

def execTlbrW0 (d a : BitVec 6) (s : State) : Out := .next (s.tlbRead (encode (.tlbrW0 d a)) d a TlbEntry.w0)
def execTlbrW1 (d a : BitVec 6) (s : State) : Out := .next (s.tlbRead (encode (.tlbrW1 d a)) d a TlbEntry.w1)

end Sys2Proof.Machine
end

