-- ==== Sys2Proof/Machine/Lost.lean ====
section
/-!
DEFINITION. Machine/Lost.lean: the runtime page of a tenant and its lost-property vector (R388, R393), tear-down of postcard
entries (R353), the instant at which a resource leaves its tag (R330, R391, R392), and replies (R390).
-/

namespace Sys2Proof.Machine

/-! ### The runtime page -/

/-- A 64-bit word written to memory by management. -/
def State.putWord (s : State) (k : Nat) (x : Nat) : State := s.perform (spread (keysFrom k 8) x) true

/-- The runtime page of a tag, when management has named one and the tenant still owns its frame. -/
def State.runtimePage (s : State) (tag : Nat) : Option Nat :=
  match (s.tenantAt tag).frame with
  | none => none
  | some p => if (s.owner 2 (p / 2 ^ 16)).tag.toNat = tag then some p else none

/-- A lost-property record (R393). -/
structure LostItem where
  resource : Nat
  reqid    : Nat := 0
  cause    : Nat
  hamper   : Nat := 2 ^ 64 - 1
  count    : Nat := 0
  len      : Nat := 0
  seq      : Nat := 0
  pc       : Word := 0
  gen      : Nat := 0
  trunc    : Bool := false
  time     : Nat

/-- The 64 bytes of a record as one number. -/
def LostItem.bits (r : LostItem) : Nat :=
  r.resource + (r.reqid * 2 ^ 32 + r.cause) * 2 ^ 64 + r.time % 2 ^ 64 * 2 ^ 128 + r.hamper * 2 ^ 192
    + (r.count * 2 ^ 32 + r.len) * 2 ^ 256 + r.seq * 2 ^ 32 * 2 ^ 320 + r.pc.toNat * 2 ^ 384
    + (r.gen * 2 ^ 8 + bit r.trunc 0) * 2 ^ 448

/-- The 64 bytes of record `i` of a vector with their values. -/
def recordBytes (page i bits : Nat) : List (Nat × Byte) := spread (keysFrom (page + 0x1000 + 64 * (i % 960)) 64) bits

/-- Begin a record of the vector of a tag, or count it when the ring is full. Until HEAD shows the record, each of its bytes
reads old or new (R395): some of them stand now, and `endRecord` writes them all. -/
def State.recordLost (s : State) (tag : Nat) (r : LostItem) : State :=
  match s.runtimePage tag with
  | none => s
  | some p =>
    let head := s.readNat (p + 0x800) 8 + (s.records.filter fun x => x.tag == tag).length
    let tail := s.readNat (p + 0x808) 8
    if (head + 2 ^ 32 - tail % 2 ^ 32) % 2 ^ 32 < 960 then
      let some' := (recordBytes p head r.bits).filter fun b => pick s.free 10 b.1
      { (s.perform some' true).fresh with records := s.records ++ [{ tag := tag, resource := r.resource, bits := r.bits }] }
    else s.putWord (p + 0x810) (s.readNat (p + 0x810) 8 + 1)

/-- The oldest record that is being written stands whole, and then HEAD advances (R393). -/
def State.endRecord (s : State) (r : LostRecord) (rest : List LostRecord) : State :=
  let s := { s with records := rest }
  match s.runtimePage r.tag with
  | none => s
  | some p =>
    let head := s.readNat (p + 0x800) 8
    (s.perform (recordBytes p head r.bits) true).putWord (p + 0x800) ((head + 1) % 2 ^ 32)

/-! ### Tear-down (R353) -/

/-- A postcard entry is torn down: its postcards are dropped. A `subflush` that waits for it will return D = 1 (R271). -/
def State.tearDown (s : State) (i : Nat) : State :=
  let p := s.post i
  if p.state = 0 ∨ p.state = 2 then s
  else
    let n := p.closed.length + (if p.openCard.isSome then 1 else 0)
    let s := s.putPost i { p with state := 2, openCard := none, closed := [], dropped := BitVec.ofNat 32 n }
    let s := { s with teams := s.teams.map fun (t : Nat × Team) =>
      (t.1, { t.2 with flush := t.2.flush.map fun (x : Nat × Bool) => (x.1, x.2 || x.1 == i) }) }
    s.countErr p.tag.toNat eDrops n

/-- The record of an entry that has been torn down (R353, R393). -/
def State.recordTorn (s : State) (i reqid time : Nat) : State :=
  let p := s.post i
  s.recordLost p.tag.toNat { resource := resKey 9 i, reqid := reqid, cause := 3, count := p.dropped.toNat,
                             gen := p.gen.toNat, time := time }

/-! ### A resource leaves its tag (R330, R391, R392) -/

/-- The entry's tag and world, from the table that holds them (R385). -/
def State.holder (s : State) (kind idx : Nat) : BitVec 16 × BitVec 8 :=
  if kind = 8 then
    let w := Store.get 0 s.remotes (2 * idx + 1)
    if (Store.get 0 s.remotes (2 * idx)).getLsbD 0 then (bfld w.toNat 16 16, bfld w.toNat 8 8) else (0, 0)
  else if kind = 9 then (let p := s.post idx; if p.state = 0 ∨ p.state = 2 then (0, 0) else (p.tag, p.world))
  else ((s.owner kind idx).tag, (s.owner kind idx).world)

/-- A range of keys. -/
structure KeyRange where
  base : Nat
  size : Nat

def KeyRange.has (r : KeyRange) (k : Nat) : Bool := decide (r.base ≤ k) && decide (k < r.base + r.size)

/-- Where a resource's bytes lie: a bank, a frame, a remote range. -/
def State.span (s : State) (kind idx : Nat) : KeyRange :=
  if kind = 1 then ⟨scratchBase + idx * 2 ^ 19, 2 ^ 19⟩
  else if kind = 2 then ⟨idx * 2 ^ 16, 2 ^ 16⟩
  else if kind = 8 then
    let w := (Store.get 0 s.remotes (2 * idx)).toNat
    ⟨fld w 30 34 * 2 ^ 30, (fld w 14 16 + 1) * 2 ^ 30⟩
  else ⟨0, 0⟩

/-- Every valid translation entry of a tag that names part of a range becomes invalid, on every quarter. -/
def State.unmap (s : State) (tag : BitVec 16) (r : KeyRange) : State :=
  { s with tlb := Store.setAll {} [] (s.tlb.map fun e =>
      let base := fld e.2.w1.toNat 16 36 * 2 ^ 16
      if e.2.w0.getLsbD 0 && e.2.tag == tag && decide (base < r.base + r.size) && decide (r.base < base + 2 ^ e.2.shift) then
        (e.1, e.2.invalid)
      else e) }

def State.invalidateSlot (s : State) (idx : Nat) : State :=
  { s with tlb := Store.set {} s.tlb idx (Store.get {} s.tlb idx : TlbEntry).invalid }

/-- The seizure instant: the entry's TAG becomes 0. What translates to the resource becomes invalid with it, since a frame leaves
its tag only after every entry that names it (R91; log entry 73). A postcard entry is torn down then, and keeps its TAG, under
which an `unsub` frees it (R271, R349; log entry 72). -/
def State.takeEntry (s : State) (kind idx cause : Nat) : State :=
  if kind = 8 then
    { s.unmap (s.holder 8 idx).1 (s.span 8 idx) with
        remotes := Store.set 0 s.remotes (2 * idx + 1) (Store.get 0 s.remotes (2 * idx + 1) &&& ~~~0xFFFF0000#64) }
  else if kind = 9 then s.tearDown idx
  else
    let o := s.owner kind idx
    let s := if kind = 2 then s.unmap o.tag (s.span 2 idx) else if kind = 3 then s.invalidateSlot idx else s
    s.setOwner kind idx { o with tag := 0, retired := o.retired || cause == 2 }

/-- A resource that is retired counts for the functions of its tag (R445). -/
def State.countRetired (s : State) (tag : BitVec 16) (cause : Nat) : State :=
  if cause = 2 then s.countErr tag.toNat eRetired 1 else s

/-- What crosses the fabric and satisfies `p` on one of its bytes: queued writes, loads, lines of the reduction buffers, and the
transfers that keep a translation into `r`. -/
def State.crossing (s : State) (r : KeyRange) (p : WriteOp → Bool) (q : Nat → Bool) : Replace :=
  { frames := if r.size = 0 then (s.redbuf.flatMap Prod.snd).filterMap fun l =>
        if l.sent && q (128 * l.line) then some (128 * l.line, 128) else none
      else [(r.base, r.size)]
    writes := s.teams.flatMap fun t => (t.2.sdq.filter fun w => p w && w.keys.any q).map fun w => (t.1, w.id)
    runs := s.channels.filterMap fun c => match c.2.run with
      | some x => if x.pages.any fun y => r.has y.2 then some (c.1, c.2.seq) else none
      | none => none
    loads := s.teams.flatMap fun t => (t.2.pend.filter fun o => o.far.any q).map fun o => (t.1, o.id) }

/-- What was checked or sent before the seizure instant, for which the abort engine waits as R194 does (R392): what was translated
through a slot, what goes to a remote range, and the requests that are on the link of a lane (R448). -/
def State.seizeWait (s : State) (kind idx : Nat) : Replace :=
  if kind = 3 then s.replacedAt (idx / 512) [idx % 512]
  else if kind = 7 then
    s.crossing ⟨0, 0⟩ (fun w => w.departed && w.fabric.isSome) fun k => onFabric k && s.linkOf k == some (idx / 8)
  else if kind = 8 then s.crossing (s.span 8 idx) (fun _ => true) (s.span 8 idx).has
  else {}

/-- A resource leaves its tag: the state after the instant, and what the abort engine has still to do for it. -/
def State.seize (s : State) (x : Seizure) : State × Seizure :=
  let kind := x.resource.toNat / 2 ^ 60
  let idx := x.resource.toNat % 2 ^ 60
  let h := s.holder kind idx
  ((s.takeEntry kind idx x.cause).countRetired h.1 x.cause,
   { x with owner := some { s.owner kind idx with tag := h.1, world := h.2 }, time := s.now,
            wait := s.seizeWait kind idx })

/-! ### Replies (R390, R391) -/

/-- The cause code of a record from a request's reason: retirement is 2, everything else 1. -/
def causeOf (reason : Nat) : Nat := if reason = 2 then 2 else 1

/-- The resources that a reply gives up. -/
def Posted.given (p : Posted) : List Word :=
  (p.resources.zipIdx.filter fun x => (p.reply.getD 0).testBit x.2).map Prod.fst

/-- A reply takes effect: every resource that it names leaves the tag at that instant, without record or contents (R330). -/
def State.takeReply (s : State) (tag : Nat) (p : Posted) : State :=
  let t := s.tenantAt tag
  let t : Tenant := { t with posted := t.posted.map fun x => if x.id = p.id then { x with replied := true } else x }
  p.given.foldl (fun (s : State) r =>
    let h := s.holder (r.toNat / 2 ^ 60) (r.toNat % 2 ^ 60)
    if h.1.toNat ≠ tag ∨ tag = 0 then s
    else
      let y := s.seize { resource := r, cause := causeOf p.reason, reqid := p.id, record := false }
      { y.1 with seizing := s.seizing ++ [y.2] }) { s with tenants := Store.set {} s.tenants tag t }

/-- A reply of a request is answered by these bytes of the runtime page: before its deadline, and the first one. -/
def State.answers (s : State) (page : Nat) (p : Posted) (keys : List Nat) : Bool :=
  let k := page + 0x400 + 64 * (p.id % 16)
  p.reply.isNone && keys.any (fun x => decide (k ≤ x) && decide (x < k + 8)) && s.readNat k 8 / 2 ^ 32 == p.id
    && decide (s.now < p.deadline)

/-- A store to a reply slot has been performed: the reply instant (R390). The replies that it makes take effect. -/
def State.noteReply (s : State) (tag : Nat) (keys : List Nat) : State :=
  match (s.tenantAt tag).frame with
  | none => s
  | some page =>
    let hit := (s.tenantAt tag).posted.filter fun p => s.answers page p keys
    hit.foldl (fun (s : State) p =>
      let p := { p with reply := some (s.readNat (page + 0x400 + 64 * (p.id % 16)) 8 % 64) }
      let t := s.tenantAt tag
      let t : Tenant := { t with posted := t.posted.map fun x => if x.id = p.id then p else x }
      { s with tenants := Store.set {} s.tenants tag t }.takeReply tag p) s

end Sys2Proof.Machine
end

