-- ==== Sys2Proof/Machine/MemEvents.lean ====
section
/-!
DEFINITION. Machine/MemEvents.lean: what the memory system does on its own: write-backs and deliveries (R251, R257, R296,
R298), the store-delay queue (R122), the reduction buffer (R120, R121), prefetches (R254), requests that are given up
(R454), and postcards (R117, R351).
-/

namespace Sys2Proof.Machine

/-- The event's team becomes the current one. -/
def State.atUnit (s : State) : State := { s with cur := s.unit }

/-- Kill the warps that an operation's poisoned data names (R29, R440). -/
def State.killAll (s : State) (ws : List Nat) : State := ws.foldl (fun s w => s.killWarp s.cur w) s

/-! ### Deliveries -/

/-- Lane registers change under matrix commands that have been issued before: their steps may still read the old elements
(R293). -/
def State.noteOlds (s : State) (p : Pend) : State :=
  let t := s.team
  let q := s.sequencer t.gq
  if q.all fun c => c.team != s.cur || p.id ≤ c.op then s
  else s.putSequencer t.gq (q.map fun c =>
    if c.team = s.cur ∧ c.op < p.id then
      let reads := ((t.op? c.op).map Pend.reads).getD []
      let lost := p.regs.filter fun x => reads.contains x.1 && !(c.olds.any fun y => y.1 == x.1)
      { c with olds := c.olds ++ lost.map fun x => (x.1, Store.get 0 t.v x.1) }
    else c)

def execFixedLatencyWriteBack (s : State) : Out :=
  .next <|
    let s := s.atUnit
    match s.team.op? s.item with
    | none => s
    | some p =>
      if p.kind = .fixed ∧ p.ready ≤ s.cycle ∧ s.team.firstInLine p then (s.noteOlds p).setTeam (s.team.finishPass p) else s

/-- The result of an operation arrives: lane registers and masks are written, poisoned warps die, the token is released
with the cancel flag of a failed request; a scalar result ends the instruction that waits for it. -/
def State.deliver (s : State) (p : Pend) : State :=
  let s := s.noteOlds p
  let t := (s.team.writeBack p).dropOp p.id
  let t := t.release p p.cancel
  match p.scalar with
  | some (d, some v) => s.setTeam ((t.setReg (BitVec.ofNat 6 d) v).advance).stepDone
  | _ => (s.setTeam t).killAll p.kills

/-- Its values are all known and nothing older writes the same elements. -/
def Team.canDeliver (t : Team) (p : Pend) : Bool :=
  p.awaits.isEmpty && t.firstInLine p && (match p.scalar with | some (_, none) => false | _ => true)

def State.deliverKind (s : State) (k : OpKind) : State :=
  let s := s.atUnit
  match s.team.op? s.item with
  | none => s
  | some p => if p.kind = k ∧ s.team.canDeliver p ∧ !s.replaying s.team.gq then s.deliver p else s

def execLoadDelivery (s : State) : Out := .next (s.deliverKind .load)
def execAtomicReturn (s : State) : Out := .next (s.deliverKind .atomic)
def execReductionComplete (s : State) : Out := .next (s.deliverKind .reduce)
def execPrefetchFetchEnded (s : State) : Out := .next (s.deliverKind .prefetch)

/-! ### The store-delay queue -/

/-- A queued write is done: its entry goes, and the last one of an operation that posts releases it (R252, R258). -/
def Team.endWrite (t : Team) (w : WriteOp) : Team :=
  let t := { t with sdq := t.sdq.filter fun x => x.id != w.id }
  if w.op = 0 ∨ t.sdq.any (fun x => x.op == w.op) then t
  else match t.op? w.op with
    | some p => if p.kind = .store then (t.release p p.cancel).dropOp p.id else t
    | none => t

/-- A failed request sets the cancel flag of the store or reduction that posted (R299, R454). -/
def Team.failStore (t : Team) (op : Nat) : Team :=
  match t.op? op with
  | some p => if p.kind = .store then t.setOp { p with cancel := true } else t
  | none => t

/-- A write over the fabric fails (R454): it is lost, and FABRIC follows; a scalar atomic traps where it stands. -/
def State.loseWrite (s : State) (w : WriteOp) (addr : Word) : State :=
  let s := s.countDrain 1 0
  let t := (s.team.failStore w.op).endWrite w
  match w.what, s.team.op? w.op with
  | .atomic o, some p =>
    match p.scalar with
    | some _ => (s.setTeam (t.dropOp p.id)).trap cFabric addr
    | none =>
      let p := { p with awaits := p.awaits.filter (fun k => k % 1024 != o.lane), cancel := true }
      s.setTeam ((t.setOp p).addAsync cFabric addr)
  | _, _ => s.setTeam (t.addAsync cFabric addr)

/-- The entry of the buffer for a line. -/
def State.redLine? (s : State) (core line : Nat) : Option RedLine := (s.redLines core).find? fun l => l.line == line

/-- Same operation, element type, rounding mode and `.ab` setting (R120). -/
def RmwMode.merges (x y : RmwMode) : Bool := x.op == y.op && x.ty == y.ty && x.rnd == y.rnd && x.ab == y.ab

/-- A contribution merges into an entry, drawing with its own arguments; the entry keeps those of the last contributor (R120). -/
def RedLine.merge (l : RedLine) (o : Rmw) (id : Nat) : RedLine :=
  let elems :=
    if l.elems.any fun e => e.key == o.key then
      l.elems.map fun e =>
        if e.key = o.key then { o with val := BitVec.ofNat 64 ((o.apply e.val.toNat).getD e.val.toNat) } else e
    else l.elems ++ [o]
  { l with elems := elems, mode := o.mode, lane := o.lane, teams := if l.teams.contains id then l.teams else l.teams ++ [id] }

/-- An element of a G-address reduction leaves the queue: it merges, takes a new entry, or first sends what stands in its
way (R120, R121). -/
def State.bufferReduction (s : State) (w : WriteOp) (o : Rmw) : State :=
  let t := s.team
  let ls := s.redLines t.core
  let line := lineOf o.key
  let enter (ls : List RedLine) : State := (s.putRedLines t.core ls).setTeam (t.endWrite w)
  match s.redLine? t.core line with
  | some l =>
    if l.sent || !l.mode.merges o.mode then s.sendLines fun x => x.id == l.id && x.line == line
    else enter (ls.map fun x => if x.id == l.id then l.merge o s.cur else x)
  | none =>
    if 256 ≤ ls.length then
      (match ls[draw s.free 8 0 % 256]? with
       | some v => s.sendLines fun x => x.id == v.id && x.line == v.line
       | none => s)
    else { (enter (ls ++ [{ id := s.nextId, line := line, mode := o.mode, elems := [o], lane := o.lane, teams := [s.cur] }])) with
             nextId := s.nextId + 1 }

/-- The oldest write that has not left, with those before it. -/
def Team.nextDeparture (t : Team) : Option (WriteOp × List WriteOp) :=
  let before := t.sdq.takeWhile fun w => w.departed
  (t.sdq[before.length]?).map fun w => (w, before)

/-- What a release in the queue, or a go store, waits for beside the team's earlier writes (R112, R118, R121). -/
def State.releaseWait (s : State) (scope : Nat) : Option State :=
  if decide (1 ≤ scope) && s.contributed s.cur then some (s.sendLines fun l => l.teams.contains s.cur)
  else if decide (2 ≤ scope) && s.cardsPending s.team then some (s.closeCards s.team)
  else none

/-- The write leaves the quarter. -/
def State.depart (s : State) (w : WriteOp) (before : List WriteOp) : State :=
  let t := s.team
  match w.what with
  | .reduction o true =>
    if before.any (fun x => x.acquire || x.keys.any (keysFrom o.key o.size).contains)
        || (keysFrom o.key o.size).any (s.recalledNow s.cur w.id w.born) then s
    else s.bufferReduction w o
  | .go ch _ =>
    if !before.isEmpty then s
    else match s.releaseWait 1 with
      | some s' => s'
      | none =>
        let c := s.channel ch
        (s.putChannel ch { c with run := c.run.map fun r => { r with armed := true } }).setTeam (t.endWrite w)
  | _ =>
    let leave (x : WriteOp) : WriteOp := { x with departed := true, sent := s.nextId, tick := s.ticks }
    let s' := { s.setTeam { t with sdq := t.sdq.map fun x => if x.id == w.id then leave x else x } with nextId := s.nextId + 1 }
    match w.fabric with
    | some addr => if w.keys.any s.unreachable then s.loseWrite w addr else s'
    | none => s'

/-- STORE_DELAY_DEPARTURE: the oldest write of the team, when it is 64 cycles old. -/
def execStoreDelayDeparture (s : State) : Out :=
  .next <|
    let s := s.atUnit
    match s.team.nextDeparture with
    | none => s
    | some (w, before) =>
      if s.cycle < w.born + 64 then s
      else match w.release with
        | none => s.depart w before
        | some scope =>
          if !before.isEmpty then s
          else match s.releaseWait scope with
            | some s' => s'
            | none => s.depart w before

/-! ### Performing -/

/-- Old words of an atomic as register writes of its lane: the awaited registers in ascending order, those too of which nothing is
written any more. -/
def Pend.arrive (p : Pend) (lane old : Nat) : Pend :=
  let ks := p.awaits.filter fun k => k % 1024 == lane
  { p with regs := p.regs ++ ks.zipIdx.map (fun k => (k.1, BitVec.ofNat 32 (old / 2 ^ (32 * k.2))))
           awaits := p.awaits.filter fun k => k % 1024 != lane }

/-- A returning atomic is performed at its home (R103). -/
def State.performAtomic (s : State) (w : WriteOp) (o : Rmw) : State :=
  let keys := keysFrom o.key o.size
  let t := s.team.endWrite w
  match t.op? w.op with
  | none => s.setTeam t
  | some p =>
    if keys.any s.poisoned then
      match p.scalar with
      | some _ => (s.setTeam (t.dropOp p.id)).poisonStop keys p.addr.toNat
      | none => (s.setTeam (t.setOp { p with awaits := p.awaits.filter (fun k => k % 1024 != o.lane)
                                             kills := p.kills ++ [o.lane / 32] })).checkTags keys
    else
      let old := s.placeNat o.key o.size
      let s := match o.apply old with
        | some x => s.perform (spread keys x) true
        | none => s
      let t := s.team.endWrite w
      let p' := match p.scalar with
        | some (d, _) => { p with scalar := some (d, some (BitVec.ofNat 64 old)) }
        | none => p.arrive o.lane old
      s.setTeam (t.setOp p')

/-- A no-return element is performed: dropped where the sector is poisoned (R440). -/
def State.performElem (s : State) (tag : Nat) (o : Rmw) : State :=
  let keys := keysFrom o.key o.size
  if keys.any s.poisoned then (s.countErr tag eDrops 1).checkTags keys
  else match o.apply (s.placeNat o.key o.size) with
    | some x => s.perform (spread keys x) true
    | none => s

/-- The bank under the histogram slots is still the team's (R86). -/
def State.binOwned (s : State) (t : Team) (o : Rmw) : Bool :=
  match flatOf o.key with
  | some f => (s.bankCause t.pstat.tag t.pstat.world (bankOf f)).isNone
  | none => false

/-- A trace record reaches its ring (R427). -/
def State.traceOut (s : State) (core : Nat) (bs : List Byte) : State :=
  let d := s.dbg core
  let r := d.trace.push 48
  let s := s.putDbg core { d with trace := r.1 }
  match r.2 with
  | some a => s.perform ((keysFrom a 48).zip bs) true
  | none => s

/-- What a performed write does. -/
def State.performWrite (s : State) (w : WriteOp) : State :=
  match w.what with
  | .atomic o => s.performAtomic w o
  | what =>
    let t := s.team
    let s := s.setTeam (t.endWrite w)
    match what with
    | .bytes bs => (s.perform bs true).noteReply t.pstat.tag.toNat (bs.map Prod.fst)
    | .reduction o _ =>
      if o.mode.op = .bin ∧ s.binOwned t o = false then s.countErr t.pstat.tag.toNat eDrops 1
      else s.performElem t.pstat.tag.toNat o
    | .arg ch n v =>
      let c := s.channel ch
      s.putChannel ch (if n = 0 then { c with src := v } else if n = 1 then { c with dst := v }
        else if n = 2 then { c with count := v } else { c with stile := v })
    | .template slot n v => { s with templates := Store.set 0 s.templates (8 * slot + n) v }
    | .stile k arrive n pc seq =>
      if (keysFrom k 16).any s.poisoned then s
      else if arrive then s.arriveStile k pc seq else s.expectBytes k n pc seq
    | .trace core bs => s.traceOut core bs
    | _ => s

/-- A request to the same line was sent over the fabric before, by this team or another: the home performs them in that order
(R452). -/
def State.behind (s : State) (w : WriteOp) : Bool :=
  w.fabric.isSome && s.teams.any fun t => t.2.sdq.any fun x =>
    x.departed && x.fabric.isSome && decide (x.sent < w.sent) && s.sameLine x.keys w.keys

/-- What holds a write at its home: an earlier acquire of the team, an earlier write of it to one of its bytes (R104) or into the
same published region (R117: a subscriber observes a prefix), an earlier request to its line (R452), an engine's line (R114), the
forwarder (R352). -/
def State.writeHeld (s : State) (w : WriteOp) : Bool :=
  let before := s.team.sdq.takeWhile fun x => x.id != w.id
  before.any (fun x => x.acquire || s.overlap x.keys w.keys || s.publishedBoth x.keys w.keys) || s.behind w
    || w.keys.any (s.recalledNow s.cur w.id w.born) || s.forwarderFull w.keys

/-- A request that has been sent fails: whether its home has performed it is not known (R454). -/
def State.failSent (s : State) (w : WriteOp) (addr : Word) : State :=
  let elem (o : Rmw) : State := if (keysFrom o.key o.size).any s.poisoned then s else s.performElem 0 o
  let s' := if pick s.free 15 w.id && !s.writeHeld w then
      (match w.what with
       | .bytes bs => s.perform bs true
       | .atomic o | .reduction o _ => elem o
       | _ => s)
    else s
  (s'.loseWrite w addr).fresh

/-- A write that departs in full and is performed by WRITE_PERFORMED. -/
def WriteOp.homeBound (w : WriteOp) : Bool :=
  match w.what with | .go _ _ => false | .reduction _ b => !b | _ => true

def execWritePerformed (s : State) : Out :=
  .next <|
    let s := s.atUnit
    match s.team.sdq.find? fun w => w.id == s.item with
    | none => s
    | some w =>
      if !w.departed || !w.homeBound then s
      else if w.fabric.isSome && w.keys.any s.unreachable then s.failSent w (w.fabric.getD 0)
      else if s.writeHeld w then s
      else if w.keys.any (s.bufferedFor s.cur) then s.sendTouched s.cur w.keys
      else s.performWrite w

/-- REDUCTION_LINE_PERFORMED: buffered line `item` of core `unit`, once something has sent it; its rounding draws with the
arguments that the entry keeps (R120). A line whose home fails is lost, with FABRIC for its contributors (R454). -/
def execReductionLinePerformed (s : State) : Out :=
  .next <|
    match (s.redLines s.unit).find? fun l => l.id == s.item with
    | none => s
    | some l =>
      let keys := l.elems.flatMap fun o => keysFrom o.key o.size
      if !l.sent then s
      else
        let s := s.putRedLines s.unit ((s.redLines s.unit).filter fun x => x.id != l.id)
        if keys.any s.unreachable ∨ (keys.any onFabric ∧ pick s.free 9 l.line) then
          l.teams.foldl (fun s id => s.modTeam id fun t => t.addAsync cFabric (BitVec.ofNat 64 (128 * l.line)))
            (s.fresh.countDrain 0 1)
        else l.elems.foldl (fun s o => s.performElem ((l.teams.map fun id => (s.teamAt id).pstat.tag.toNat).headD 0)
          { o with mode := l.mode, lane := l.lane }) s.fresh

/-! ### The fabric gives up -/

/-- 200 µs (R454). -/
def giveUpTime : Nat := 800000

/-- The requests of a lane load that get no answer: one at least. -/
def Pend.unanswered (p : Pend) (free : Nat) : List (Nat × Word) :=
  let xs := p.fabric.filter fun x => pick free 16 x.1
  if xs.isEmpty then p.fabric.take 1 else xs

/-- FABRIC_REQUEST_GIVE_UP: request `item` of team `unit`, a write that has left the quarter or a load, gets no answer (R454). -/
def execFabricRequestGiveUp (s : State) : Out :=
  .next <|
    let s := s.atUnit
    match s.team.sdq.find? fun w => w.id == s.item && w.departed && w.fabric.isSome with
    | some w => if s.ticks < w.tick + giveUpTime then s else s.failSent w (w.fabric.getD 0)
    | none => match s.team.op? s.item with
      | none => s
      | some p =>
        if p.kind ≠ .load ∨ s.ticks < p.born + giveUpTime then s
        else match p.unanswered s.free with
          | [] => s
          | (l, addr) :: rest =>
            let lanes := l :: rest.map Prod.fst
            match p.scalar with
            | some _ => (s.setTeam (s.team.dropOp p.id)).trap cFabric addr
            | none =>
              let keep (k : Nat) : Bool := !lanes.contains (k % 1024)
              (s.setTeam ((s.team.setOp { p with regs := p.regs.filter (fun x => keep x.1), awaits := p.awaits.filter keep,
                                                 fabric := p.fabric.filter (fun x => !lanes.contains x.1),
                                                 cancel := true }).addAsync cFabric addr)).fresh

/-! ### Postcards -/

/-- POSTCARD_CLOSE: the 64 mesh cycles of entry `unit` are over. -/
def execPostcardClose (s : State) : Out :=
  .next <|
    let p := s.post s.unit
    match p.openCard with
    | none => s
    | some c => if c.opened + mergeTime ≤ s.ticks ∧ s.closedCards (s.unit / 32) < 64 then s.putPost s.unit p.close else s

/-- POSTCARD_APPLICATION: the oldest closed postcard of entry `unit`, in one step at the subscriber's bank. -/
def execPostcardApplication (s : State) : Out :=
  .next <|
    let p := s.post s.unit
    match p.closed with
    | [] => s
    | c :: rest =>
      let bs := c.bytes.map fun b => (scratchBase + p.sub + b.1, b.2)
      if bs.any fun b => s.engineLines.any fun e => e.line == lineOf b.1 && decide (e.tick < c.opened) then s
      else (s.putPost s.unit { p with closed := rest }).perform bs false

end Sys2Proof.Machine
end

