-- ==== Sys2Proof/Machine/Matrix.lean ====
section
/-!
DEFINITION. Machine/Matrix.lean: accumulator tiles (R273, R274), the matrix instructions at their issue (R275 to R287), the
sequencer (R275, R280, R281), drains and checks (R287 to R290), and crews (R291).
-/

namespace Sys2Proof.Machine

/-! ### Tiles -/

def rotl32 (x : BitVec 32) (j : Nat) : BitVec 32 := x.rotateLeft j

/-- A row's value words. -/
def Tile.row (x : Tile) (r : Nat) : List (BitVec 32) := (List.range 32).map fun j => Store.get 0 x.vals (32 * r + j)

/-- CX and CR of a list of value words (R274). -/
def rowCx (vs : List (BitVec 32)) : BitVec 32 := vs.foldl (· ^^^ ·) 0
def rowCr (vs : List (BitVec 32)) : BitVec 32 := vs.zipIdx.foldl (fun a v => a ^^^ rotl32 v.1 v.2) 0

/-- Write an element's value: the checksums follow (R274). -/
def Tile.putValue (x : Tile) (r j : Nat) (v : BitVec 32) : Tile :=
  let d := Store.get 0 x.vals (32 * r + j) ^^^ v
  { x with vals := Store.set 0 x.vals (32 * r + j) v
           cx := Store.set 0 x.cx r (Store.get 0 x.cx r ^^^ d)
           cr := Store.set 0 x.cr r (Store.get 0 x.cr r ^^^ rotl32 d j) }

def Tile.count (x : Tile) (r j : Nat) : Nat := (Store.get 0 x.counts (32 * r + j)).toNat

/-- Add contributors: the count holds at 65,535 (R79). The parity bit is carried along, so that an error of the count is still found
(R273, R274, R439). -/
def Tile.addCount (x : Tile) (r j n : Nat) : Tile :=
  { x with counts := Store.set 0 x.counts (32 * r + j) (BitVec.ofNat 16 (min (x.count r j + n) 65535)) }

def Tile.poisonRow (x : Tile) (r : Nat) : Tile := { x with poison := x.poison ||| BitVec.ofNat 64 (2 ^ r) }

/-- A row as a fresh grant has it (R286, R288). -/
def Tile.clearRow (x : Tile) (r : Nat) : Tile :=
  let keep (k : Nat) : Bool := k / 32 != r
  { vals := x.vals.filter fun p => keep p.1, counts := x.counts.filter fun p => keep p.1
    badPar := x.badPar.filter keep, cx := Store.set 0 x.cx r 0, cr := Store.set 0 x.cr r 0
    poison := x.poison &&& ~~~(BitVec.ofNat 64 (2 ^ r)) }

/-- The place of the one set bit of a word. -/
def oneBit (x : BitVec 32) : Option Nat := (List.range 32).find? fun b => x == BitVec.ofNat 32 (2 ^ b)

/-- What a verification found in a row (R289). -/
structure Finding where
  code : Nat
  bit  : Nat
  col  : Nat
  deriving DecidableEq, Repr

/-- The checksums alone: the repaired tile and the finding. -/
def Tile.repair (x : Tile) (r : Nat) : Tile × Finding :=
  let vs := x.row r
  let cx' := rowCx vs
  let cr' := rowCr vs
  let dx := Store.get 0 x.cx r ^^^ cx'
  let dr := Store.get 0 x.cr r ^^^ cr'
  if dx = 0 ∧ dr = 0 then (x, ⟨0, 0, 0⟩)
  else match oneBit dx, oneBit dr with
    | some b, some c =>
      let j := (c + 32 - b) % 32
      let v := Store.get 0 x.vals (32 * r + j) ^^^ BitVec.ofNat 32 (2 ^ b)
      ({ x with vals := Store.set 0 x.vals (32 * r + j) v }, ⟨1, b, j⟩)
    | some _, none => if dr = 0 then ({ x with cx := Store.set 0 x.cx r cx' }, ⟨2, 0, 0⟩) else (x.poisonRow r, ⟨3, 0, 0⟩)
    | none, some _ => if dx = 0 then ({ x with cr := Store.set 0 x.cr r cr' }, ⟨2, 0, 0⟩) else (x.poisonRow r, ⟨3, 0, 0⟩)
    | none, none => (x.poisonRow r, ⟨3, 0, 0⟩)

/-- Verify and repair a row. -/
def Tile.checkRow (x : Tile) (r : Nat) : Tile × Finding :=
  let p := x.repair r
  if p.2.code ≠ 3 ∧ x.badPar.any fun k => k / 32 = r then (p.1.poisonRow r, ⟨4, 0, 0⟩) else p

/-- A finding in the reliability records of tile `i` (R289, R443 to R445). -/
def State.countFinding (s : State) (i : Nat) (f : Finding) : State :=
  if f.code = 0 then s
  else
    let repaired := f.code ≤ 2
    (s.noteError .quarter (i / 16) (if repaired then 4 else 5)).countErr (s.owner 4 i).tag.toNat
      (if repaired then eCorr else ePois) 1

/-! ### Operand formats (R276 to R279) -/

def matK (t : Nat) : Nat := if t = 2 ∨ t = 3 then 2 else if t = 0xD then 8 else 4
def matBits (t : Nat) : Nat := if t = 2 ∨ t = 3 then 16 else if t = 4 then 8 else blkBits t
def matFmt (t : Nat) (fmt : Word) : FFmt := if tyIsBlock t then blockFmt t fmt else fmtOf t fmt
/-- Bytes of B that one step reads, and bytes of one of its k-rows. -/
def matBytes (t : Nat) : Nat := if tyIsBlock t then matK t * LaneOp.recSize t else 128
def matRow (t : Nat) : Nat := matBytes t / matK t

/-- A element k of a row, from its register and its scale byte. -/
def matA (t : Nat) (fmt : Word) (a scale k : Nat) : FVal :=
  if tyIsBlock t then
    (if scale % 256 = 0xFE then .absent else if scale % 256 = 0xFF then .nan
     else ((matFmt t fmt).decode (elem a k (matBits t))).scaleBy ((scale % 256 : Nat) - 127))
  else (matFmt t fmt).decode (elem a k (matBits t))

/-- Element j of a k-row of B. -/
def matB (t : Nat) (fmt : Word) (row j : Nat) : FVal :=
  if tyIsBlock t then (recVal (matFmt t fmt) t row j).scaleBy ((row % 256 : Nat) - 127)
  else (matFmt t fmt).decode (elem row j (matBits t))

/-- One element's step: the present products, and the old value where it is present (R78), summed exactly and rounded once
(R82). -/
def matSum (old : BitVec 32) (ps : List FVal) : BitVec 32 :=
  match (if fmtF32.decode old.toNat = .absent then ps else fmtF32.decode old.toNat :: ps) with
  | [] => old
  | x :: xs => BitVec.ofNat 32 (fmtF32.ofVal .rne false (xs.foldl (FVal.add .rne) x)).code

/-- R281's step: `rows` are the rows that take part, with register and scale; `bs` the K k-rows of B. -/
def Tile.matStep (x : Tile) (t : Nat) (fmt : Word) (rows : List (Nat × Nat × Nat)) (bs : List Nat) : Tile :=
  rows.foldl (fun x r =>
    let as := bs.zipIdx.map fun b => (matA t fmt r.2.1 r.2.2 b.2, b.1)
    (List.range 32).foldl (fun x j =>
      let ps := as.filterMap fun p =>
        let b := matB t fmt p.2 j
        if p.1 = .absent ∨ b = .absent then none else some (p.1.mul b)
      if ps.isEmpty then x
      else (x.putValue r.1 j (matSum (Store.get 0 x.vals (32 * r.1 + j)) ps)).addCount r.1 j ps.length) x) x

/-! ### Commands -/

namespace MatCmd

def isLoop (c : MatCmd) : Bool := c.kind == .mmloop
def isStep (c : MatCmd) : Bool := c.kind == .mma || c.kind == .mmloop
/-- A drain to scratchpad (SP = 1). -/
def toSpad (c : MatCmd) : Bool := c.kind == .mmdrain && c.f.modF 5 1 == 1
def op' (c : MatCmd) : LaneOp := ⟨0xA, 0, c.f⟩
/-- The type that TYPE names, `.blkf` resolved (R66). -/
def ty (c : MatCmd) : Nat := LaneOp.blockTy c.f.t c.fmt
/-- COUNT, ASTR and BINC of the loop descriptor (R284). -/
def steps (c : MatCmd) : Nat := if c.isLoop then fld c.y.toNat 0 13 else if c.kind = .mma then 1 else 0
def astr (c : MatCmd) : Nat := fld c.y.toNat 20 4
def binc (c : MatCmd) : Int := sext (c.y.toNat / 2 ^ 32) 32
/-- The B address of a step. -/
def addrB (c : MatCmd) (n : Nat) : Nat := if c.isLoop then wrapTo (c.x.toNat + n * c.binc) 64 else c.x.toNat
/-- The tile number in the quarter. -/
def tileNo (c : MatCmd) : Nat := (if c.kind = .mmdrain then c.f.a else c.f.d).toNat % 16
/-- The rows drained or reported, with their lanes l(r) (R287). -/
def laneRows (c : MatCmd) : List (Nat × Nat) :=
  if c.f.modF 1 1 = 1 then ((List.range 32).map fun l => (l + 32, l)).filter fun x => c.rows.getLsbD x.2
  else ((List.range 64).map fun r => (r, r)).filter fun x => c.rows.getLsbD x.2
/-- RS, or N for 0: the distance of drained rows. -/
def rowStep (c : MatCmd) : Nat := let n := LaneOp.rowBytes c.ty; if c.f.immF 16 16 = 0 then n else c.f.immF 16 16
def rowAddr (c : MatCmd) (r : Nat) : Nat := (c.x.toNat + r * c.rowStep) % 2 ^ 64

end MatCmd

/-! ### Issue -/

/-- R285: what checks every range of a matrix command: cause and TRAPVAL. -/
def State.rangeFault (s : State) (t : Team) (align : Bool) (block : Option Nat) (addrs : List Nat) (n : Nat) :
    Option (Nat × Word) :=
  let own (a : Nat) : Option Nat := match sFlat t.core a with
    | none => none
    | some f => if f / 2 ^ 25 = t.core then some f else none
  let bytes := addrs.flatMap fun a => (List.range n).map fun i => a + i
  match (if align then addrs.find? (fun a => a % 128 ≠ 0) else none) with
  | some a => some (cAlign, BitVec.ofNat 64 a)
  | none => match block with
    | some a => some (cBlock, BitVec.ofNat 64 a)
    | none => match bytes.find? fun a => (own a).isNone with
      | some a => some (cTbProt, BitVec.ofNat 64 a)
      | none =>
        let bad (c : Nat) : Option Nat := (bytes.filter fun a =>
          (own a).any fun f => s.bankCause t.pstat.tag t.pstat.world (bankOf f) == some c).min?
        match bad cOwner with
        | some a => some (cOwner, BitVec.ofNat 64 a)
        | none => (bad cWorld).map fun a => (cWorld, BitVec.ofNat 64 a)

/-- The range checks of a command. -/
def State.commandFault (s : State) (t : Team) (c : MatCmd) : Option (Nat × Word) :=
  if c.isStep then
    let blk := tyIsBlock c.ty
    let addrs := (List.range c.steps).map c.addrB
    let block := if blk && c.isLoop && decide (2 ≤ c.steps) && c.binc % (LaneOp.recSize c.ty : Int) != 0
      then some (c.addrB 1) else none
    s.rangeFault t (!blk) block addrs (matBytes c.ty)
  else if c.toSpad then s.rangeFault t false none (c.laneRows.map fun x => c.rowAddr x.1) (LaneOp.rowBytes c.ty)
  else none

/-- The lanes whose A and scale registers the steps take: those of the rows, and all of lanes 0 to 63 for a latch (R280). -/
def MatCmd.readLanes (c : MatCmd) (lanes : Nat) : List Nat :=
  (List.range (min 64 lanes)).filter fun l => c.f.reuse == 1#1 || c.rows.getLsbD l

/-- Elements of the A and scale registers that the steps will read (R293), in a team of `n` lanes; none when the command will
find its operand in the latch (R280, R295). -/
def MatCmd.readKeys (c : MatCmd) (n : Nat) (hit : Bool) : List Nat :=
  if !c.isStep || hit then []
  else
    let lanes := c.readLanes n
    let win := if c.isLoop then LaneOp.awin c.y else 1
    let regs := (List.range win).map (c.f.a.toNat + ·)
      ++ (if tyIsBlock c.ty then (List.range win).map (c.f.b.toNat + ·) else [])
    regs.flatMap fun r => lanes.map (vKey r)

/-- The latch names what an `mma` wants: register, scale register and resolved type (R66, R280). -/
def Latch.serves (l : Latch) (c : MatCmd) : Bool :=
  l.valid && l.a == c.f.a && l.b == c.f.b && l.ty == BitVec.ofNat 4 c.ty

/-- The latch's names after a command has started (R280); the values are not looked at. -/
def Latch.after (l : Latch) (c : MatCmd) : Latch :=
  if c.f.reuse ≠ 1#1 then {}
  else if c.kind = .mma then { valid := true, a := c.f.a, b := c.f.b, ty := BitVec.ofNat 4 c.ty } else l

/-- An `mma` that stands behind these commands of its sequencer will find its operand in the latch. -/
def MatCmd.willHit (c : MatCmd) (latch : Latch) (before : List MatCmd) : Bool :=
  c.kind == .mma
    && ((before.filter fun d => d.team == c.team && !d.started).foldl Latch.after latch).serves c

/-- Register elements that the command will write. -/
def MatCmd.writeKeys (c : MatCmd) : List Nat :=
  if c.kind = .mmdrain ∧ c.toSpad = false then
    (List.range ((LaneOp.rowBytes c.ty + 3) / 4)).flatMap fun q => c.laneRows.map fun x => vKey (c.f.d.toNat + q) x.2
  else if c.kind = .mmcheck ∧ c.f.immF 0 8 ≠ 0xEC then c.laneRows.map fun x => vKey (c.f.immF 0 8) x.2
  else []

/-- The destination lines of a drain to scratchpad (R287). -/
def MatCmd.destLines (c : MatCmd) (core : Nat) : List Nat :=
  if c.toSpad then
    (c.laneRows.flatMap fun x => (List.range (LaneOp.rowBytes c.ty)).filterMap fun i =>
      (sFlat core (c.rowAddr x.1 + i)).map fun f => lineOf (scratchBase + f)).eraseDups
  else []

/-- The front command of quarter `gq`, and the rest. -/
def State.frontCmd (s : State) (gq : Nat) : Option MatCmd := (s.sequencer gq).head?

/-- Replace a command of the sequencer. -/
def State.setCmd (s : State) (gq : Nat) (c : MatCmd) : State :=
  s.putSequencer gq ((s.sequencer gq).map fun d => if d.team = c.team ∧ d.op = c.op then c else d)

/-- Take a command out of the sequencer. -/
def State.dropCmd (s : State) (gq : Nat) (c : MatCmd) : State :=
  s.putSequencer gq ((s.sequencer gq).filter fun d => !(d.team == c.team && d.op == c.op))

/-- Which commands of a team will use the latch changes when one in front of them goes: what their steps will read is noted
anew (R280, R293). -/
def State.noteReads (s : State) (gq id : Nat) : State :=
  let q := s.sequencer gq
  let t := s.teamAt id
  s.putTeam id (q.foldl (fun t c =>
    if c.team ≠ id ∨ c.started ∨ c.kind ≠ .mma then t
    else match t.op? c.op with
      | none => t
      | some p => t.setOp { p with reads := c.readKeys t.lanes (c.willHit t.latch (q.takeWhile fun d => d.op != c.op || d.team != id)) })
    t)

/-- Cancel a command: its token falls with the cancel flag, and nothing of it is done any more (R292, R294). -/
def State.cancelCmd (s : State) (gq : Nat) (c : MatCmd) : State :=
  let s := s.dropCmd gq c
  let t := s.teamAt c.team
  match t.op? c.op with
  | some p => (s.putTeam c.team ((t.release p true).dropOp p.id)).noteReads gq c.team
  | none => s

/-- The members of a crew, by team. -/
def State.crewOf (s : State) (id : Nat) : List Nat :=
  let t := s.teamAt id
  (s.groupOf t).members.filter fun m => let o := s.teamAt m; o.crewed.isSome && o.crew == t.crew

/-- The crew's commands for its n-th operation, with their quarters. -/
def State.crewCmdsOf (s : State) (id n : Nat) : List (Nat × MatCmd) :=
  (s.crewOf id).flatMap fun m =>
    let gq := (s.teamAt m).gq
    ((s.sequencer gq).filter fun c => c.team == m && c.crewN == some n).map fun c => (gq, c)

/-- Cancel an operation in every member; a member that has not handed its command over finds it cancelled (R292). -/
def State.cancelCrew (s : State) (id n : Nat) : State :=
  let t := s.teamAt id
  let cs := s.crewCmdsOf id n
  let s := cs.foldl (fun s x => s.cancelCmd x.1 x.2) s
  if cs.length < (s.crewOf id).length then
    let g := s.groupOf t
    s.putGroup t.group { g with crewCancels := g.crewCancels ++ [(t.crew, n)] }
  else s

/-- A command of another member has been cancelled for the whole crew, and this one with it (R291, R292). -/
def State.crewCancelled (s : State) (t : Team) (n : Nat) : Bool := (s.groupOf t).crewCancels.contains (t.crew, n)

/-- Issue of a matrix instruction (R275): one command to the sequencer, whatever the mask. A command whose tile has been seized
since its enqueue is cancelled, as those in the sequencer were (R294). DESIGN CHOICE (log entry 70, unsafe): STALL_SHORT is
checked as of a word with one pass for each of warps 0 and 1 in the cycle of the issue, though a matrix instruction makes no
pass (R275) and R300 speaks of passes. -/
def State.issueMatrix (s : State) (i : Instr) (opc : Nat) (kind : MatKind) (f : LaneFields) : State :=
  let w := encode i
  let (e, t, queued) := s.team.takeEntry w
  match s.directFault w queued with
  | some (cause, val) => s.trapLane e cause val []
  | none =>
    let q := s.sequencer t.gq
    let tok := lanePost w
    if s.cycle < t.laneFree ∨ t.tokenFull tok ∨ 16 ≤ q.length then s
    else
      let o : LaneOp := ⟨0xA, opc, f⟩
      let ps : List Pass := (List.range (min 2 t.nwarp)).map fun w =>
        ⟨w, s.cycle, t.activeLanes s.free s.cycle f.mask.toNat w⟩
      let rows := (ps.flatMap Pass.lanes).foldl (fun x l => x ||| BitVec.ofNat 64 (2 ^ l)) 0#64
      let c : MatCmd := { team := s.cur, op := t.nextOp, kind := kind, f := f, fmt := e.fmt, seed := e.seed, ctr := e.ctr,
                          hist := e.hist, x := e.x, y := e.y, rows := rows, born := s.cycle, tick := s.ticks }
      let hit := c.willHit t.latch q
      let reads (p : Pass) : List Nat := if hit then [] else (c.readLanes t.lanes).filter fun l => l / 32 == p.warp
      let lanes (p : Pass) : List Nat := (c.laneRows.map Prod.snd).filter fun l => l / 32 == p.warp
      match (if e.chk then t.checkTouches (o.touches (fun _ => true) (min 2 t.nwarp) s.cycle e.y e.fmt ps (fun _ => reads) lanes) else none) with
      | some (cause, val) => s.trapLane e cause val []
      | none => match s.commandFault t c with
        | some (cause, val) => s.trapLane e cause val []
        | none =>
          let crewed := o.cls == 0xA && decide (opc ≤ 1) && f.modF 5 1 == 1
          let c := { c with crewN := if crewed then some t.crewCmds else none, lines := c.destLines t.core }
          let p : Pend := { id := t.nextOp, kind := .matrix, seq := e.seq, pc := e.pc, tok := tok, names := o.names,
                            awaits := c.writeKeys, reads := c.readKeys t.lanes hit }
          let t := ((t.addPend s.free ⟨matBits c.ty, f.d.toNat⟩ (fun _ => s.cycle) p).newOp).postOpt tok
          let t := if crewed then { t with crewCmds := t.crewCmds + 1 } else t
          let cancelled := s.endLane ((t.release p true).dropOp p.id) 0 f.stall.toNat
          if crewed && s.crewCancelled t (t.crewCmds - 1) then cancelled
          else if !s.tileOwned t c.tileNo then
            (if crewed then cancelled.cancelCrew s.cur (t.crewCmds - 1) else cancelled)
          else (s.putSequencer t.gq (q ++ [c])).endLane t 0 f.stall.toNat

def execMma (f : LaneFields) (s : State) : Out := .next (s.issueMatrix (.mma f) 0x00 .mma f)
def execMmloop (f : LaneFields) (s : State) : Out := .next (s.issueMatrix (.mmloop f) 0x01 .mmloop f)
def execMmzero (f : LaneFields) (s : State) : Out := .next (s.issueMatrix (.mmzero f) 0x02 .mmzero f)
def execMmdrain (f : LaneFields) (s : State) : Out := .next (s.issueMatrix (.mmdrain f) 0x03 .mmdrain f)
def execMmcheck (f : LaneFields) (s : State) : Out := .next (s.issueMatrix (.mmcheck f) 0x04 .mmcheck f)

/-! ### The sequencer -/

/-- An element as a step reads it: what a pass would read now, except that a later write may have come or not (R293). -/
def MatCmd.elemAt (c : MatCmd) (t : Team) (free cyc r l : Nat) : Lane32 :=
  let k := vKey r l
  let cur := Store.get 0 t.v k
  let bits := matBits c.ty
  let base := match c.olds.find? fun x => x.1 == k with
    | some x => mixReg bits (pickReg free c.op k) cur x.2
    | none => cur
  t.pend.foldl (fun x p => match p.regOf k with
    | none => x
    | some y =>
      let y := p.merged k x y
      if p.due cyc && decide (p.id < c.op) then y else mixReg bits (pickReg free p.id k) x y) base

/-- The A operand as it stands, of register `a` and scale register `b` (R280). -/
def State.operandNow (s : State) (c : MatCmd) (a b : Nat) : Latch :=
  let t := s.teamAt c.team
  let lanes := List.range (min 64 t.lanes)
  { valid := true, a := BitVec.ofNat 8 a, b := BitVec.ofNat 8 b, ty := BitVec.ofNat 4 c.ty
    vals := Store.setAll 0 [] (lanes.map fun l => (l, c.elemAt t s.free s.cycle a l))
    scales := if tyIsBlock c.ty then Store.setAll 0 [] (lanes.map fun l => (l, c.elemAt t s.free s.cycle b l)) else [] }

/-- Start a command: an `mma` takes its operand, and the latch follows REUSE (R280). -/
def State.startCmd (s : State) (gq : Nat) (c : MatCmd) : State :=
  let t := s.teamAt c.team
  let x := if c.kind = .mma then
      some (if t.latch.serves c then t.latch
            else s.operandNow c c.f.a.toNat c.f.b.toNat)
    else none
  let latch := if c.f.reuse = 1#1 then (match x with | some l => l | none => t.latch) else {}
  ((s.setCmd gq { c with started := true, opnd := x }).putTeam c.team { t with latch := latch }).fresh

/-- What comes before a command that reads or writes memory has been performed (R112): the team's earlier writes and the
reduction lines to which it contributed; else the state that sends those. -/
def State.commandWaits (s : State) (c : MatCmd) : Option State :=
  let t := s.teamAt c.team
  if !(c.isStep || c.toSpad) then none
  else if t.sdq.any fun w => decide (w.id < c.op) then some s
  else if s.contributed c.team then some (s.sendLines fun l => l.teams.contains c.team)
  else none

/-- MATRIX_COMMAND_START of quarter `unit`. -/
def execMatrixCommandStart (s : State) : Out :=
  .next <|
    match s.frontCmd s.unit with
    | none => s
    | some c =>
      if c.started || c.crewN.isSome || s.replaying s.unit then s
      else match s.commandWaits c with
        | some s' => s'
        | none => s.startCmd s.unit c

/-- The k-rows of B at an address. -/
def State.readB (s : State) (core a t : Nat) : List Nat :=
  (List.range (matK t)).map fun k => s.readNat (scratchBase + (sFlat core (a + k * matRow t)).getD 0) (matRow t)

/-- The keys of a step's B range. -/
def State.keysB (core a t : Nat) : List Nat := keysFrom (scratchBase + (sFlat core a).getD 0) (matBytes t)

/-- One step of a started command, with the k-rows of B that were read (R281, R284). -/
def State.stepCmd (s : State) (gq : Nat) (c : MatCmd) (bs : List Nat) (poisoned : Bool) : State :=
  let w := (c.step * c.astr) % max 1 (LaneOp.awin c.y)
  let l := match c.opnd with
    | some l => l
    | none => s.operandNow c (c.f.a.toNat + w) (c.f.b.toNat + w)
  let rows := ((List.range 64).filter fun r => c.rows.getLsbD r).map fun r =>
    (r, (Store.get 0 l.vals r).toNat, (Store.get 0 l.scales r).toNat)
  let i := 16 * gq + c.tileNo
  let x := (s.tile i).matStep c.ty c.fmt rows bs
  let s := if poisoned then
      ((s.putTile i { x with poison := BitVec.allOnes 64 }).noteError .quarter gq 3).countErr (s.owner 4 i).tag.toNat ePois 64
    else s.putTile i x
  (s.setCmd gq { c with step := c.step + 1 }).countEvent (gq / 4) (s.teamAt c.team).pstat.tag 4 1

/-- The commands that step together with command `c` of sequencer `gq` (R291). -/
def State.together (s : State) (gq : Nat) (c : MatCmd) : List (Nat × MatCmd) :=
  match c.crewN with | some n => s.crewCmdsOf c.team n | none => [(gq, c)]

/-- R114 holds a read of B for one of these commands: an engine took the line before the command issued and has still to write
it. A drain that waits behind one of them in its sequencer came after it. -/
def State.stepHeld (s : State) (cs : List (Nat × MatCmd)) (k : Nat) : Bool :=
  (s.transferLines ++ s.commandLines (cs.map Prod.fst)).any fun l => l.line == lineOf k && cs.any fun c => decide (l.born < c.2.born)

/-- MATRIX_STEP of quarter `unit`; a crew's members step together and B is read once (R291), and hold while the quarter of one of
them replays (R437). -/
def execMatrixStep (s : State) : Out :=
  .next <|
    match s.frontCmd s.unit with
    | none => s
    | some c =>
      if !c.started || decide (c.steps ≤ c.step) then s
      else
        let core := s.unit / 4
        let a := c.addrB c.step
        let keys := State.keysB core a c.ty
        let all := s.together s.unit c
        if keys.any (s.stepHeld all) || all.any (fun x => s.replaying x.1) then s
        else
          let bs := s.readB core a c.ty
          let bad := keys.any s.poisoned
          (all.foldl (fun s x => s.stepCmd x.1 x.2 bs bad) s).fresh

/-! ### Drains (R288) -/

/-- A value divided by a count. -/
structure Quot where
  v : FVal
  n : Nat
  deriving DecidableEq, Repr

/-- Its magnitude times 2^k. -/
def Quot.mag (x : Quot) (k : Int) : Mag :=
  match x.v with
  | .num _ m e => let g := Mag.dyadic m (e + k); { g with d := g.d * x.n }
  | _ => ⟨0, 1, false⟩

def Quot.lead (x : Quot) : Option Int :=
  match x.v with
  | .num _ m _ => if m = 0 then none else some (x.mag 0).floorLog2
  | _ => none

/-- Round x × 2^k. -/
def Quot.round (x : Quot) (f : FFmt) (rnd : Rnd) (sat : Bool) (k : Int) : Rounded :=
  match x.v with
  | .num neg m _ => if m = 0 then ⟨f.encodeMag (neg && f.ieee) 0, false⟩ else f.roundMag rnd sat neg (x.mag k)
  | v => f.ofVal rnd sat v

/-- Element (r, j) as a drain takes it. -/
def Tile.drained (x : Tile) (empty mean : Bool) (r j : Nat) : Quot :=
  let n := x.count r j
  let v := fmtF32.decode (Store.get 0 x.vals (32 * r + j)).toNat
  if n = 0 then ⟨if empty then .num false 0 0 else .absent, 1⟩
  else if v = .nan then ⟨.nan, 1⟩
  else ⟨v, if mean then n else 1⟩

/-- The image of a drained row, and the bins of its results. -/
def MatCmd.rowImage (c : MatCmd) (x : Tile) (r : Nat) : Nat × List (Option Nat) :=
  let xs := (List.range 32).map (x.drained (c.fmt.getLsbD 10) (c.f.modF 4 1 == 1) r)
  let code := resolveRnd c.f.rnd.toNat c.fmt
  let rnd (j : Nat) : Rnd := rndMode code (if code = 5 then srBits c.seed c.ctr (fld c.fmt.toNat 14 4) r j else 0)
  if tyIsBlock c.ty then
    let f := blockFmt c.ty c.fmt
    let scale : Nat :=
      if xs.all fun q => q.v == .absent then 0xFE
      else match (xs.filterMap Quot.lead).max? with
        | none => 127
        | some k => (clampInt 0 0xFD (k - f.emax + 127)).toNat
    let rs := xs.zipIdx.map fun q =>
      if 0xFE ≤ scale then (⟨0, false⟩ : Rounded) else q.1.round f (rnd q.2) true (127 - scale)
    (mkRec c.ty scale (rs.map Rounded.code), rs.map (f.binScaled scale))
  else
    let f := fmtOf c.ty c.fmt
    let rs := xs.zipIdx.map fun q => q.1.round f (rnd q.2) (c.f.sat == 1#1) 0
    (packElems (tyBits c.ty) (rs.map Rounded.code), rs.map f.bin)

/-- What the rows of a drain leave: the tile, the images with row and lane, the bins and the findings. -/
structure Drained where
  tile   : Tile
  rows   : List (Nat × Nat × Nat) := []
  poison : List (Nat × Nat) := []
  bins   : List Nat := []
  found  : List Finding := []

def MatCmd.drainRows (c : MatCmd) (x : Tile) : Drained :=
  c.laneRows.foldl (fun d rl =>
    let k := d.tile.checkRow rl.1
    let im := c.rowImage k.1 rl.1
    { tile := if c.f.modF 2 1 = 1 then k.1.clearRow rl.1 else k.1
      rows := d.rows ++ [(rl.1, rl.2, im.1)]
      poison := if k.1.poison.getLsbD rl.1 then d.poison ++ [rl] else d.poison
      bins := d.bins ++ (if c.f.modF 3 1 = 1 ∧ c.fmt.getLsbD 11 then im.2.filterMap id else [])
      found := d.found ++ [k.2] }) { tile := x }

/-- The histogram updates of a drain (R244). -/
def MatCmd.binOps (c : MatCmd) (core : Nat) (bs : List Nat) : List Rmw :=
  bs.filterMap fun b =>
    (sFlat core (c.hist.toNat + 256 * fld c.fmt.toNat 12 2 + 4 * b)).map fun f =>
      { mode := { op := .bin }, key := scratchBase + f, size := 4, val := 1 }

/-- Register writes of a finished command: delivered, with its token (R275). -/
def State.endCmd (s : State) (gq : Nat) (c : MatCmd) (regs : List (Nat × Lane32)) (kills : List Nat) : State :=
  let s := { s.dropCmd gq c with cur := c.team }
  match s.team.op? c.op with
  | none => s
  | some p => s.deliver { p with regs := regs.filter (fun x => p.awaits.contains x.1), awaits := [], kills := kills }

/-- Lines of a drain with the sectors to be poisoned: written in turn, each when the forwarder has a place for it (R352); with
the last one the command is finished. What is left is the engine's until then (R114). -/
def State.writeLines (gq : Nat) (c : MatCmd) : List (List (Nat × Byte) × List Nat) → State → State
  | [], s => (s.setCmd gq { c with late := none, lines := [] }).endCmd gq c [] []
  | (bs, secs) :: rest, s =>
    if s.forwarderFull (bs.map Prod.fst) then
      s.setCmd gq { c with late := some ((bs, secs) :: rest),
                           lines := c.lines.filter fun l => ((bs, secs) :: rest).any fun x => x.1.any fun b => lineOf b.1 == l }
    else State.writeLines gq c rest ((s.perform bs true).poisonSectors secs)

/-- The bytes of a drain, line by line, with the sectors of its poisoned rows. -/
def drainLines (bs : List (Nat × Byte)) (bad : List Nat) : List (List (Nat × Byte) × List Nat) :=
  ((bs.map fun b => lineOf b.1).eraseDups).map fun l =>
    (bs.filter fun b => lineOf b.1 == l, bad.filter fun sec => sec / 4 == l)

/-- A drain, rows in ascending order (R288); everything else that reaches its lines is held until they are written (R114). -/
def State.drain (s : State) (gq : Nat) (c : MatCmd) : State :=
  let i := 16 * gq + c.tileNo
  let d := c.drainRows (s.tile i)
  let n := LaneOp.rowBytes c.ty
  let put (s : State) : State :=
    (d.found.foldl (fun s f => s.countFinding i f) (s.putTile i d.tile)).modTeam c.team fun t =>
      t.addBins s.cycle (c.binOps t.core d.bins)
  if c.toSpad then
    let keys (r : Nat) : List Nat := (List.range n).map fun k => scratchBase + (sFlat (gq / 4) (c.rowAddr r + k)).getD 0
    let bs := d.rows.flatMap fun x => spread (keys x.1) x.2.2
    let bad := (d.poison.flatMap fun x => (keys x.1).map sectorOf).eraseDups
    if (bs.map Prod.fst).any (s.engineHeld c.team c.born) then s
    else State.writeLines gq c (drainLines bs bad) (put s)
  else
    let dead := d.poison.map fun x => x.2 / 32
    let good := d.rows.filter fun x => !(d.poison.any fun y => y.1 == x.1)
    (put s).endCmd gq c (good.flatMap fun x => putRegs c.f.d.toNat x.2.1 x.2.2 ((n + 3) / 4)) dead.eraseDups

/-- `mmcheck` (R289): every row is verified, and the status words are written. -/
def State.checkTile (s : State) (gq : Nat) (c : MatCmd) : State :=
  let i := 16 * gq + c.tileNo
  let r := (List.range 64).foldl (fun (a : Tile × List Finding) r =>
    let k := a.1.checkRow r
    (k.1, a.2 ++ [k.2])) (s.tile i, [])
  let s := r.2.foldl (fun s f => s.countFinding i f) (s.putTile i r.1)
  let word (r' : Nat) : Lane32 := match r.2[r']? with
    | some f => BitVec.ofNat 32 (f.bit * 2 ^ 16 + f.col * 2 ^ 8 + f.code)
    | none => 0
  s.endCmd gq c (c.laneRows.map fun x => (vKey (c.f.immF 0 8) x.2, word x.1)) []

/-- MATRIX_COMMAND_COMPLETE of quarter `unit`: the last write of the front command, once it has taken its steps. -/
def execMatrixCommandComplete (s : State) : Out :=
  .next <|
    match s.frontCmd s.unit with
    | none => s
    | some c =>
      let t := s.teamAt c.team
      if !c.started || decide (c.step < c.steps) || !(t.op? c.op).all t.firstInLine || s.replaying s.unit then s
      else match c.late with
        | some ls => State.writeLines s.unit c ls s
        | none => match c.kind with
          | .mma | .mmloop => s.endCmd s.unit c [] []
          | .mmzero => (s.putTile (16 * s.unit + c.tileNo) {}).endCmd s.unit c [] []
          | .mmdrain => s.drain s.unit c
          | .mmcheck => s.checkTile s.unit c

/-! ### Crews (R291) -/

/-- What the members of an operation must agree in; types are compared as they resolve (R66). -/
def MatCmd.agrees (c d : MatCmd) : Bool :=
  c.kind == d.kind && c.ty == d.ty && c.x == d.x && c.steps == d.steps && (!c.isLoop || c.binc == d.binc)

/-- CREW_ARRIVAL: the crewed command at the front of quarter `unit` arrives; the last arrival starts the operation. -/
def execCrewArrival (s : State) : Out :=
  .next <|
    match s.frontCmd s.unit with
    | none => s
    | some c => match c.crewN with
      | none => s
      | some n =>
        if c.arrived || (s.together s.unit c).any (fun x => s.replaying x.1) then s
        else match s.commandWaits c with
          | some s' => s'
          | none =>
            let s := s.setCmd s.unit { c with arrived := true }
            let all := s.crewCmdsOf c.team n
            if decide (all.length < (s.crewOf c.team).length) || !(all.all fun x => x.2.arrived) then s
            else if all.all fun x => c.agrees x.2 then all.foldl (fun s x => s.startCmd x.1 x.2) s
            else s.cancelCrew c.team n

end Sys2Proof.Machine
end

