-- ==== Sys2Proof/Machine/Points.lean ====
section
/-!
DEFINITION. Machine/Points.lean: the exact points of a team (R44) and what is taken at one before the next instruction:
asynchronous causes and STEP, in the order of R404.
-/

namespace Sys2Proof.Machine

/-- The scalar stream stands before an instruction: nothing but a save or a halt keeps it from beginning (R48, R43, R166). -/
def Team.stands (t : Team) : Bool :=
  t.life == .resident && t.esc.isNone && !t.halted && t.trapReq.isNone && t.park.isNone && t.barWait.isNone
    && !t.scalarPending && !t.suspended

/-- It can begin an instruction, or go on with one that is past its instant (R185). -/
def Team.runs (t : Team) : Bool := t.stands && (t.pastPoint || (t.saveReq.isNone && !t.haltReq && !t.bpHalt))

/-- No scalar instruction after an `lrun` has executed: fetch is suspended, the `lrun` is part-way through, or it was the last to
complete. -/
def Team.standsAfter (t : Team) (pc : Word) : Bool :=
  t.suspended || (t.lidx.isSome && t.pc == pc) || (t.lidx.isNone && t.lastRun == some pc)

/-- The head of the queue is an exact point (R44): no scalar instruction after its `lrun` has executed, and the queue holds the
rest of one block. A team that is parked has executed its `yield` or `mwait`, and its point is there (R402, R407). -/
def Team.headPoint (t : Team) : Option LaneEntry :=
  match t.laneq with
  | [] => none
  | e :: _ =>
    if t.park.isNone && t.standsAfter e.pc && t.laneq.zipIdx.all (fun x => x.1.pc == e.pc && x.1.lidx == e.lidx + x.2) then some e else none

/-- A debugger's halt is taken here: at the next exact point, and for a breakpoint when what was enqueued before it has
issued (R424, R425). A save that has stopped the team carries the halt with it (R404). -/
def Team.haltHere (t : Team) : Bool :=
  (t.haltReq || t.bpHalt) && t.life == .resident && !t.saveStopped && t.esc.isNone && t.trapReq.isNone && t.park.isNone && t.barWait.isNone
    && !t.scalarPending && !t.pastPoint && (t.laneq.isEmpty || (t.haltReq && t.headPoint.isSome))

/-- The team halts; a count of YIELD_CYCLES that was running starts again afterwards (R405). -/
def Team.halt (t : Team) : Team :=
  { t.stopCount with halted := true, haltReq := false, bpHalt := false }

/-- Ranks 3 to 7 of R404. -/
def asyncRank (c : Nat) : Nat :=
  if c = cCheckpoint then 3 else if c = cIntegrity then 4 else if c = cFabric then 5 else if c = cRevoke then 6 else 7

/-- The pending cause that ranks first; while INH is 1 only STEP is taken (R404). -/
def firstCause (inh : Bool) : List (Nat × Word) → Option (Nat × Word)
  | [] => none
  | x :: xs =>
    let rest := firstCause inh xs
    if inh && x.1 != cStep then rest
    else match rest with
      | none => some x
      | some y => if asyncRank y.1 < asyncRank x.1 then some y else some x

def Team.dropCause (t : Team) (x : Nat × Word) : Team := { t with async := t.async.erase x }

/-- Between QUIESCE and STOPPED a team stands at its stopping point until every team has drained (R456, R457). -/
def State.checkpointHeld (s : State) (t : Team) : Bool :=
  s.quiesce.active && !s.quiesce.stopped && (firstCause t.pstat.inh t.async).any fun x => x.1 == cCheckpoint

/-- A debugger halts the team where its scalar stream stands (R404 rank 2): a breakpoint matches at the next scalar instruction or at the
index that the `lrun` there is about to enqueue (R424), or the instruction is a `brk` that halts (R425). -/
def State.haltsAt (s : State) : Bool :=
  let t := s.team
  !t.pastPoint &&
    match t.lidx with
    | some i => (s.breakpoint (some i)).2
    | none => (s.breakpoint none).2 ||
      match s.fetchAt t t.pc.toNat 4 with
      | .word w =>
        (match s.headerOf t w with
         | some h => decide (t.laneq.length < laneQueueSize) && (s.breakpoint (some 0)).2
            && (match s.header t h with | .block _ _ => true | _ => false)
         | none => decodeScalar w == .brk && s.brkHalts t && !t.brkHalt)
      | _ => false

/-- A forced save waits here for the debugger's halt that ranks before it (R404, R433). -/
def State.haltBeforeSave (s : State) : Bool := s.team.stands && s.team.laneq.isEmpty && s.haltsAt

/-- Take the first pending cause when the team stands at an exact point; none when there is nothing to take. -/
def State.takeCause (s : State) : Option State :=
  let t := s.team
  match (if t.pastPoint || s.checkpointHeld t then none else firstCause t.pstat.inh t.async) with
  | none => none
  | some x =>
    let s := s.setTeam (t.dropCause x)
    match t.headPoint with
    | some e => some (s.trapLane e x.1 x.2 [])
    | none =>
      if t.laneq.isEmpty then
        some (s.trapHere x.1 x.2 [])
      else none

/-- A cause waits for the lane queue to reach an exact point: no further scalar instruction begins. -/
def Team.causeWaits (t : Team) : Bool := !t.pastPoint && (firstCause t.pstat.inh t.async).isSome

/-- The instruction completed: it moved the pc or transferred control. -/
def Team.completed (before t : Team) : Bool := t.life == .resident && (t.pc != before.pc || t.came.isSome)

/-- STEP after what began with STEP = 1 (R302); a save or a debugger's halt that waits comes first (R404). -/
def State.afterStep (s : State) : State :=
  let s := s.upd fun t => t.addAsync cStep 0
  if s.team.saveReq.isSome || s.team.haltReq then s else (s.takeCause).getD s

/-- The end of a scalar instruction's step: one that completed is counted (R431) and followed by STEP, but for the rest of an
`lrun` that was resumed, whose lane instructions are followed by their own; a debugger's STEP ends (R425). -/
def State.afterScalar (s : State) (before : Team) : State :=
  let t := s.team
  if Team.trapped before t then
    s.setTeam { t with haltReq := t.haltReq || t.stepOnce, stepOnce := false }
  else if t.ended = before.ended ∧ Team.completed before t then
    let s := s.setTeam { t.issuesScalar s.cycle before.pc with
                                ended := t.ended + 1, bpSkip := none, brkHalt := false,
                                lastRun := if t.lastRun = some before.pc then t.lastRun else none,
                                haltReq := t.haltReq || t.stepOnce, stepOnce := false }
    if before.pstat.stp && before.lidx.isNone then s.afterStep else s
  else if t.life = .exited then s.setTeam { t with ended := t.ended + 1 }
  else if t.scalarPending ∨ before.laneq.length < t.laneq.length then s.setTeam (t.issuesScalar s.cycle before.pc)
  else s

/-- The end of a lane instruction's step: STEP follows when it has issued (R20, R302). -/
def State.afterLane (s : State) (before : Team) (e : LaneEntry) : State :=
  if e.stp && s.team.laneq.length + 1 == before.laneq.length && !Team.trapped before s.team then s.afterStep else s

/-- A transfer's target is an `ext`, or the word directly after one (R146). -/
def State.badTarget (s : State) (t : Team) (i : Option Instr) : Bool :=
  t.came.isSome && ((match i with | some (.ext _) => true | _ => false) || s.isExt t (t.pc - 4#64).toNat)

/-- Words whose ILLEGAL precedes PREFIX (R302). -/
def wordOk : Instr → Bool
  | .unassignedScalarWord _ => false
  | i => i.wf

end Sys2Proof.Machine
end

