-- ==== Sys2Proof/Machine/Life.lean ====
section
/-!
DEFINITION. Machine/Life.lean: the end of a team, of a group and
of a grid (R48, R199, R263, R377), and `halt`, `brk` and `mark` (R196, R197, R199).
-/

namespace Sys2Proof.Machine

/-! ### The end of a team -/

/-- The completion word of a grid (R377): stored, or lost when its frame has left the tenant (R382). -/
def State.storeDone (s : State) (g : Grid) : State :=
  let done := (g.words.getD 22 0).toNat
  if done = 0 then s
  else match s.frameCause g.tag g.world 0 (done / 2 ^ 16 * 2 ^ 16) with
    | none => s.putWord done (g.words.getD 23 0).toNat
    | some _ => s.recordLost g.tag.toNat { resource := 2 * 2 ^ 60 + done / 2 ^ 16, cause := 4, time := s.now }

/-- The completion store is a release at system scope (R377): it waits for the postcards that carry writes of its tenant (R118).
The grid's own writes have been performed, since every team exits with an empty store-delay queue and a group ends when its
commands have; what its groups left in reduction buffers was sent at their exit, and is waited for (R121). -/
def State.endGrid (s : State) (gid : Nat) : State :=
  let g := s.gridAt gid
  let lines := s.redbuf.any fun r => r.2.any fun l => l.teams.any fun id => (s.groupAt (s.teamAt id).group).grid == gid
  let t : Team := { pstat := { tag := g.tag, world := g.world } }
  if !g.owed || lines then s
  else if s.cardsPending t then s.closeCards t
  else (s.putGrid gid { g with owed := false }).storeDone g

/-- The tiles of a TILEMASK. -/
def Group.tiles (g : Group) : List Nat := (List.range 16).filter fun i => g.tilemask.getLsbD i

/-- A group's tiles on a quarter of its core go back to management; a tile that a seizure has taken is no longer its. On a
retired quarter they are marked RETIRED as they leave the tag (R442). -/
def State.freeTiles (s : State) (gid q : Nat) : State :=
  let g := s.groupAt gid
  let tag := (s.gridAt g.grid).tag
  g.tiles.foldl (fun s i =>
    let k := 16 * (4 * g.core + q) + i
    let o := s.owner 4 k
    if o.tag = tag then
      s.setOwner 4 k { o with tag := 0, world := 0, retired := o.retired || Store.get false s.retired (4 * g.core + q) }
    else s) s

/-- The dispatcher grants a group its tiles on a quarter: zero, and owned by the group's tag (R33, R384). -/
def State.grantTiles (s : State) (gid q : Nat) : State :=
  let g := s.groupAt gid
  let r := s.gridAt g.grid
  g.tiles.foldl (fun s i =>
    let k := 16 * (4 * g.core + q) + i
    (s.setOwner 4 k { s.owner 4 k with tag := r.tag, world := r.world }).putTile k {}) s

/-- A group of a grid has exited. -/
def State.endGroup (s : State) (gid : Nat) : State :=
  let g := s.groupAt gid
  let s := (g.quarters.foldl (fun (s : State) q => s.freeTiles gid q) s).putGroup gid { g with alive := false, quarters := [] }
  let r := s.gridAt g.grid
  let r := { r with exited := r.exited + 1 }
  let s := { s with roundDue := true }
  if r.exited = r.ngroups then (s.putGrid g.grid { r with alive := false, owed := true }).endGrid g.grid else s.putGrid g.grid r

/-- A team is on its way out of its quarter (R381, R399). -/
def Team.leaving (t : Team) : Bool := t.life == .resident && (t.pstat.p || t.saveReq.isSome)

/-- A group with a Saved team. -/
def State.groupSaved (s : State) (gid : Nat) : Bool := (s.groupAt gid).members.any fun m => (s.teamAt m).life == .saved

/-- The groups of a gang that hold Saved teams become Saved work at the front of their queue, together (R381), as soon as no team of
the gang is on its way out; teams that run on do not hold it up (R364, R371). -/
def State.noteSaved (s : State) (gid : Nat) : State :=
  let gs := s.gangOf gid
  let ready := gs.filter s.groupSaved
  let g := s.groupAt gid
  let n := (s.gridAt g.grid).queue
  let q := s.queueAt n
  if ready.isEmpty || gs.any fun g => (s.groupAt g).members.any fun m => (s.teamAt m).leaving then s
  else
    let mine (w : Work) : Bool := w.saved && w.groups.any gs.contains
    { s.putQueue n { q with work := { (q.work.find? mine).getD {} with saved := true, grid := g.grid, groups := ready }
        :: (q.work.filter fun w => !mine w) } with roundDue := true }

/-- Management frees the rucksack of a team that exits (R398): its frames belong to no world any more. -/
def State.freeSack (s : State) (t : Team) : State :=
  match t.sack with
  | none => s
  | some b => (List.range 16).foldl (fun s i =>
      let k := 16 * b + i
      let o := s.owner 2 k
      if o.tag = 0 then s.setOwner 2 k { o with world := 0 } else s) s

/-- A command of the team is still in a sequencer. -/
def State.commanding (s : State) (id : Nat) : Bool := (s.sequencer (s.teamAt id).gq).any fun c => c.team == id

/-- Every team of a group has exited, and none has left a command in a sequencer, which still uses its registers and tiles. -/
def State.groupOver (s : State) (gid : Nat) : Bool :=
  (s.groupAt gid).members.all fun m => (s.teamAt m).life == .exited && !s.commanding m

/-- A group that is over ends. -/
def State.tryEnd (s : State) (gid : Nat) : State :=
  if (s.groupAt gid).alive && s.groupOver gid then (s.endGroup gid).noteSaved gid else s

/-- Groups and completion stores that wait. -/
def State.endGrids (s : State) : State :=
  let s := s.groups.foldl (fun s g => if g.2.members.isEmpty then s else s.tryEnd g.1) s
  s.grids.foldl (fun s g => if g.2.owed then s.endGrid g.1 else s) s

/-- A team becomes Exited: it leaves every barrier's expected set (R263), its registers are released, its buffered lines
are sent (R121), and its group ends with its last team. -/
def State.exitTeam (s : State) (id : Nat) (pc : Word) (seq : Nat) (lidx : BitVec 32) : State :=
  let t := s.teamAt id
  let s := if s.traces t.core t.pstat.tag 8 then s.traceOut t.core (s.traceRecord t 8 pc seq lidx 0) else s
  let s := s.putTeam id { t with life := .exited, v := if s.commanding id then t.v else [], laneq := [], park := none, barWait := none, esc := none,
                                 escTrap := none, trapReq := none, async := [], saveReq := none, saveStopped := false, deadline := none,
                                 halted := false, haltReq := false, bpHalt := false, counting := false }
  let s := s.freeSack t
  let s := s.sendLines fun l => l.teams.contains id
  let g := s.groupAt t.group
  let s := s.putGroup t.group { g with bars := (List.range 16).foldl (fun bs n =>
    Store.set {} bs n { (Store.get {} bs n : Barrier) with departed := true }) g.bars }
  let s := (s.gangOf t.group).foldl (fun s gid => (List.range 16).foldl (fun s n => s.tryBarrier gid n) s) s
  (if s.groupOver t.group then s.endGroup t.group else s).noteSaved t.group

/-- `halt` (R199). -/
def execHalt (s : State) : Out :=
  .next <|
    let t := s.team
    match s.orphanToken t with
    | some k => s.trap cTokenCancel (tokenCancelVal t k)
    | none =>
      if !t.laneq.isEmpty || !t.tokensZero || !t.sdq.isEmpty then s
      else if s.contributed s.cur then s.sendLines fun l => l.teams.contains s.cur
      else s.exitTeam s.cur t.pc t.seqctr.toNat 0xFFFFFFFF#32

/-! ### Debugging from inside -/

/-- `brk` halts its team when the hypervisor has claimed breakpoints and set BRKH (R425); when the halt that it made itself has
ended, it is over. -/
def execBrk (s : State) : Out :=
  .next <|
    let t := s.team
    if s.brkHalts t then
      (if t.brkHalt then s.setTeam { t.advance with brkHalt := false } else s.setTeam { t with bpHalt := true, brkHalt := true })
    else s.trap cBreak 0

/-- `mark` (R196): a trace record of kind 1. -/
def execMark (a : BitVec 6) (s : State) : Out :=
  .next ((s.traceTeam 1 s.team.pc s.team.seqctr.toNat 0xFFFFFFFF#32 (s.team.reg a)).upd Team.advance)

end Sys2Proof.Machine
end

