-- ==== Sys2Proof/Machine/Save.lean ====
section
/-!
DEFINITION. Machine/Save.lean: pre-emption (R316, R317, R405), the rucksack (R398), saving a team (R399, R400) and
restoring one (R401, R402, R406).
-/

namespace Sys2Proof.Machine

/-! ### P and its count (R316, R319, R405) -/

def State.queueOf (s : State) (t : Team) : Queue := s.queueAt (s.gridAt (s.groupOf t).grid).queue

/-- P is set: a parked team has yielded (R268); for another the count starts, unless a halt or an escalation stops it. -/
def State.setP (s : State) (id : Nat) : State :=
  let t := s.teamAt id
  if t.life ≠ .resident ∨ t.pstat.p then s
  else
    let t := { t with pstat := { t.pstat with p := true } }
    s.putTeam id <|
      if t.halted ∨ t.esc.isSome then { t with counting := true }
      else if t.park.isSome then { t with saveReq := some 3 }
      else { t with deadline := some (s.cycle + (s.queueOf t).yields.toNat), restarted := false }

/-- A halt or an escalation has ended: the count starts again in full (R405). -/
def State.resumeCount (s : State) (id : Nat) : State :=
  let t := s.teamAt id
  if t.counting then
    s.putTeam id { t with counting := false, deadline := some (s.cycle + (s.queueOf t).yields.toNat) }
  else s

/-- YIELD_DEADLINE of team `unit`: a forced save, or, for a team that handles a trap, once a new count (R405). -/
def execYieldDeadline (s : State) : Out :=
  .next <|
    let s := s.atUnit
    let t := s.team
    match t.deadline with
    | none => s
    | some d =>
      if s.cycle < d ∨ t.trapReq.isSome ∨ t.haltReq ∨ t.bpHalt ∨ t.saveReq.isSome then s
      else if t.pstat.inh ∧ !t.restarted then
        s.setTeam { t with deadline := some (s.cycle + (s.queueOf t).yields.toNat), restarted := true }
      else s.setTeam { t with deadline := none, saveReq := some 2 }

/-! ### The rucksack (R398) -/

/-- Bytes of a tile image (R273). -/
def imageSize : Nat := 12864

/-- The tile images follow the registers. -/
def Team.imagesAt (t : Team) : Nat := 0x1000 + 128 * (8 * t.nvreg) * t.nwarp

/-- A token as a byte. -/
def Token.byte (x : Token) : Nat := x.count + bit x.cancel 6
def Token.ofByte (b : Nat) : Token := { count := fld b 0 6, cancel := fld b 6 1 = 1 }
def tokensNat (tok : List (Nat × Token)) : Nat :=
  (List.range 16).foldl (fun x k => x + (Store.get {} tok k : Token).byte * 256 ^ k) 0
def tokensOf (x : Nat) : List (Nat × Token) :=
  Store.setAll {} [] ((List.range 16).map fun k => (k, Token.ofByte (x / 256 ^ k % 256)))

/-- PSTAT from the word that a rucksack holds. -/
def Pstat.ofWord (x : Nat) : Pstat :=
  { tag := bfld x 24 16, world := bfld x 16 8, inh := x.testBit 11, stp := x.testBit 10, pl := bfld x 8 2,
    chk := x.testBit 7, ma := x.testBit 5, mz := x.testBit 4, n := x.testBit 3, z := x.testBit 2, c := x.testBit 1,
    v := x.testBit 0 }

def Team.header (t : Team) (kind : Nat) (tiles : Bool) : Nat :=
  kind + bit t.pstat.inh 8 + bit t.latch.valid 9 + bit tiles 10 + bit (t.haltReq || t.bpHalt || t.halted) 20
    + (pendBits.map fun p => bit (t.async.any fun a => a.1 == p.2) p.1).sum

def Team.parkWord (t : Team) : Nat :=
  match t.park with
  | none => 0
  | some (.stile _ _ d _) => 2 ^ 62 + d.toNat
  | some (.watch _ d) => 2 ^ 63 + d.toNat

/-- The items of the rucksack but for lane registers and tile images: offset, size, value. DESIGN CHOICE (log entry 80, unsafe): the
cursor of TRAPVEC counts on past its three bits while the team runs, so that a ninth read gives 0 as R303 says, and is saved modulo
8. -/
def Team.items (t : Team) (kind : Nat) (tiles : Bool) : List (Nat × Nat × Nat) :=
  [(0x0, 8, t.header kind tiles), (0x8, 8, t.pc.toNat),
   (0x10, 8, t.seqctr.toNat * 2 ^ 32 + t.lidx.getD 0xFFFFFFFF),
   (0x18, 8, ({ t.pstat with p := false } : Pstat).word.toNat),
   (0x20, 8, t.fmt.toNat), (0x28, 8, t.srseed.toNat), (0x30, 8, t.srctr.toNat), (0x38, 8, t.histbase.toNat),
   (0x40, 8, t.yieldpc.toNat), (0x48, 8, t.killed.toNat), (0x50, 8, t.parkWord), (0x60, 16, tokensNat t.tok),
   (0x70, 8, t.trapcur % 8), (0x80, 8, t.trapcause.toNat), (0x88, 8, t.trappc.toNat), (0x90, 8, t.trapseq.toNat),
   (0x98, 8, t.traplidx.toNat), (0xA0, 8, t.trapval.toNat)]
  ++ (match t.frame with
      | none => []
      | some f =>
        [(0xA8, 8, f.pl.toNat + bit f.inh 2 + bit f.stp 3 + bit f.ma 9 + bit f.mz 8 + bit f.n 7 + bit f.z 6 + bit f.c 5
            + bit f.v 4),
         (0xB0, 8, f.srctr.toNat), (0xB8, 16, tokensNat f.tok)])
  ++ (List.range 8).map (fun i => (0xC8 + 8 * i, 8, (t.trapvec.getD i 0).toNat))
  ++ (List.range 64).map (fun n => (0x200 + 8 * n, 8, (t.reg (BitVec.ofNat 6 n)).toNat))
  ++ (List.range 4).flatMap (fun n =>
      let q : Slot := Store.get {} t.q n
      [(0x400 + 32 * n, 8, q.base.toNat), (0x408 + 32 * n, 8, q.kind.toNat * 16 + q.ty.toNat),
       (0x410 + 32 * n, 8, q.stride.toNat), (0x418 + 32 * n, 8, q.pos.toNat * 2 ^ 32 + q.count.toNat)])
  ++ (if t.latch.valid then
        (0x480, 8, t.latch.ty.toNat * 2 ^ 16 + t.latch.b.toNat * 2 ^ 8 + t.latch.a.toNat)
          :: (t.latch.vals.map (fun x => (0x500 + 4 * x.1, 4, x.2.toNat))
            ++ t.latch.scales.map (fun x => (0x600 + 4 * x.1, 4, x.2.toNat)))
      else [])
  ++ (List.range 15).map (fun n => (0x700 + 128 * n, 128, (t.mask (n + 1)).toNat))

/-- The lane registers that are not 0. -/
def Team.regItems (t : Team) : List (Nat × Nat × Nat) :=
  t.v.map fun x => (0x1000 + 128 * (x.1 / 1024 * t.nwarp + x.1 % 1024 / 32) + 4 * (x.1 % 32), 4, x.2.toNat)

/-- A tile image, from offset `o` (R273). -/
def Tile.items (x : Tile) (o : Nat) : List (Nat × Nat × Nat) :=
  x.vals.map (fun e => (o + 4 * e.1, 4, e.2.toNat)) ++ x.counts.map (fun e => (o + 8192 + 2 * e.1, 2, e.2.toNat))
    ++ x.cx.map (fun e => (o + 12288 + 8 * e.1, 4, e.2.toNat)) ++ x.cr.map (fun e => (o + 12292 + 8 * e.1, 4, e.2.toNat))
    ++ [(o + 12800, 8, x.poison.toNat)]

/-- A tile from the image at key `k`; the parity bits are made anew. -/
def State.tileImage (s : State) (k : Nat) : Tile :=
  let part (n off size : Nat) : List (Nat × Nat) := (List.range n).map fun i => (i, s.readNat (k + off + size * i) size)
  { vals := Store.setAll 0 [] ((part 2048 0 4).map fun x => (x.1, BitVec.ofNat 32 x.2))
    counts := Store.setAll 0 [] ((part 2048 8192 2).map fun x => (x.1, BitVec.ofNat 16 x.2))
    cx := Store.setAll 0 [] ((part 64 12288 8).map fun x => (x.1, BitVec.ofNat 32 x.2))
    cr := Store.setAll 0 [] ((part 64 12288 8).map fun x => (x.1, BitVec.ofNat 32 (x.2 / 2 ^ 32)))
    poison := BitVec.ofNat 64 (s.readNat (k + 12800) 8) }

/-- Raw bytes written by management: nothing listed in the range stays. -/
def State.writeRange (s : State) (base size : Nat) (items : List (Nat × Nat × Nat)) : State :=
  let inside (k : Nat) : Bool := decide (base ≤ k) && decide (k < base + size)
  { s with
    mem := Store.setAll 0 (s.mem.filter fun c => !inside c.1)
      (items.flatMap fun x => spread (keysFrom (base + x.1) x.2.1) x.2.2)
    poison := s.poison.filter fun p => !inside (32 * p.1)
    tampers := s.tampers.filter fun x => !inside (128 * x.1) }

/-! ### Saving (R399) -/

/-- The teams of a group that are resident on a quarter of its core. -/
def State.onQuarter (s : State) (gid q : Nat) : List Nat :=
  (s.groupAt gid).members.filter fun m => (s.teamAt m).life == .resident && (s.teamAt m).quarter == q

/-- The point at which the team stops, when it stands at one: pc, index, sequence number and SRCTR (R399 step 1). A parked team stops
at its `yield` or `mwait`, when its lane instructions have issued. -/
def Team.savePoint (t : Team) : Option (Word × Option Nat × BitVec 32 × Word) :=
  if t.trapReq.isSome || t.scalarPending || t.pastPoint then none
  else match t.escTrap with
    | some r =>
      if t.laneq.isEmpty then some (r.pc, (if r.lidx = 0xFFFFFFFF#32 then none else some r.lidx.toNat), r.seq, r.srctr) else none
    | none => match t.headPoint with
      | some e => some (e.pc, some e.lidx, e.seq, e.ctr)
      | none => if t.laneq.isEmpty then some (t.pc, t.lidx, t.seqctr, t.srctr) else none

/-- The commands of the executing team that have not started are cancelled, crewed ones in every member (R292). -/
def State.cancelUnstarted (s : State) : State :=
  let gq := s.team.gq
  ((s.sequencer gq).filter fun c => c.team == s.cur && !c.started).foldl (fun s c => match c.crewN with
    | some n => s.cancelCrew c.team n
    | none => s.cancelCmd gq c) s

/-- Parked by `yield` (R268). -/
def Team.yielded (t : Team) : Bool := match t.park with | some (.stile _ _ _ _) => true | _ => false

/-- Steps 1 and 3: the team stops. A yield has waited for its tokens, and what it finds in the sequencer, posted to none, runs on;
every other save, that of a team parked by `mwait` among them, cancels the commands that have not started (R292, R317). -/
def State.stopForSave (s : State) (kind : Nat) : State :=
  match s.team.savePoint with
  | none => s
  | some (pc, lidx, seq, ctr) =>
    let s := s.upd fun t => { t with
      saveStopped := true, laneq := [], pc := pc, lidx := lidx, lhdr := none, seqctr := seq, srctr := ctr, came := none,
      bpSkip := none, brkHalt := false, lastRun := none }
    if kind = 1 ∨ s.team.yielded then s else s.cancelUnstarted

/-- What stays with the team itself while its state is in the rucksack. -/
def Team.putAway (t : Team) (kind : Nat) : Team :=
  { life := .saved, pc := t.pc, pstat := { t.pstat with p := false }, killed := t.killed, barWait := t.barWait,
    lcptr := t.lcptr, lidx := t.lidx, seqctr := t.seqctr, resumeD := t.resumeD, async := t.async, saveKind := kind,
    ended := t.ended, sack := t.sack, crewCmds := t.crewCmds, nextOp := t.nextOp, core := t.core, quarter := t.quarter,
    slot := t.slot, group := t.group, index := t.index, nwarp := t.nwarp, nvreg := t.nvreg, crewed := t.crewed, crew := t.crew, origin := t.origin,
    live := t.live }

/-- Steps 5 and 6, and the round that follows a save (R380): the rucksack is written, with the tile images when the team is the last of its quarter set (R400), and
the team is Saved. -/
def State.writeRucksack (s : State) (id kind : Nat) : State :=
  let t := s.teamAt id
  let g := s.groupOf t
  let last := !g.tiles.isEmpty && g.quarters.contains t.quarter && s.onQuarter t.group t.quarter == [id]
  let images := if last then
      g.tiles.zipIdx.flatMap fun i => (s.tile (16 * t.gq + i.1)).items (t.imagesAt + imageSize * i.2)
    else []
  let s := s.writeRange (s.sackAt id) rucksackSize (t.items kind last ++ t.regItems ++ images)
  let s := if s.traces t.core t.pstat.tag 5 then
      s.traceOut t.core (s.traceRecord t 5 t.pc t.seqctr.toNat t.lidxWord (BitVec.ofNat 64 kind))
    else s
  let s := s.putTeam id (t.putAway kind)
  let s := if last then (s.freeTiles t.group t.quarter).putGroup t.group { g with quarters := g.quarters.erase t.quarter } else s
  { s.noteSaved t.group with roundDue := true }

/-- What the team has posted and written is over. -/
def Team.drained (t : Team) : Bool := t.pend.isEmpty && t.sdq.isEmpty

/-- The KIND of no save: management's END drains as a save does, and the team exits (R397). -/
def kindEnd : Nat := 0

/-- TEAM_SAVE of team `unit`: it stops at its next exact point, drains, and goes into its rucksack when its last result is 64 cycles old and no replay is under way
(R446), or exits (END). A forced save lets a debugger's
halt and the causes that rank before it come first, and waits while the team is halted or stopped at an escalation (R48, R404). -/
def execTeamSave (s : State) : Out :=
  .next <|
    let s := s.atUnit
    let t := s.team
    match t.saveReq with
    | none => s
    | some kind =>
      if t.life ≠ .resident ∨ (kind = 2 ∧ (t.halted ∨ t.esc.isSome)) then s
      else if t.saveStopped then
        (if !t.drained || s.replaying t.gq then s
         else if kind = kindEnd then s.exitTeam s.cur 0 0 0
         else match t.drainedAt with
           | none => s.setTeam { t with drainedAt := some s.cycle }
           | some c => if s.cycle < c + 64 then s else s.writeRucksack s.cur kind)
      else if kind = 2 ∧ t.haltHere then s.setTeam t.halt
      else if kind = 2 ∧ s.haltBeforeSave then s
      else match (if kind = 2 ∧ t.trapReq.isNone ∧ t.barWait.isNone ∧ !t.scalarPending then s.takeCause else none) with
        | some s' => s'
        | none => s.stopForSave kind

/-! ### Restoring (R401, R402, R406) -/

/-- Poisoned sectors of a rucksack, and those of lines whose tag fails, by their offsets. -/
def State.badSectors (s : State) (base : Nat) : List Nat :=
  (((s.poison.filter Prod.snd).map Prod.fst ++ s.tampers.flatMap fun (x : Nat × (BitVec 1024 × BitVec 64)) => (List.range 4).map (4 * x.1 + ·)).filter fun n =>
    decide (base ≤ 32 * n) && decide (32 * n < base + rucksackSize)).map fun n => 32 * n - base

/-- The rows of a tile of which a sector at this offset of the image holds a part: values, counts, checksums, the poison bits of
every row, and nothing (R273). -/
def imageRows (o : Nat) : List Nat :=
  if o < 8192 then [o / 128] else if o < 12288 then [(o - 8192) / 64]
  else if o < 12800 then (List.range 4).map fun i => (o - 12288) / 8 + i
  else if o < 12832 then List.range 64
  else []

/-- The team as its rucksack holds it. -/
def State.unpack (s : State) (t : Team) (base : Nat) : Team :=
  let r (o n : Nat) : Nat := s.readNat (base + o) n
  let hdr := r 0 8
  let ps := Pstat.ofWord (r 0x18 8)
  let fr := r 0xA8 8
  let lidx := fld (r 0x10 8) 0 32
  let frame : Option Frame := if hdr.testBit 8 then
      some { pl := bfld fr 0 2, inh := fr.testBit 2, stp := fr.testBit 3, n := fr.testBit 7, z := fr.testBit 6,
             c := fr.testBit 5, v := fr.testBit 4, mz := fr.testBit 8, ma := fr.testBit 9,
             srctr := BitVec.ofNat 64 (r 0xB0 8), tok := tokensOf (r 0xB8 16), vec := [], cur := 0 }
    else none
  let latch : Latch := if hdr.testBit 9 then
      { valid := true, ty := bfld (r 0x480 8) 16 4, b := bfld (r 0x480 8) 8 8, a := bfld (r 0x480 8) 0 8,
        vals := Store.setAll 0 [] ((List.range 64).map fun i => (i, BitVec.ofNat 32 (r (0x500 + 4 * i) 4))),
        scales := Store.setAll 0 [] ((List.range 64).map fun i => (i, BitVec.ofNat 32 (r (0x600 + 4 * i) 4))) }
    else {}
  let slot (n : Nat) : Slot :=
    { base := BitVec.ofNat 64 (r (0x400 + 32 * n) 8), kind := bfld (r (0x408 + 32 * n) 8) 4 1,
      ty := bfld (r (0x408 + 32 * n) 8) 0 4, stride := BitVec.ofNat 32 (r (0x410 + 32 * n) 8),
      count := bfld (r (0x418 + 32 * n) 8) 0 32, pos := bfld (r (0x418 + 32 * n) 8) 32 32 }
  let regs := (List.range (8 * t.nvreg)).flatMap fun v => (List.range (32 * t.nwarp)).map fun l =>
    (1024 * v + l, BitVec.ofNat 32 (r (0x1000 + 128 * (v * t.nwarp + l / 32) + 4 * (l % 32)) 4))
  let missing := pendBits.filter fun p => hdr.testBit p.1 && !(t.async.any fun a => a.1 == p.2)
  let async := t.async.filter (fun a => match pendBits.find? fun p => p.2 == a.1 with
      | some p => hdr.testBit p.1
      | none => true)
    ++ missing.map fun p => (p.2, if p.2 = cCheckpoint then BitVec.ofNat 64 s.quiesce.epoch else 0)
  { t with
    life := .resident, pc := BitVec.ofNat 64 (r 0x8 8), lidx := if lidx = 0xFFFFFFFF then none else some lidx,
    seqctr := bfld (r 0x10 8) 32 32, pstat := ps, fmt := BitVec.ofNat 64 (r 0x20 8), srseed := BitVec.ofNat 64 (r 0x28 8),
    srctr := BitVec.ofNat 64 (r 0x30 8), histbase := bfld (r 0x38 8) 0 32, yieldpc := BitVec.ofNat 64 (r 0x40 8),
    killed := bfld (r 0x48 8) 0 32, tok := tokensOf (r 0x60 16), trapcur := fld (r 0x70 8) 0 3,
    trapcause := BitVec.ofNat 64 (r 0x80 8), trappc := BitVec.ofNat 64 (r 0x88 8), trapseq := BitVec.ofNat 64 (r 0x90 8),
    traplidx := bfld (r 0x98 8) 0 32, trapval := BitVec.ofNat 64 (r 0xA0 8), frame := frame,
    trapvec := (List.range 8).map (fun i => BitVec.ofNat 64 (r (0xC8 + 8 * i) 8)),
    s := Store.setAll 0 [] ((List.range 63).map fun n => (n + 1, BitVec.ofNat 64 (r (0x208 + 8 * n) 8))),
    q := Store.setAll {} [] ((List.range 4).map fun n => (n, slot n)), latch := latch,
    m := Store.setAll 0 [] ((List.range 15).map fun n => (n + 1, BitVec.ofNat 1024 (r (0x700 + 128 * n) 128))),
    v := Store.setAll 0 [] regs, async := async, haltReq := hdr.testBit 20 }

/-- A parked team goes on under its PARK word (R402), and a barrier that has completed meanwhile gives its status (R264). -/
def Team.wakeRestored (t : Team) (parked : Nat) : Team :=
  let d : BitVec 6 := bfld parked 0 6
  if fld parked 62 2 = 1 then { ((t.setReg d 2#64).stepDone) with pc := t.yieldpc }
  else if fld parked 62 2 = 2 then { ((t.setReg d 2#64).stepDone) with pc := t.pc + 4#64 }
  else match t.resumeD with
    | some (d, x) => { ((t.setReg d x).stepDone) with pc := t.pc + 4#64, resumeD := none }
    | none => t

/-- The escalation record of a team (R396). -/
def escRecord (world tag handle code : Nat) (sw : Bool) (val pc : Nat) (seq lidx now : Nat) : List (Nat × Nat × Nat) :=
  [(0x0, 8, world * 2 ^ 32 + tag * 2 ^ 16 + handle), (0x8, 8, code + bit sw 8), (0x10, 8, val), (0x18, 8, pc),
   (0x20, 8, seq * 2 ^ 32 + lidx), (0x28, 8, now % 2 ^ 64), (0x30, 8, 0), (0x38, 8, 0)]

/-- Write a record into the ring of the management core; none when it is full (R397). -/
def State.pushEscalation (s : State) (items : List (Nat × Nat × Nat)) : Option State :=
  if (s.escHead - s.escTail).toNat = 64 then none
  else
    let at' := s.escBase.toNat + 64 * (s.escHead.toNat % 64)
    some { (s.perform (items.flatMap fun x => spread (keysFrom (at' + x.1) x.2.1) x.2.2) true) with escHead := s.escHead + 1 }

/-- The record of a team that has escalated; one that finds no place is written when a place frees. -/
def State.recordEscalation (s : State) (id : Nat) : State :=
  let t := s.teamAt id
  match t.esc, t.escTrap with
  | some code, some r =>
    if t.escDone then s
    else match s.pushEscalation (escRecord t.pstat.world.toNat t.pstat.tag.toNat t.handle code r.sw r.val.toNat r.pc.toNat
        r.seq.toNat r.lidx.toNat s.now) with
      | some s' => s'.putTeam id { t with escDone := true }
      | none => s
  | _, _ => s

/-- Load the images of a quarter set onto a quarter, with the poison of their sectors. -/
def State.loadImages (s : State) (id : Nat) : State :=
  let t := s.teamAt id
  let base := s.sackAt id
  (s.groupOf t).tiles.zipIdx.foldl (fun s i =>
    let o := t.imagesAt + imageSize * i.2
    let bad := (s.badSectors base).filter fun x => decide (o ≤ x) && decide (x < o + imageSize)
    let rows := bad.flatMap fun x => imageRows (x - o)
    s.putTile (16 * t.gq + i.1) (rows.foldl Tile.poisonRow (s.tileImage (base + o)))) s

/-- The rucksack of a team holds tile images. -/
def State.hasImages (s : State) (id : Nat) : Bool := (s.readNat (s.sackAt id) 8).testBit 10

/-- A Saved team comes back onto a quarter and slot of its core. A part that reads back uncorrectable meets its fate (R406). -/
def State.takeBack (s : State) (id quarter slot : Nat) : State :=
  let old := s.teamAt id
  let base := s.sackAt id
  let bad := s.badSectors base
  let regs := (bad.filter fun o => decide (0x1000 ≤ o) && decide (o < old.imagesAt)).map fun o => (o - 0x1000) / 128 % old.nwarp
  let t := { (s.unpack old base) with quarter := quarter, slot := slot }
  match bad.find? fun o => decide (o < 0x1000) with
  | some o =>
    let esc : TrapReq := { cause := 0x80, val := BitVec.ofNat 64 o, pc := old.pc, lidx := old.lidxWord, seq := old.seqctr,
                           srctr := 0 }
    let s := s.putTeam id { old with quarter := quarter, slot := slot }
    let s := s.exitTeam id 0 0 0xFFFFFFFF#32
    (s.modTeam id fun t => { t with esc := some 0x80, escTrap := some esc, escDone := false }).recordEscalation id
  | none =>
    let s := if s.traces t.core t.pstat.tag 6 then
        s.traceOut t.core (s.traceRecord t 6 t.pc t.seqctr.toNat t.lidxWord (BitVec.ofNat 64 t.handle))
      else s
    let s := s.putTeam id (t.wakeRestored (s.readNat (base + 0x50) 8))
    regs.eraseDups.foldl (fun s w => s.killWarp id w) s

/-- Restore a Saved team: it comes back, and its rucksack has been read (R412). -/
def State.restoreTeam (s : State) (id quarter slot : Nat) : State :=
  (s.takeBack id quarter slot).checkTags ((List.range 8192).map (s.sackAt id + 128 * ·))

end Sys2Proof.Machine
end

