-- ==== Sys2Proof/Machine/Queue.lean ====
section
/-!
DEFINITION. Machine/Queue.lean: launch descriptors (R376, R377), submissions (R195, R375, R378), what a group takes and how
it is placed (R309 to R312, R323), and the rounds, periods, budgets and reservations of the dispatcher (R379 to R381).
-/

namespace Sys2Proof.Machine

/-! ### The launch descriptor (R376) -/

/-- A descriptor as its words. -/
structure Desc where
  words : List Word
  deriving DecidableEq, Repr

namespace Desc
def w (x : Desc) (i : Nat) : Nat := (x.words.getD i 0).toNat
def spread (x : Desc) : Bool := fld (x.w 0) 48 1 == 1
def gang (x : Desc) : Nat := fld (x.w 0) 37 11
def crew (x : Desc) : Nat := fld (x.w 0) 33 4
def nbar (x : Desc) : Nat := fld (x.w 0) 28 5
def npin (x : Desc) : Nat := fld (x.w 0) 23 5
def chk (x : Desc) : Bool := fld (x.w 0) 22 1 == 1
def pl (x : Desc) : Nat := fld (x.w 0) 21 1
def queue (x : Desc) : Nat := fld (x.w 0) 0 13
def tilemask (x : Desc) : Nat := fld (x.w 1) 48 16
def nvreg (x : Desc) : Nat := fld (x.w 1) 40 8
def bankcnt (x : Desc) : Nat := fld (x.w 1) 33 7
def bankfirst (x : Desc) : Nat := fld (x.w 1) 27 6
def nteam (x : Desc) : Nat := fld (x.w 1) 6 5
def nwarp (x : Desc) : Nat := fld (x.w 1) 0 6
def lx (x : Desc) : Nat := fld (x.w 2) 0 32
def ly (x : Desc) : Nat := fld (x.w 2) 32 32
def lz (x : Desc) : Nat := fld (x.w 3) 0 32
def lanes (x : Desc) : Nat := x.lx * x.ly * x.lz
def done (x : Desc) : Nat := x.w 22

/-- G of R309, and the count of groups. -/
def perGroup (x : Desc) : Nat := 32 * x.nteam * x.nwarp
def ngroups (x : Desc) : Nat := (x.lanes + x.perGroup - 1) / x.perGroup

/-- A pinned entry: slot and words. -/
def pins (x : Desc) : List (Nat × Word × Word) :=
  (List.range x.npin).map fun i => (x.w (24 + 3 * i), x.words.getD (25 + 3 * i) 0, x.words.getD (26 + 3 * i) 0)

/-- Reserved fields, and the limits of R310 and R376. -/
def formOk (x : Desc) : Bool :=
  decide (fld (x.w 0) 49 15 = 0) && decide (fld (x.w 0) 13 8 = 0) && decide (fld (x.w 1) 11 16 = 0)
    && decide (x.w 3 < 2 ^ 32) && decide (x.w 7 ≤ 2 ^ 28) && decide (x.w 11 < 2 ^ 32)
    && decide (x.nbar ≤ 16) && decide (x.npin ≤ 16)
    && (x.crew == 0 || (decide (2 ≤ x.crew) && decide (x.crew ≤ 4) && x.nteam % x.crew == 0))
    && (if x.gang = 0 then !x.spread else decide (2 ≤ x.gang) && decide (x.gang ≤ 1536))
    && decide (1 ≤ x.nvreg) && decide (x.nvreg ≤ 28)
    && decide (1 ≤ x.bankcnt) && decide (x.bankfirst + x.bankcnt ≤ 64)
    && decide (1 ≤ x.nteam) && decide (x.nteam ≤ 16) && decide (1 ≤ x.nwarp) && decide (x.nwarp ≤ 32)
    && decide (1 ≤ x.lanes) && decide (x.lanes < 2 ^ 32)
    && decide (x.w 5 % 4 = 0) && decide (x.w 8 % 4 = 0) && fmtOk (x.words.getD 9 0)
    && decide (x.w 12 % 16 = 0) && decide (x.w 13 % 16 = 0) && decide (x.done % 8 = 0)

/-- Register space of a team in bytes (R311). -/
def regBytes (x : Desc) : Nat := 32 * x.nwarp * (8 * x.nvreg) * 4
end Desc

/-! ### Resources (R311, R312) -/

/-- What a quarter can grant. -/
structure QuarterUse where
  open'  : Bool
  free  : Nat
  teams : Nat
  /-- tiles held by a group -/
  tiles : BitVec 16
  deriving DecidableEq, Repr

def teamSpace (nwarp nvreg : Nat) : Nat := 32 * nwarp * (8 * nvreg) * 4

/-- Tiles of a quarter that are not granted: retired ones (R384), and, unless the question is about an idle quarter, those
that the abort engine has not finished with (R394). -/
def State.barredTiles (s : State) (gq : Nat) (idle : Bool) : BitVec 16 :=
  BitVec.ofNat 16 (((List.range 16).filter fun i =>
    (s.owner 4 (16 * gq + i)).retired || (!idle && s.leaving 4 (16 * gq + i))).map (2 ^ ·)).sum

/-- Quarter q of a core, for a world; an idle one as if no group used it, and as if management had given it to the world: a
group for which the world has no quarter waits (R311, R365). -/
def State.quarterUse (s : State) (world : BitVec 8) (core q : Nat) (idle : Bool) : QuarterUse :=
  let here := s.teams.filter fun t => t.2.life == .resident && t.2.core == core && t.2.quarter == q
  let hold := s.groups.filter fun g => g.2.alive && g.2.core == core && g.2.quarters.contains q
  { open' := (idle || (Store.get 0 s.worlds (4 * core + q) : BitVec 8) == world) && !(Store.get false s.retired (4 * core + q)),
    free := 2 ^ 19 - (if idle then 0 else (here.map fun t => teamSpace t.2.nwarp t.2.nvreg).sum),
    teams := if idle then 0 else here.length,
    tiles := s.barredTiles (4 * core + q) idle ||| (if idle then 0 else hold.foldl (fun m g => m ||| g.2.tilemask) 0) }

def State.coreUse (s : State) (world : BitVec 8) (core : Nat) (idle : Bool) : List QuarterUse :=
  (List.range 4).map fun q => s.quarterUse world core q idle

/-- A team, or a quarter set, to be placed: its space, its teams, the crews of its members, and the quarters it may use. -/
structure Unit' where
  space : Nat
  teams : Nat
  crews : List Nat
  only  : List Nat := [0, 1, 2, 3]
  /-- its tiles must be free even of its own group: it brings their images -/
  fresh : Bool := false

/-- The quarter of R312 for one unit; `mine` are the quarters where the group holds its tiles, `crews` the crews that have
a member on each quarter. -/
def pickQuarter (us : List QuarterUse) (mask : BitVec 16) (mine : List Nat) (crews : List (Nat × Nat)) (u : Unit') :
    Option Nat :=
  let can := us.zipIdx.filter fun x =>
    x.1.open' && decide (u.space ≤ x.1.free) && decide (x.1.teams + u.teams ≤ 16) && u.only.contains x.2
      && ((mine.contains x.2 && !(u.fresh && mask != 0)) || x.1.tiles &&& mask == 0)
      && u.crews.all fun c => !crews.contains (x.2, c)
  can.foldl (fun b x => match b with
    | none => some x.2
    | some y => if (us.getD y ⟨false, 0, 0, 0⟩).free < x.1.free then some x.2 else b) none

/-- Place units in order: their quarters, or none when one does not fit. -/
def fitUnits (mask : BitVec 16) : List QuarterUse → List Nat → List (Nat × Nat) → List Unit' → Option (List Nat)
  | _, _, _, [] => some []
  | us, mine, crews, u :: rest =>
    match pickQuarter us mask mine crews u with
    | none => none
    | some q =>
      let us' := us.zipIdx.map fun x =>
        if x.2 = q then { x.1 with free := x.1.free - u.space, teams := x.1.teams + u.teams, tiles := x.1.tiles ||| mask }
        else x.1
      (fitUnits mask us' (if mine.contains q then mine else q :: mine) (u.crews.map (fun c => (q, c)) ++ crews) rest).map
        (q :: ·)

/-- The units of a new group. -/
def Desc.units (x : Desc) : List Unit' :=
  (List.range x.nteam).map fun i =>
    { space := x.regBytes, teams := 1, crews := if x.crew = 0 then [] else [i / x.crew] }

/-- The alive groups of a core. -/
def State.groupsOn (s : State) (core : Nat) : List (Nat × Group) := s.groups.filter fun g => g.2.alive && g.2.core == core

/-- HISTBASE names the core on which the group runs: its CORE field is 63 (R311). -/
def Desc.histHere (x : Desc) : Bool := fld (x.w 11) 25 7 == 63

/-- Banks and channels of a group on a core, under a tag and world, and the HISTBASE region where it is the core's own
(R311). -/
def State.coreOwned (s : State) (tag : BitVec 16) (world : BitVec 8) (x : Desc) (core : Nat) : Bool :=
  let mine (o : Owner) : Bool := o.tag == tag && o.world == world
  ((List.range x.bankcnt).all fun i => mine (s.owner 1 (64 * core + x.bankfirst + i)))
    && ((List.range 64).all fun i => fld (x.w 4) i 1 == 0 || mine (s.owner 5 (64 * core + i)))
    && (!x.histHere || (s.histCause tag world core (x.w 11)).isNone)

/-- The quarters of a new group's teams on a core at this instant. -/
def State.coreFit (s : State) (tag : BitVec 16) (world : BitVec 8) (x : Desc) (core : Nat) : Option (List Nat) :=
  let gs := s.groupsOn core
  if !s.coreOwned tag world x core || decide (32 ≤ gs.length)
      || decide (64 < (gs.map fun g => g.2.nbar).sum + x.nbar) then none
  else fitUnits (BitVec.ofNat 16 x.tilemask) (s.coreUse world core false) [] [] x.units

/-- How many groups one idle core could hold, up to its 32 slots. -/
def idleGroups (x : Desc) (mask : BitVec 16) : Nat → List QuarterUse → Nat → Nat
  | 0, _, _ => 0
  | n + 1, us, bars =>
    if 64 < bars + x.nbar then 0
    else match fitUnits mask us [] [] x.units with
      | none => 0
      | some qs =>
        let us' := us.zipIdx.map fun u =>
          { u.1 with free := u.1.free - x.regBytes * qs.count u.2, teams := u.1.teams + qs.count u.2,
                     tiles := if qs.contains u.2 then u.1.tiles ||| mask else u.1.tiles }
        1 + idleGroups x mask n us' (bars + x.nbar)

def State.idleCapacity (s : State) (tag : BitVec 16) (world : BitVec 8) (x : Desc) (core : Nat) : Nat :=
  if s.coreOwned tag world x core then idleGroups x (BitVec.ofNat 16 x.tilemask) 32 (s.coreUse world core true) 0 else 0

/-! ### Regions (R374) -/

def regionSize (code : Nat) : Nat := [1, 2, 4, 8, 12, 16, 24, 48].getD code 0

def Queue.coreList (q : Queue) : List Nat := (List.range 48).filter fun c => q.cores.getLsbD c

/-- The regions of a queue, with their numbers. DESIGN CHOICE (log entry 84, unsafe): a run of cores that holds no core of CORES is no
region, of which the spec says nothing; it could hold no group, and no reservation prefers it. -/
def Queue.regions (q : Queue) : List (Nat × List Nat) :=
  let n := regionSize q.rsize.toNat
  if n = 0 then []
  else (((List.range (48 / n)).map fun i => (i, (List.range n).map fun j => i * n + j)).map fun r =>
    (r.1, r.2.filter fun c => q.cores.getLsbD c)).filter fun r => !r.2.isEmpty

/-! ### Submission (R375, R377) -/

/-- A frame of memory that a tag and world own. -/
def State.homeOwned (s : State) (tag : BitVec 16) (world : BitVec 8) (k : Nat) : Bool :=
  match region k with
    | .near | .far | .window | .host => (s.frameCause tag world 0 (k / 2 ^ 16 * 2 ^ 16)).isNone
    | _ => false

/-- The completion word may lie there. -/
def State.doneOk (s : State) (tag : BitVec 16) (world : BitVec 8) (k : Nat) : Bool := k == 0 || s.homeOwned tag world k

/-- The 64 KiB pages of a program's code: that of ENTRY, and those of its lane code. -/
def Desc.codePages (x : Desc) : List Nat :=
  x.w 5 / 2 ^ 16 :: (if x.w 7 = 0 then [] else (List.range ((x.w 6 % 2 ^ 16 + x.w 7 + 0xFFFF) / 2 ^ 16)).map (x.w 6 / 2 ^ 16 + ·))

/-- A pinned entry lets a page of code be fetched. -/
def Desc.pinsPage (x : Desc) (page : Nat) : Bool :=
  x.pins.any fun p =>
    let e : TlbEntry := { w0 := p.2.1, w1 := p.2.2 }
    e.w0.getLsbD 0 && e.w0.toNat &&& needX == needX && decide (page * 2 ^ 16 / 2 ^ e.shift = e.w0.toNat / 2 ^ e.shift)

/-- The checks of R377, and that code is pinned (R355, R362, R369); `user` for a submission that may not ask for tenant level. -/
def State.descOk (s : State) (n : Nat) (x : Desc) (user : Bool) : Bool :=
  let q := s.queueAt n
  let cap := fun c => s.idleCapacity q.tag q.world x c
  x.formOk && x.queue == n && !(user && x.pl == 1)
    && (!x.spread || decide (x.gang ≤ regionSize q.rsize.toNat))
    && (x.histHere || (s.histCause q.tag q.world 0 (x.w 11)).isNone)
    && (x.pins.all fun p =>
      let e : TlbEntry := { w0 := p.2.1, w1 := p.2.2 }
      decide (p.1 < 512) && e.formOk && (s.framesCause q.tag q.world e).isNone)
    && x.codePages.all x.pinsPage
    && s.doneOk q.tag q.world x.done
    && (q.coreList.any fun c => decide (0 < cap c))
    && (x.gang == 0 || (q.regions.any fun r =>
      let room := r.2.map fun c => if x.spread then min 1 (cap c) else cap c
      decide (min x.gang x.ngroups ≤ room.sum)))

/-- Grids queued and not yet wholly placed (R374). -/
def Queue.pend (q : Queue) : Nat := (q.work.filter fun w => !w.saved).length

/-- The requester identifier under which the device reads and writes for a queue: that of its virtual function, or the physical
function's (R373, R387). It goes with the transaction to the host, whose IOMMU stands outside the model (log entry 74). -/
def Queue.requester (q : Queue) : Fn := match q.function with | some f => .vf (BitVec.ofNat 6 f) | none => .pf

/-- The key of a host bus address (R383). -/
def hostKey (a : Nat) : Nat := 2 ^ 51 + a % 2 ^ 51

/-- Steps 1 to 4 of R375: the status and the state after it. `open'` says that the queue that status 2 concerns is enabled and
serves the submitter. DESIGN CHOICE (log entry 84, unsafe): a grid that is queued before a write of QBIND keeps the TAG and WORLD of
its submission. -/
def State.submit (s : State) (n : Nat) (x : Desc) (open' user : Bool) : State × Nat :=
  let q := s.queueAt n
  let no := q.subno + 1
  let status := if !open' then 2 else if !s.descOk n x user then 3 else if 256 ≤ q.pend then 1 else 0
  let s := s.putQueue n { q with subno := no }
  let s := if status = 0 then
      let g : Grid := { alive := true, queue := n, words := x.words, tag := q.tag, world := q.world, ngroups := x.ngroups }
      let s := { (s.putGrid s.nextId g) with nextId := s.nextId + 1 }
      { s.putQueue n { (s.queueAt n) with work := q.work ++ [{ grid := s.nextId - 1 }] } with roundDue := true }
    else s
  (s.putWord (hostKey (q.resp.toNat / 64 * 64 + 8 * (no.toNat % 64))) (no.toNat * 2 ^ 32 + status), status)

/-- A function that reaches the block of a queue (R373). -/
def Queue.reachedBy (q : Queue) : Fn → Bool
  | .vf n => q.vf.toNat == n.toNat
  | _ => true

/-- The words of a descriptor at a key, as many as its NPIN says. -/
def State.descAt (s : State) (k : Nat) : Desc :=
  let n := min 16 (fld (s.readNat k 8) 23 5)
  ⟨(List.range (24 + 3 * n)).map fun i => BitVec.ofNat 64 (s.readNat (k + 8 * i) 8)⟩

/-- SUBMIT: the host writes the register of a queue. -/
def execSubmit (fn : Fn) (queue : Nat) (addr : Word) (s : State) : Out :=
  .next <|
    if 8192 ≤ queue ∨ !s.exposes fn ∨ !(s.queueAt queue).reachedBy fn then s
    else
      let x := s.descAt (hostKey addr.toNat)
      (s.submit queue (if addr.toNat % 64 = 0 then x else ⟨[]⟩) (s.queueAt queue).en false).1

/-- `launch` (R195): the descriptor is read with the checks of a load; everything before it happens before the grid's
accesses. -/
def execLaunch (d a : BitVec 6) (s : State) : Out :=
  .next <|
    let t := s.team
    let ea := t.reg a
    if ea.toNat % 64 ≠ 0 then s.trap cAlign ea
    else
      let c := s.check t true needR 0 ea.toNat 0xC0
      match worst c.fails with
      | some f => s.trapVec f.cause f.scalarVal (vecFor f c.fails)
      | none =>
        let n := min 16 (fld (s.load t (c.keys.take 8)) 23 5)
        let c := s.check t true needR 0 ea.toNat (0xC0 + 24 * n)
        match worst c.fails with
        | some f => s.trapVec f.cause f.scalarVal (vecFor f c.fails)
        | none =>
          if s.mustWait t c.keys then s.sendTouched s.cur c.keys
          else match s.fenceWait true 9 with
            | some s' => s'
            | none =>
              if s.loadPoisoned t c.keys then s.poisonStop c.keys ea.toNat
              else if c.keys.any s.unreachable then s.trap cFabric ea
              else
                let x : Desc := ⟨(List.range (24 + 3 * n)).map fun i =>
                  BitVec.ofNat 64 (s.load t ((c.keys.drop (8 * i)).take 8))⟩
                let q := s.queueAt x.queue
                let r := s.submit x.queue x (q.en && q.tag != 0 && q.tag == t.pstat.tag) (t.pstat.pl == 0)
                r.1.upd fun t => (t.setReg d (BitVec.ofNat 64 r.2)).advance

/-- An entry of a launch table admits a packet (R378). -/
def State.admits (s : State) (peer queue : Nat) : Bool :=
  s.launches.any fun e =>
    let w := e.2.toNat
    w == 2 ^ 63 + peer * 2 ^ 32 + (s.queueAt queue).tag.toNat * 2 ^ 16 + queue

/-- The peer that the network interface has authenticated for a port (R378, R449). -/
def State.portPeer (s : State) (port peer : Nat) : Bool := s.ports.any fun p => p.1 == port && p.2 == peer

/-- The queue of a descriptor is enabled; status 2 for a packet concerns the queue that QUEUE names, which is the header's
unless the descriptor has none (R375, R377). -/
def State.packetOpen (s : State) (header : Nat) (x : Desc) : Bool :=
  (s.queueAt (if x.words.isEmpty then header else x.queue)).en

/-- LAUNCH_PACKET: an Ethernet frame with EtherType 0x88B5 that comes in on scale-out port `unit`. -/
def execLaunchPacket (frame : List Byte) (s : State) : Out :=
  .next <|
    if (frame.drop 12).take 2 ≠ [0x88, 0xB5] then s
    else
      let h := leNat ((frame.drop 14).take 16)
      let body := frame.drop 30
      let cookie := bfld h 64 64
      let q := fld h 32 13
      let ok := decide (fld h 20 12 = 0) && decide (fld h 45 3 = 0) && s.portPeer s.unit (fld h 0 20) && s.admits (fld h 0 20) q
      let x : Desc := ⟨(List.range (body.length / 8)).map fun i => BitVec.ofNat 64 (leNat ((body.drop (8 * i)).take 8))⟩
      let whole := decide (fld h 48 16 = body.length) && decide (body.length = 0xC0 + 24 * x.npin)
      let y : Desc := if whole then x else ⟨[]⟩
      let r := if ok then s.submit q y (s.packetOpen q y) true else (s, 4)
      { r.1 with replies := r.1.replies ++ [(cookie, r.2)] }

/-! ### Placing a group -/

/-- Pinned entries of a group go into a quarter; one that fails a check leaves its slot invalid (R323). DEDUCED (log entry 75,
safe): a slot that another tag owns is left as it is, since no entry there translates for the group. -/
def State.writePins (s : State) (gid q : Nat) : State :=
  let g := s.groupAt gid
  let r := s.gridAt g.grid
  let gq := 4 * g.core + q
  (Desc.mk r.words).pins.foldl (fun s p =>
    let e : TlbEntry := { w0 := p.2.1, w1 := p.2.2, tag := r.tag, world := r.world }
    let k := 512 * gq + p.1
    let new := if (s.framesCause r.tag r.world e).isNone then e else (Store.get {} s.tlb k : TlbEntry).invalid
    let o := (s.owner 3 k).tag
    if o ≠ 0 ∧ o ≠ r.tag then s
    else { s with tlb := Store.set {} s.tlb k (if (s.slotCause r.tag r.world gq p.1).isSome then
      (Store.get {} s.tlb k : TlbEntry).invalid else new) }) s

/-- The group takes its tiles on a quarter, unless it holds them. -/
def State.holdQuarter (s : State) (gid q : Nat) : State :=
  let g := s.groupAt gid
  if g.quarters.contains q then s
  else (s.grantTiles gid q).putGroup gid { g with quarters := q :: g.quarters }

/-- The lowest free place of a resident team. -/
def State.freeSlot (s : State) (core q : Nat) : Nat :=
  ((List.range 16).find? fun i =>
    !(s.teams.any fun t => t.2.life == .resident && t.2.core == core && t.2.quarter == q && t.2.slot == i)).getD 0

/-- A frame lies in the rucksack of a team that has not exited. -/
def State.inSack (s : State) (frame : Nat) : Bool :=
  s.teams.any fun t => t.2.life != .absent && t.2.life != .exited && t.2.sack == some (frame / 16)

/-- The sixteen frames of a 1 MiB block of near DRAM. -/
def sackFrames (b : Nat) : List Nat := (List.range 16).map (16 * b + ·)

/-- A block that can become a rucksack: management holds its frames, none of them retired or on its way out (R398). -/
def State.sackFree (s : State) (b : Nat) : Bool :=
  decide (b < 0x6000000000 / 2 ^ 20) && !s.inSack (16 * b)
    && (sackFrames b).all fun i => (s.owner 2 i).tag == 0 && !(s.owner 2 i).retired && !s.leaving 2 i

/-- The lowest such block at or above `b`. -/
def State.nextSack (s : State) : Nat → Nat → Option Nat
  | 0, _ => none
  | n + 1, b => if s.sackFree b then some b else s.nextSack n (b + 1)

/-- The frames of a block are assigned to a world, under tag 0; an Unscrubbed one is overwritten first, and from now on holds
contents (R416). -/
def State.assignSack (s : State) (world : BitVec 8) (b : Nat) : State :=
  (sackFrames b).foldl (fun s i =>
    let s := if Store.get false s.flash.scrubbed i then s else s.writeRange (i * 2 ^ 16) (2 ^ 16) []
    { s.setOwner 2 i { s.owner 2 i with world := world } with
        flash := { s.flash with scrubbed := Store.set false s.flash.scrubbed i false } }) s

/-- Management allocates the rucksack of a team: the lowest block that is free (R398; log entry 12). -/
def State.giveSack (s : State) (id : Nat) (world : BitVec 8) : State :=
  match s.nextSack (s.owners.length + s.teams.length + s.seizing.length + s.records.length + 1) 0 with
  | none => s
  | some b => (s.assignSack world b).modTeam id fun t => { t with sack := some b }

/-- Team `i` of a group as it starts (R18, R20, R22, R309). -/
def Desc.team (x : Desc) (r : Grid) (g gid core quarter slot i : Nat) : Team :=
  let origin := x.perGroup * g + 32 * x.nwarp * i
  { life := .resident, pc := x.words.getD 5 0,
    pstat := { tag := r.tag, world := r.world, pl := BitVec.ofNat 2 x.pl, chk := x.chk },
    s := Store.setAll 0 [] ((2, BitVec.ofNat 64 (x.w 12 + (x.nteam * g + i) * x.w 13))
      :: (List.range 8).map fun k => (3 + k, x.words.getD (14 + k) 0)),
    fmt := x.words.getD 9 0, srseed := x.words.getD 10 0, histbase := BitVec.ofNat 32 (x.w 11), core := core,
    quarter := quarter, slot := slot, group := gid, index := i, nwarp := x.nwarp, nvreg := x.nvreg,
    crewed := if x.crew = 0 then none else some (i % x.crew), crew := if x.crew = 0 then 0 else i / x.crew,
    origin := origin, live := min (32 * x.nwarp) (x.lanes - origin) }

/-- Start the next group of a grid on a core with its teams on these quarters. -/
def State.startGroup (s : State) (gridId core : Nat) (quarters : List Nat) : State :=
  let r := s.gridAt gridId
  let x : Desc := ⟨r.words⟩
  let gid := s.nextId
  let n := r.placed
  let ids := (List.range x.nteam).map fun i => gid + 1 + i
  let g : Group := { alive := true, grid := gridId, linear := n, core := core, nteam := x.nteam, members := ids,
                     nbar := x.nbar, tilemask := BitVec.ofNat 16 x.tilemask, chanmask := x.words.getD 4 0,
                     gang := if x.gang = 0 then none else some (n / x.gang), lcbase := x.words.getD 6 0, lclen := x.w 7,
                     handler := x.words.getD 8 0, extX := x.lx, extY := x.ly, extZ := x.lz }
  let s := { ((s.putGroup gid g).putGrid gridId { r with placed := n + 1 }) with nextId := gid + 1 + x.nteam }
  let s := quarters.eraseDups.foldl (fun (s : State) q => (s.holdQuarter gid q).writePins gid q) s
  (ids.zip quarters.zipIdx).foldl (fun (s : State) t =>
    let u := x.team r n gid core t.2.1 (s.freeSlot core t.2.1) t.2.2
    let s := (s.putTeam t.1 u).giveSack t.1 r.world
    if s.traces core u.pstat.tag 7 then s.traceOut core (s.traceRecord u 7 u.pc 0 0xFFFFFFFF#32 0) else s) s

/-- place_group: the lowest of the cores that grants everything. -/
def State.placeGroup (s : State) (gridId : Nat) (cores : List Nat) : Option (State × Nat) :=
  let r := s.gridAt gridId
  cores.findSome? fun c => (s.coreFit r.tag r.world ⟨r.words⟩ c).map fun qs => (s.startGroup gridId c qs, c)

/-- Groups of a gang, one after the other, on the cores of a region. -/
def State.placeGang (gridId : Nat) (spread : Bool) (cores : List Nat) : Nat → State → List Nat → Option State
  | 0, s, _ => some s
  | n + 1, s, used =>
    match s.placeGroup gridId (cores.filter fun c => !(spread && used.contains c)) with
    | none => none
    | some (s', c) => State.placeGang gridId spread cores n s' (c :: used)

/-! ### Restoring Saved work -/

/-- A quarter set of a group (R400): its old quarter, its teams, and the member whose rucksack holds the tile images. -/
def State.quarterSets (s : State) (gid : Nat) : List (Nat × List Nat) :=
  let ms := (s.groupAt gid).members.filter fun m => (s.teamAt m).life == .saved
  ((ms.map fun m => (s.teamAt m).quarter).eraseDups).map fun q => (q, ms.filter fun m => (s.teamAt m).quarter == q)

/-- What a quarter set needs: its images need tiles that no member uses; tiles that never left their quarter keep it there. -/
def State.setUnit (s : State) (gid : Nat) (x : Nat × List Nat) : Unit' :=
  let g := s.groupAt gid
  let ts := x.2.map s.teamAt
  let images := x.2.any s.hasImages
  { space := (ts.map fun t => teamSpace t.nwarp t.nvreg).sum, teams := ts.length,
    crews := (ts.filter fun t => t.crewed.isSome).map Team.crew,
    only := if g.tilemask ≠ 0 ∧ !images ∧ g.quarters.contains x.1 then [x.1] else [0, 1, 2, 3], fresh := images }

/-- Restore every Saved team of a group, or none (R312, R319, R400, R401). DEDUCED (log entry 76, safe): a set that brings tile
images may use a quarter where the group holds its tiles while no member is resident there; the images would overwrite the tiles
of one that is. -/
def State.restoreGroup (s : State) (gid : Nat) : Option State :=
  let g := s.groupAt gid
  let sets := s.quarterSets gid
  let crews := (g.members.filter fun m => (s.teamAt m).life == .resident && (s.teamAt m).crewed.isSome).map fun m =>
    ((s.teamAt m).quarter, (s.teamAt m).crew)
  let here := (g.members.filter fun m => (s.teamAt m).life == .resident).map fun m => (s.teamAt m).quarter
  let use := (s.coreUse (s.gridAt g.grid).world g.core false).zipIdx.map fun u =>
    if g.quarters.contains u.2 && !here.contains u.2 then { u.1 with tiles := u.1.tiles &&& ~~~g.tilemask } else u.1
  match fitUnits g.tilemask use g.quarters crews (sets.map (s.setUnit gid)) with
  | none => none
  | some qs => some <|
    (sets.zip qs).foldl (fun (s : State) x =>
      let s := (s.holdQuarter gid x.2).writePins gid x.2
      let s := match x.1.2.find? s.hasImages with
        | some m => (s.modTeam m fun t => { t with quarter := x.2 }).loadImages m
        | none => s
      x.1.2.foldl (fun (s : State) m => s.restoreTeam m x.2 (s.freeSlot g.core x.2)) s) s

/-- restore(h): the whole of it, onto its own cores (R381). -/
def State.restoreAll : List Nat → State → Option State
  | [], s => some s
  | g :: gs, s => (s.restoreGroup g).bind (State.restoreAll gs)

/-! ### The round (R380) -/

/-- A queue may place. -/
def Queue.mayPlace (q : Queue) : Bool := q.en && (q.budget == 0 || decide (q.used < q.budget.toNat))

/-- Insert by deadline, then number. -/
def insertQueue (x : Nat × Nat) : List (Nat × Nat) → List (Nat × Nat)
  | [] => [x]
  | y :: ys => if x.1 < y.1 ∨ (x.1 = y.1 ∧ x.2 < y.2) then x :: y :: ys else y :: insertQueue x ys

/-- Queues by (DEADL, number). -/
def State.queueOrder (s : State) : List Nat :=
  ((s.queues.foldl (fun l q => insertQueue (q.2.deadl.toNat, q.1) l) []).map Prod.snd)

/-- The cores of a region of a queue. -/
def Queue.regionCores (q : Queue) (r : Nat) : List Nat := ((q.regions.find? fun x => x.1 == r).map Prod.snd).getD []

/-- Cores reserved for work of other queues; a reservation holds until its work is placed, also while Saved work stands before
it (R380). -/
def State.reservedFrom (s : State) (n : Nat) : List Nat :=
  s.queues.flatMap fun q =>
    if q.1 = n then [] else q.2.work.flatMap fun w => (w.reserve.map q.2.regionCores).getD []

/-- Cores reserved for work of queues that come before one in the order of a round: there no Saved work of it is restored (R382). -/
def State.reservedBefore (s : State) (n : Nat) : List Nat :=
  (s.queueOrder.takeWhile (· != n)).flatMap fun m =>
    (s.queueAt m).work.flatMap fun w => (w.reserve.map (s.queueAt m).regionCores).getD []

/-- reserve(q, h): the region with most cores free or held by q. -/
def State.bestRegion (s : State) (n : Nat) : Option Nat :=
  let q := s.queueAt n
  let score (r : Nat × List Nat) : Nat := (r.2.filter fun c =>
    let gs := s.groupsOn c
    gs.isEmpty || gs.any fun g => (s.gridAt g.2.grid).queue == n).length
  (q.regions.foldl (fun (b : Option (Nat × Nat)) r => match b with
    | none => some (score r, r.1)
    | some y => if y.1 < score r then some (score r, r.1) else b) none).map Prod.snd

/-- Ask a whole gang, or a group, to leave (R319, R381). -/
def State.preemptUnit (s : State) (gid : Nat) : State :=
  ((s.gangOf gid).flatMap fun g => (s.groupAt g).members).foldl (fun s m => s.setP m) s

/-- Pre-emption for a reservation whose head's age has reached 2 × AGE. -/
def State.preemptFor (s : State) (n : Nat) (later : List Nat) (r : Nat) : State :=
  let cores := (s.queueAt n).regionCores r
  let gs := (s.groups.filter fun g => g.2.alive && cores.contains g.2.core
    && later.contains (s.gridAt g.2.grid).queue).map Prod.fst
  gs.foldl (fun s g => s.preemptUnit g) s

/-- Try the head of a queue once: the state after it is placed, with the head that remains. -/
def State.tryHead (s : State) (n : Nat) (h : Work) : Option State :=
  let q := s.queueAt n
  let taken := s.reservedFrom n
  let r := s.gridAt h.grid
  let x : Desc := ⟨r.words⟩
  if h.saved then
    if h.groups.any fun g => (s.reservedBefore n).contains (s.groupAt g).core then none
    else (State.restoreAll h.groups s).map fun s => s.putQueue n { (s.queueAt n) with work := (s.queueAt n).work.erase h }
  else
    let placed : Option State :=
      if x.gang ≠ 0 then
        q.regions.findSome? fun reg =>
          State.placeGang h.grid x.spread (reg.2.filter fun c => !taken.contains c) (min x.gang (r.ngroups - r.placed)) s []
      else (s.placeGroup h.grid (q.coreList.filter fun c => !taken.contains c)).map Prod.fst
    placed.map fun s =>
      let r := s.gridAt h.grid
      if r.placed = r.ngroups then s.putQueue n { (s.queueAt n) with work := (s.queueAt n).work.erase h } else s

/-- How many of the ages AGE and 2 × AGE a head has reached. -/
def State.headAge (s : State) (q : Queue) (h : Work) : Nat :=
  match h.since with
  | none => 0
  | some t => if 2 * q.age.toNat ≤ s.now - t then 2 else if q.age.toNat ≤ s.now - t then 1 else 0

/-- The age of a head: pre-emption for its reservation, once, when it reaches 2 × AGE (R381). DESIGN CHOICE (log entry 84, unsafe): for
one that reserves only after that age (its queue was over budget, or time stepped), it is asked for at the reservation. -/
def State.ageHead (s : State) (n : Nat) (later : List Nat) (h : Work) : State :=
  let q := s.queueAt n
  match h.reserve with
  | some r =>
    if !h.asked ∧ s.headAge q h = 2 then
      (s.putQueue n { q with work := { h with aged := 2, asked := true } :: q.work.tail }).preemptFor n later r
    else s
  | none => s

/-- A blocked head: since, reservation and pre-emption. -/
def State.blockHead (s : State) (n : Nat) (later : List Nat) (h : Work) : State :=
  let q := s.queueAt n
  let since := h.since.getD s.now
  let reserve := if h.reserve.isNone ∧ q.age.toNat ≤ s.now - since then s.bestRegion n else h.reserve
  let h : Work := { h with since := some since, reserve := reserve }
  (s.putQueue n { q with work := h :: q.work.tail }).ageHead n later h

/-- The heads of one queue, until one is blocked. -/
def State.queueRound (n : Nat) (later : List Nat) : Nat → State → State
  | 0, s => s
  | fuel + 1, s =>
    if !(s.queueAt n).mayPlace then s
    else match (s.queueAt n).work with
      | [] => s
      | h :: _ => match s.tryHead n h with
        | some s' => State.queueRound n later fuel s'
        | none => s.blockHead n later h

/-- A round holds at most this many placements: 48 cores have 1,536 group slots, and a queue 256 grids. -/
def roundFuel : Nat := 4096

/-- round(). -/
def State.round (s : State) : State :=
  let order := s.queueOrder
  order.zipIdx.foldl (fun s x => State.queueRound x.1 (order.drop (x.2 + 1)) roundFuel s) { s with roundDue := false }

/-- DISPATCHER_ROUND, when one of the five events of R380 has happened. -/
def execDispatcherRound (s : State) : Out := .next (if s.roundDue then s.round else s)

/-- The queues that come after one in the order of a round. DESIGN CHOICE (log entry 84, unsafe): one that is disabled or has used its
budget up has its place in the order, and its groups can be pre-empted. -/
def State.laterQueues (s : State) (n : Nat) : List Nat := (s.queueOrder.dropWhile (· != n)).drop 1

/-- HEAD_AGE_EXPIRY of queue `unit`: the age of its blocked head reaches AGE or 2 × AGE. -/
def execHeadAgeExpiry (s : State) : Out :=
  .next <|
    let q := s.queueAt s.unit
    match q.work with
    | [] => s
    | h :: _ =>
      let n := s.headAge q h
      if n ≤ h.aged then s
      else
        let s := s.ageHead s.unit (s.laterQueues s.unit) h
        let q := s.queueAt s.unit
        { s.putQueue s.unit { q with work := (q.work.take 1).map (fun h => { h with aged := n }) ++ q.work.tail } with
            roundDue := true }

/-! ### Periods and budgets (R379) -/

/-- QUEUE_ENABLE: EN goes from 0 to 1; only the physical function writes QBIND. -/
def execQueueEnable (fn : Fn) (queue : Nat) (s : State) : Out :=
  .next <|
    let q := s.queueAt queue
    match fn with
    | .vf _ => s
    | _ =>
      if 8192 ≤ queue ∨ q.en then s
      else
        { s.putQueue queue { q with en := true, deadl := BitVec.ofNat 64 (s.now + q.period.toNat), used := 0, overrun := false } with
            roundDue := true }

/-- QUEUE_PERIOD_EXPIRY of queue `unit`. DESIGN CHOICE (log entry 84, unsafe): periods go on while EN is 0. -/
def execQueuePeriodExpiry (s : State) : Out :=
  .next <|
    let q := s.queueAt s.unit
    if q.deadl ≠ 0 ∧ q.deadl.toNat ≤ s.now then
      { s.putQueue s.unit { q with deadl := q.deadl + q.period.setWidth 64, used := 0, overrun := false } with roundDue := true }
    else s

/-- BUDGET_OVERRUN of queue `unit`: it is counted, and OVERRUN is delivered to the management core. -/
def execBudgetOverrun (s : State) : Out :=
  .next <|
    let q := s.queueAt s.unit
    if q.budget ≠ 0 ∧ q.budget.toNat ≤ q.used ∧ !q.overrun then
      let s := s.putQueue s.unit { q with overrun := true, ovr := if q.ovr = BitVec.allOnes 16 then q.ovr else q.ovr + 1 }
      (s.pushEscalation (escRecord 0 q.tag.toNat 0xFFF cOverrun false s.unit 0 0 0xFFFFFFFF s.now)).getD s
    else s

/-- The quarter-cycles of one cycle are charged: one for each quarter that holds a resident team of the queue. DESIGN CHOICE (log entry
84, unsafe): USED stays at 2^40 - 1, the greatest value of its field. -/
def State.charge (s : State) : State :=
  let use := (s.teams.filter fun t => t.2.life == .resident).map fun t =>
    ((s.gridAt (s.groupOf t.2).grid).queue, t.2.gq)
  use.eraseDups.foldl (fun s x =>
    let q := s.queueAt x.1
    s.putQueue x.1 { q with used := min (q.used + 1) (2 ^ 40 - 1) }) s

end Sys2Proof.Machine
end

