-- ==== Sys2Proof/Machine/Revoke.lean ====
section
/-!
DEFINITION. Machine/Revoke.lean: grants (R384), keys and stored lines
(R409 to R413), revocation requests and replies (R389 to R391), and the abort engine (R392, R345, R353, R294).
-/

namespace Sys2Proof.Machine

/-! ### Keys and stored lines (R409 to R412) -/

def State.keySlot (s : State) (n : Nat) : KeySlot := Store.get {} s.keys n

/-- The valid key slot of a world. -/
def State.slotOf (s : State) (world : BitVec 8) : Option (Nat × KeySlot) := s.keys.find? fun k => k.2.valid && k.2.world == world

/-- The generation of keys under which a line of a world is stored now (R415): 0 when the world holds none. -/
def State.lineKey (s : State) (world : BitVec 8) (line : Nat) : Nat :=
  match s.slotOf world with
  | none => 0
  | some (_, k) => if k.rot ∧ k.tide ≤ 128 * line then k.oldKey else k.key

/-- The keys of a generation, from the device's random source: data and tweak keys of XTS, the tag key, and the scrambler key
(R410). -/
def dataKey (gen : Nat) : BitVec 256 := Config.randomKey (4 * gen)
def tweakKey (gen : Nat) : BitVec 256 := Config.randomKey (4 * gen + 1)
def tagKey (gen : Nat) : BitVec 256 := Config.randomKey (4 * gen + 2)
def scramblerKey (gen : Nat) : BitVec 256 := Config.randomKey (4 * gen + 3)

/-- A word of an on-chip SRAM as it is stored, and, from that, as agents of the world see it (R411); `loc` is its physical
location. -/
def State.masked (s : State) (world : BitVec 8) (loc : Nat) (x : Word) : Word :=
  match s.slotOf world with
  | none => x
  | some (_, k) => x ^^^ Config.mask (scramblerKey k.mask) loc

/-- The on-chip SRAMs that hold a world's data (R411). -/
inductive Sram where
  | banks
  /-- the lane register file of a team's quarter -/
  | lanes (team : Nat)
  | tile (i : Nat)
  /-- the line caches of near DRAM and far memory -/
  | caches
  /-- a write in the store-delay queue of a team -/
  | queue (team write : Nat)
  /-- the reduction buffer of a core -/
  | buffer (core : Nat)

/-- The physical location of word `n`. -/
def Sram.loc (r : Sram) (n : Nat) : Nat :=
  (match r with
   | .banks => 0 | .caches => 1 | .lanes t => 6 * t + 2 | .tile i => 6 * i + 3 | .queue t w => 6 * (2 ^ 64 * t + w) + 4
   | .buffer c => 6 * c + 5) * 2 ^ 64 + n

/-- Two lanes' 32 bits as a word. -/
def pairWord (m : List (Nat × BitVec 32)) (n : Nat) : Word :=
  BitVec.ofNat 64 ((Store.get 0 m (2 * n)).toNat + (Store.get 0 m (2 * n + 1)).toNat * 2 ^ 32)

/-- Word `n` of such an SRAM: its world, and what agents of the world see. -/
def State.sramWord (s : State) (r : Sram) (n : Nat) : BitVec 8 × Word :=
  match r with
  | .banks => ((s.owner 1 (bankOf (8 * n))).world, BitVec.ofNat 64 (s.readNat (scratchBase + 8 * n) 8))
  | .caches => ((s.owner 2 (8 * n / 2 ^ 16)).world, BitVec.ofNat 64 (s.readNat (8 * n) 8))
  | .lanes t => ((s.teamAt t).pstat.world, pairWord (s.teamAt t).v n)
  | .tile i => ((s.owner 4 i).world, pairWord (s.tile i).vals n)
  | .queue t w =>
    let bs := (((s.teamAt t).sdq.find? fun x => x.id == w).map fun x => match x.what with
      | .bytes bs => bs.map Prod.snd
      | .atomic o | .reduction o _ => leBytes 8 o.val.toNat
      | .go _ v | .arg _ _ v | .template _ _ v => leBytes 8 v.toNat
      | .stile _ _ k _ _ => leBytes 8 k
      | .trace _ bs => bs).getD []
    ((s.teamAt t).pstat.world, BitVec.ofNat 64 (bytesNat ((bs.drop (8 * n)).take 8)))
  | .buffer c =>
    let es := (s.redLines c).flatMap fun l => l.elems.map fun o => (l, o)
    (((es[n]?).map fun e => (s.teamAt (e.1.teams.headD 0)).pstat.world).getD 0, ((es[n]?).map fun e => e.2.val).getD 0)

/-- The same word as the SRAM stores it. -/
def State.sramStored (s : State) (r : Sram) (n : Nat) : Word :=
  let x := s.sramWord r n
  s.masked x.1 (r.loc n) x.2

/-- A line as a number, and its ciphertext (R412); the lines of a Scrubbed frame are raw zeros (R416). -/
def State.plainLine (s : State) (line : Nat) : BitVec 1024 := BitVec.ofNat 1024 (s.readNat (128 * line) 128)
def State.cipherLine (s : State) (line : Nat) : BitVec 1024 :=
  let k := s.lineKey (s.owner 2 (line / 512)).world line
  if Store.get false s.flash.scrubbed (line / 512) then 0 else xtsLine true (dataKey k) (tweakKey k) line (s.plainLine line)

/-- What stands in memory for a line: its ciphertext, with what has been changed behind the device's back. -/
def State.storedLine (s : State) (line : Nat) : BitVec 1024 := s.cipherLine line ^^^ (Store.get (0, 0) s.tampers line).1

/-- The tag of a line of ciphertext (R412): the first 64 bits of the CMAC over the ciphertext, the line address as eight bytes and
the version as four, each in the byte order of R5 (log entry 8). -/
def lineTag (gen line version : Nat) (cipher : BitVec 1024) : BitVec 64 :=
  BitVec.ofNat 64 (leNat ((cmac (tagKey gen) (leBytes 128 cipher.toNat ++ leBytes 8 (128 * line) ++ leBytes 4 version)).take 8))

def State.version (s : State) (frame : Nat) : Nat := (Store.get 0 s.versions frame : BitVec 32).toNat

/-- The tag under which a line with this ciphertext is good now. -/
def State.tagOf (s : State) (line version : Nat) (cipher : BitVec 1024) : BitVec 64 :=
  lineTag (s.lineKey (s.owner 2 (line / 512)).world line) line version cipher

/-- The 64 KiB of a frame as stored, and its 4 KiB of tags. -/
def State.storedFrame (s : State) (frame : Nat) : List Byte :=
  (List.range 512).flatMap fun i => leBytes 128 (s.storedLine (512 * frame + i)).toNat
def State.storedTag (s : State) (line : Nat) : BitVec 64 :=
  s.tagOf line (s.version (line / 512)) (s.cipherLine line) ^^^ (Store.get (0, 0) s.tampers line).2
def State.storedTags (s : State) (frame : Nat) : List Byte :=
  (List.range 512).flatMap fun i => leBytes 8 (s.storedTag (512 * frame + i)).toNat

/-! ### Grants (R384) -/

/-- Entries of each table (R385). -/
def tableSize (kind : Nat) : Nat := [0, 3072, 0, 98304, 3072, 3072, 49152, 256, 4096, 1536].getD kind 0

/-- The resource exists. -/
def resourceOk (kind idx : Nat) : Bool :=
  if kind = 2 then (match region (idx * 2 ^ 16) with | .near | .far => true | _ => false) else decide (idx < tableSize kind)

/-- Every byte of a range of memory reads 0 and is not poisoned. -/
def State.zeroRange (s : State) (base size : Nat) : State := s.writeRange base size []

/-- A group that has the bank as management's holds it in its bank range: the partition is not idle (R394). A group of a tag from which
the bank has been taken holds it no more. -/
def State.bankBusy (s : State) (bank : Nat) : Bool :=
  s.groups.any fun g =>
    let r := s.gridAt g.2.grid
    let x : Desc := ⟨r.words⟩
    g.2.alive && r.tag == 0 && decide (64 * g.2.core + x.bankfirst ≤ bank)
      && decide (bank < 64 * g.2.core + x.bankfirst + x.bankcnt)

/-- RESOURCE_GRANT: the resource is brought to its granted state and its entry is written; a remote range takes its BASE
from `unit` and its GIB from `item`. A resource that is held, retired, of a retired quarter, in use, in the abort engine or without its record, or part of a rucksack, is
not granted, and what holds a world's data goes only to a world with keys (R384, R394, R398, R409). An Unscrubbed
frame is overwritten first (R416), which its zero-fill does. -/
def execResourceGrant (resource : Word) (tag world : Nat) (shared : Bool) (s : State) : Out :=
  .next <|
    let kind := resource.toNat / 2 ^ 60
    let idx := resource.toNat % 2 ^ 60
    let o := s.owner kind idx
    let keyed := kind = 1 ∨ kind = 2 ∨ kind = 4
    let w : BitVec 8 := BitVec.ofNat 8 world
    let o' : Owner := { o with tag := BitVec.ofNat 16 tag, world := w, shared := shared, poison := false }
    let gone := (kind = 3 ∧ Store.get false s.retired (idx / 512)) ∨ (kind = 4 ∧ Store.get false s.retired (idx / 16))
    if !resourceOk kind idx ∨ o.tag ≠ 0 ∨ o.retired ∨ gone ∨ (kind = 1 ∧ s.bankBusy idx) ∨ s.leaving kind idx ∨ (kind = 2 ∧ s.inSack idx)
        ∨ (keyed ∧ (s.slotOf w).isNone) then s
    else if kind = 1 then (s.zeroRange (scratchBase + idx * 2 ^ 19) (2 ^ 19)).setOwner kind idx o'
    else if kind = 2 then
      let s := { s with flash := { s.flash with scrubbed := Store.set false s.flash.scrubbed idx false } }
      (s.zeroRange (idx * 2 ^ 16) (2 ^ 16)).setOwner kind idx o'
    else if kind = 3 then { s with tlb := Store.set {} s.tlb idx {} }.setOwner kind idx o'
    else if kind = 4 then (s.putTile idx {}).setOwner kind idx o'
    else if kind = 5 then (s.putChannel idx {}).setOwner kind idx o'
    else if kind = 6 then
      { s with templates := Store.setAll 0 s.templates ((List.range 8).map fun i => (8 * idx + i, 0#64)) }.setOwner kind idx o'
    else if kind = 7 then s.setOwner kind idx o'
    else if kind = 8 then
      if (Store.get 0 s.remotes (2 * idx)).getLsbD 0 then s
      else
        { s with remotes := Store.setAll 0 s.remotes
                   [(2 * idx, BitVec.ofNat 64 (s.unit % 2 ^ 34 * 2 ^ 30 + s.item % 2 ^ 16 * 2 ^ 14 + 1)),
                    (2 * idx + 1, BitVec.ofNat 64 (tag % 2 ^ 16 * 2 ^ 16 + world % 2 ^ 8 * 2 ^ 8))] }
    else s

/-! ### What a seizure cancels -/

/-- Work that a seizure has cancelled: how many operations, and the first one's sequence number and pc. -/
structure Lost where
  s     : State
  count : Nat := 0
  seq   : Nat := 0
  pc    : Word := 0

def Lost.add (l : Lost) (s : State) (seq : BitVec 32) (pc : Word) : Lost :=
  { s := s, count := l.count + 1, seq := if l.count = 0 then seq.toNat else l.seq, pc := if l.count = 0 then pc else l.pc }

/-- A transfer is cancelled (R345): its remaining bytes are counted off, and the channel shows CANCELLED. -/
def State.cancelTransfer (s : State) (ch : Nat) : State :=
  let c := s.channel ch
  match c.run with
  | none => s
  | some r =>
    let n := (r.lines.map Prod.snd).sum
    let s := s.putChannel ch { c with busy := false, cancelled := true, run := none }
    if s.stileOwned r then s.laterStile { key := r.stile, arrive := false, n := n, bits := [stCancel], pc := r.pc, seq := r.seq } else s

/-- Cancel the running transfers that satisfy `p`. -/
def Lost.transfers (l : Lost) (p : Nat → Transfer → Bool) : Lost :=
  l.s.channels.foldl (fun l c => match c.2.run with
    | some r => if p c.1 r then l.add (l.s.cancelTransfer c.1) r.seq r.pc else l
    | none => l) l

/-- A transfer reads or writes a byte of a range. -/
def Transfer.touches (x : Transfer) (r : KeyRange) : Bool :=
  let t := x.template
  ((t.sources x.src x.count).any fun a => r.has (x.key t.skind a)) || ((t.dests x.dst x.count).any fun a => r.has (x.key t.dkind a))

/-- Cancel the matrix commands of a quarter that satisfy `p` (R294). DESIGN CHOICE (log entry 79, unsafe): a crewed one is cancelled
in every member, as R292 cancels a crew's operation; R294 speaks only of the commands on the seized tile. -/
def Lost.commands (l : Lost) (gq : Nat) (p : MatCmd → Bool) : Lost :=
  ((l.s.sequencer gq).filter p).foldl (fun l c =>
    if (l.s.sequencer gq).any fun d => d.team == c.team && d.op == c.op then
      let o := ((l.s.teamAt c.team).op? c.op).getD {}
      l.add (match c.crewN with | some n => l.s.cancelCrew c.team n | none => l.s.cancelCmd gq c) o.seq o.pc
    else l) l

/-- The bytes that a command reads or writes in scratchpad, as keys of core `core`. -/
def MatCmd.touches (c : MatCmd) (core : Nat) (r : KeyRange) : Bool :=
  if c.isStep then
    (List.range c.steps).any fun i => (State.keysB core (c.addrB i) c.ty).any r.has
  else c.toSpad && c.laneRows.any fun x => (List.range (LaneOp.rowBytes c.ty)).any fun i =>
    r.has (scratchBase + (sFlat core (c.rowAddr x.1 + i)).getD 0)

/-- Its region lies in part in a bank. -/
def PostEntry.inBank (p : PostEntry) (bank : Nat) : Bool :=
  let hit (a : Nat) : Bool := decide (a < (bank + 1) * 2 ^ 19) && decide (bank * 2 ^ 19 < a + p.len)
  p.state == 1 && (hit p.pub || hit p.sub) || p.state == 3 && (hit p.pub || hit p.sub)

/-- A team parked by `yield` on a stile of the bank is Ready with D = 2 (R345). -/
def State.wakeBank (s : State) (r : KeyRange) : State :=
  s.teams.foldl (fun s x => match (s.teamAt x.1).park with
    | some (.stile k _ _ _) => if r.has k then s.wakeStile k 2 else s
    | _ => s) s

/-- Histogram updates queued for a lost bank are discarded (R86): the state and their number. -/
def State.dropBins (s : State) (r : KeyRange) : State × Nat :=
  s.teams.foldl (fun a x =>
    let t := a.1.teamAt x.1
    let lost := t.sdq.filter fun w => match w.what with
      | .reduction o _ => o.mode.op == .bin && r.has o.key
      | _ => false
    if lost.isEmpty then a
    else ((a.1.putTeam x.1 { t with sdq := t.sdq.filter fun w => !(lost.any fun v => v.id == w.id) }).countErr
      t.pstat.tag.toNat eDrops lost.length, a.2 + lost.length)) (s, 0)

/-! ### The hamper (R392) -/

/-- An item goes into the hamper of a tag: the offset of its contents, or none when it has to be discarded. -/
def State.toHamper (s : State) (tag : BitVec 16) (world : BitVec 8) (resource : Nat) (bs : List Byte) : State × Option Nat :=
  match s.runtimePage tag.toNat with
  | none => (s, none)
  | some p =>
    let base := s.readNat (p + 0x820) 8
    let size := s.readNat (p + 0x828) 8
    let next := s.readNat (p + 0x830) 8
    let n := 64 + (bs.length + 63) / 64 * 64
    let frames := (List.range ((base + next + n - 1) / 2 ^ 16 + 1 - (base + next) / 2 ^ 16)).map fun i =>
      ((base + next) / 2 ^ 16 + i) * 2 ^ 16
    if next + n ≤ size ∧ frames.all fun f => s.homeOwned tag world f then
      let item := leBytes 64 resource ++ bs ++ List.replicate (n - 64 - bs.length) 0
      ((s.perform ((keysFrom (base + next) n).zip item) true).putWord (p + 0x830) (next + n), some (next + 64))
    else (s, none)

/-! ### The abort engine -/

/-- A queued write was checked before the seizure instant: the engine waits for it; `r` is where the resource's bytes lie. -/
def WriteOp.accesses (w : WriteOp) (kind idx : Nat) (r : KeyRange) : Bool :=
  match w.what with
  | .template slot _ _ => kind == 6 && slot == idx
  | .arg ch _ _ => kind == 5 && ch == idx
  | .go ch _ => kind == 5 && ch == idx
  | .reduction o _ => o.mode.op != .bin && w.keys.any r.has
  | _ => w.keys.any r.has

/-- A bank: subscriptions, transfers, drains and matrix commands on it end, and so do parks on its stiles. What is torn down or
discarded has its record even where a reply gave up the bank: what the reply left in use is taken as if seized (R330, R353). -/
def Lost.bank (l : Lost) (x : Seizure) (idx : Nat) (tag : BitVec 16) : Lost :=
  let r := l.s.span 1 idx
  let torn := (List.range 1536).foldl (fun (s : State) i =>
    if (s.post i).inBank idx then (s.tearDown i).recordTorn i x.reqid x.time else s) l.s
  let l := ({ l with s := torn }).transfers fun _ x => x.touches r
  let l := (List.range 4).foldl (fun (l : Lost) q => l.commands (4 * (idx / 64) + q) fun c => c.touches (idx / 64) r) l
  let d := (l.s.wakeBank r).dropBins r
  let item : LostItem := { resource := resKey 1 idx, reqid := x.reqid, cause := 5, count := d.2, time := x.time }
  { l with s := if d.2 = 0 then d.1 else d.1.recordLost tag.toNat item }

/-- The tile image of R273, 12,808 bytes. -/
def Tile.bytes (x : Tile) : List Byte :=
  let part (n k size : Nat) (f : Nat → Nat) : List Byte := (List.range n).flatMap fun i => leBytes size (f (k * i))
  part 2048 1 4 (fun i => (Store.get 0 x.vals i).toNat) ++ part 2048 1 2 (fun i => (Store.get 0 x.counts i).toNat)
    ++ part 64 1 8 (fun i => (Store.get 0 x.cx i).toNat + (Store.get 0 x.cr i).toNat * 2 ^ 32) ++ leBytes 8 x.poison.toNat

def Channel.bytes (c : Channel) : List Byte :=
  leBytes 8 c.src.toNat ++ leBytes 8 c.dst.toNat ++ leBytes 8 c.count.toNat ++ leBytes 8 c.stile.toNat

def State.templateBytes (s : State) (idx : Nat) : List Byte :=
  (List.range 8).flatMap fun i => leBytes 8 (Store.get 0 s.templates (8 * idx + i)).toNat

def State.clearTemplate (s : State) (idx : Nat) : State :=
  { s with templates := Store.setAll 0 s.templates ((List.range 8).map fun i => (8 * idx + i, (0 : Word))) }

/-- V of a remote range is cleared; that of a window range is released at the node or peer that holds the matching entry (R392). -/
def State.clearRange (s : State) (idx : Nat) : State :=
  let w := (Store.get 0 s.remotes (2 * idx)).toNat
  let base := fld w 30 34 * 2 ^ 30
  { s with
    remotes := Store.set 0 s.remotes (2 * idx) (Store.get 0 s.remotes (2 * idx) &&& ~~~1#64)
    releases := if onFabric base then s.releases ++ [(fld (Store.get 0 s.routes (2 * idx)).toNat 32 20, s.remoteAddr idx base)]
      else s.releases }

/-- What the table of R392 does for one resource, beside what its seizure instant has done. -/
def Lost.act (l : Lost) (x : Seizure) (kind idx : Nat) (old : Owner) : Lost :=
  if kind = 1 then l.bank x idx old.tag
  else if kind = 2 then l.transfers fun _ x => x.touches (l.s.span 2 idx)
  else if kind = 4 then l.commands (idx / 16) fun c => c.tileNo == idx % 16
  else if kind = 5 then l.transfers fun ch _ => ch == idx
  else if kind = 6 then { l with s := l.s.clearTemplate idx }
  else if kind = 8 then { l with s := l.s.clearRange idx }
  else l

/-- The hamper contents of a resource: `s` as the action leaves it, but a template slot as it was before. -/
def State.contents (s before : State) (kind idx : Nat) : List Byte :=
  if kind = 1 then (let r := s.span 1 idx; (keysFrom r.base r.size).map s.byte)
  else if kind = 2 then s.storedFrame idx ++ s.storedTags idx
  else if kind = 4 then (s.tile idx).bytes
  else if kind = 5 then (s.channel idx).bytes
  else if kind = 6 then before.templateBytes idx
  else []

/-- The next resource reaches its seizure instant. One that has left its tag already is skipped, but for the mark of a retired
unit (R384). -/
def State.beginSeizure (s : State) (x : Seizure) (rest : List Seizure) : State :=
  let kind := x.resource.toNat / 2 ^ 60
  let idx := x.resource.toNat % 2 ^ 60
  if (s.holder kind idx).1 = 0 then
    { (if x.cause = 2 ∧ kind < 8 then s.setOwner kind idx { s.owner kind idx with retired := true } else s) with seizing := rest }
  else
    let y := s.seize x
    { y.1 with seizing := y.2 :: rest }

/-- The rest of it, once every access that was checked before has been performed. A postcard entry has the record of its tear-down,
which names GEN (R353), also where a reply gave it up in use, and then that of its seizure. -/
def State.endSeizure (s : State) (x : Seizure) (old : Owner) (rest : List Seizure) : State :=
  let kind := x.resource.toNat / 2 ^ 60
  let idx := x.resource.toNat % 2 ^ 60
  let r := s.span kind idx
  if s.teams.any (fun t => t.2.sdq.any fun w => w.accesses kind idx r) || s.stileWaits.any (fun w => r.has w.key) then s
  else if s.redbuf.any fun c => c.2.any fun l => r.has (128 * l.line) || x.wait.covers (128 * l.line) then
    s.sendLines fun l => r.has (128 * l.line) || x.wait.covers (128 * l.line)
  else if !s.replaceDone x.wait then s
  else if kind = 9 then
    let item : LostItem := { resource := x.resource.toNat, reqid := x.reqid, cause := x.cause, time := x.time }
    let s := s.recordTorn idx x.reqid x.time
    { (if x.record then s.recordLost old.tag.toNat item else s) with seizing := rest }
  else
    let l := Lost.act { s := s } x kind idx old
    if !x.record then { l.s with seizing := rest }
    else
      let bs := l.s.contents s kind idx
      let h := if bs.isEmpty then (l.s, none) else l.s.toHamper old.tag old.world x.resource.toNat bs
      let item : LostItem :=
        { resource := x.resource.toNat, reqid := x.reqid, cause := x.cause, hamper := h.2.getD (2 ^ 64 - 1), count := l.count,
          len := if h.2.isSome then bs.length else 0, seq := l.seq, pc := l.pc, trunc := !bs.isEmpty && h.2.isNone,
          time := x.time }
      { h.1.recordLost old.tag.toNat item with seizing := rest }

/-- One step of the abort engine: the record that it is writing, or the resource that it handles. -/
def State.abortStep (s : State) : State :=
  match s.records with
  | r :: rest => s.endRecord r rest
  | [] => match s.seizing with
    | [] => s
    | x :: rest => match x.owner with
      | none => s.beginSeizure x rest
      | some old => s.endSeizure x old rest

/-- RESOURCE_SEIZURE: management has one resource seized; while the engine is at work, the event carries it on. -/
def execResourceSeizure (resource : Word) (reason reqid : Nat) (s : State) : Out :=
  .next <|
    if s.seizing.isEmpty then
      { s with seizing := [{ resource := resource, cause := reason % 256, reqid := reqid % 2 ^ 32 }] }.abortStep
    else s.abortStep

/-! ### Requests and replies (R389 to R391) -/

def State.putTenant (s : State) (tag : Nat) (t : Tenant) : State := { s with tenants := Store.set {} s.tenants tag t }

/-- The shortest time from a post to its deadline (R389). -/
def minGrace : Nat := 400000

/-- One release arrival of management on the mailbox stile of a runtime page (R342). DESIGN CHOICE (log entry 85, unsafe): where MBOX
names no aligned stile in a bank of the tag the arrival is dropped, and the bank's world is not tested; R388 and R389 say nothing of
either. -/
def State.arriveMailbox (s : State) (tag page : Nat) : State :=
  let own := ((s.runtimeTeam tag).map fun id => (s.teamAt id).core).getD 0
  match sFlat own (s.readNat (page + 0x818) 4) with
  | none => s
  | some f => if f % 16 = 0 ∧ (s.owner 1 (bankOf f)).tag.toNat = tag then s.laterStile { key := scratchBase + f, arrive := true } else s

/-- REVOCATION_REQUEST: a record is posted, the mailbox arrival made, and REVOKE delivered. -/
def execRevocationRequest (tag : Nat) (req : RevocationRequest) (s : State) : Out :=
  .next <|
    let t := s.tenantAt tag
    let id := t.lastReq + 1
    let nres := req.resources.length
    if nres = 0 ∨ 6 < nres ∨ 2 ^ 32 ≤ id ∨ t.posted.any (fun p => p.id % 16 == id % 16 && p.reply.isNone) then s
    else match s.runtimePage tag with
      | none => s
      | some page =>
        let deadline := s.now + max req.grace minGrace
        let slot := page + 64 * (id % 16)
        let s := s.putTenant tag { t with lastReq := id, posted := t.posted ++
          [{ id := id, resources := req.resources, reason := req.reason, deadline := deadline }] }
        let words := [id * 2 ^ 32 + nres, deadline % 2 ^ 64] ++ req.resources.map BitVec.toNat
        let s := s.perform (words.zipIdx.flatMap fun w => spread (keysFrom (slot + 8 * w.2) 8) w.1) true
        let s := s.arriveMailbox tag page
        match s.runtimeTeam tag with
        | some r => s.deliverCause r cRevoke (BitVec.ofNat 64 id)
        | none => s

/-- REVOCATION_REPLY of tag `unit`: a reply takes effect, as it does at the store that makes it (`noteReply`); the event also
carries on the work that a reply has left to the abort engine. -/
def execRevocationReply (s : State) : Out :=
  .next <|
    match (s.tenantAt s.unit).posted.find? fun p => p.reply.isSome && !p.replied with
    | some p => s.takeReply s.unit p
    | none => s.abortStep

/-- REVOCATION_DEADLINE of tag `unit`: what a request has not been given goes to the abort engine. -/
def execRevocationDeadline (s : State) : Out :=
  .next <|
    let t := s.tenantAt s.unit
    match t.posted.find? fun p => decide (p.deadline ≤ s.now) with
    | none => s.abortStep
    | some p =>
      if p.reply.isSome && !p.replied then s.takeReply s.unit p
      else
        let left := p.resources.filter fun r =>
          !p.given.contains r && (s.holder (r.toNat / 2 ^ 60) (r.toNat % 2 ^ 60)).1.toNat == s.unit
        { (s.putTenant s.unit { t with posted := t.posted.filter fun x => x.id != p.id }) with
            seizing := s.seizing ++ left.map fun r => { resource := r, cause := causeOf p.reason, reqid := p.id } }

end Sys2Proof.Machine
end

