-- ==== Sys2Proof/Machine/Escalate.lean ====
section
/-!
DEFINITION. Machine/Escalate.lean: trap entry when nothing holds it any longer (R304), escalation to management (R307, R396)
and its three actions (R397).
-/

namespace Sys2Proof.Machine

/-- TRAP_ENTRY of team `unit`. -/
def execTrapEntry (s : State) : Out := .next s.atUnit.completeEntry

/-- ESCALATION of team `unit`: it stops, and its record is written when the ring has a place. -/
def execEscalation (s : State) : Out :=
  .next <|
    let s := s.atUnit
    let s := if s.team.pstat.inh then s.completeEntry else s
    s.recordEscalation s.cur

/-- A team that management may act on: not one that it has ended, or is saving. -/
def Team.escalated (t : Team) : Bool :=
  t.life == .resident && t.esc.isSome && t.saveReq != some kindEnd && t.saveReq != some 5

/-- END: what has not issued or started is dropped as a forced save drops it, what is in flight completes, and the team becomes
Exited. -/
def execEscalationEnd (s : State) : Out :=
  .next <|
    let s := s.atUnit
    if !s.team.escalated then s
    else
      let s := s.cancelUnstarted
      if s.team.drained then s.exitTeam s.cur 0 0 0
      else s.upd fun t => { t with saveReq := some kindEnd, saveStopped := true, laneq := [] }

/-- RESUME: the team goes on at its escalation point with INH = 1, after the `trap` when SW is 1. -/
def execEscalationResume (s : State) : Out :=
  .next <|
    let s := s.atUnit
    let t := s.team
    match t.escTrap with
    | none => s
    | some r =>
      if !t.escalated then s
      else
        (s.setTeam { t with esc := none, escTrap := none, pstat := { t.pstat with inh := true }, lhdr := none, came := none,
                            pc := if r.sw then r.pc + 4#64 else r.pc,
                            lidx := if r.lidx = 0xFFFFFFFF#32 then none else some r.lidx.toNat,
                            seqctr := r.seq, srctr := r.srctr }).resumeCount s.cur

/-- SAVE: the team is saved with KIND 5; one that has escalated as a Handling team, whatever INH was (R408). -/
def Team.saveNow (t : Team) : Team :=
  if t.escalated then { t with saveReq := some 5, frame := some (t.frame.getD t.noFrame), pstat := { t.pstat with inh := true } }
  else { t with saveReq := some 5 }

def execEscalationSave (s : State) : Out :=
  .next <|
    let s := s.atUnit
    if !s.team.escalated then s else s.upd Team.saveNow

end Sys2Proof.Machine
end

