-- ==== Sys2Proof/Machine/ScalarMask.lean ====
section
/-!
DEFINITION. Machine/ScalarMask.lean: whole-mask operations and stream slots (R188, R189), with the interlocks of R40.
-/

namespace Sys2Proof.Machine

/-- A lane instruction that is queued, or issued and not complete, names the mask or slot (16 + q). -/
def Team.laneNames (t : Team) (n : Nat) : Bool :=
  (t.laneq.any fun e => (laneOps e.word.toNat).any fun o => o.names.contains n) || t.pend.any fun p => p.names.contains n

/-- One that is queued, or not yet written back, writes the mask. -/
def Team.laneWritesMask (t : Team) (m : Nat) : Bool :=
  (t.laneq.any fun e => (laneOps e.word.toNat).any fun o => o.maskDests.contains m)
    || t.pend.any fun p => p.masks.any fun x => x.1 / 1024 == m

/-- A mask operation that reads `srcs` and writes `dst` (0 for none) is held. -/
def Team.maskHeld (t : Team) (srcs : List Nat) (dst : Nat) : Bool :=
  srcs.any t.laneWritesMask || (dst != 0 && t.laneNames dst)

/-- A scalar instruction that R40 holds at its masks or its stream slot. -/
def Team.interlocked (t : Team) : Instr → Bool
  | .mand d a b | .mor d a b | .mxor d a b => t.maskHeld [a.toNat, b.toNat] d.toNat
  | .mnot d a => t.maskHeld [a.toNat] d.toNat
  | .mcount _ a | .mfirst _ a | .mtest a => t.maskHeld [a.toNat] 0
  | .mset d _ _ => t.maskHeld [] d.toNat
  | .qset _ b _ | .qget _ b _ => t.laneNames (16 + b.toNat)
  | _ => false

/-- A mask of two masks. -/
def State.maskOp (s : State) (g : Mask → Mask → Mask) (d a b : BitVec 6) : State :=
  if s.team.maskHeld [a.toNat, b.toNat] d.toNat then s
  else s.upd fun t => (t.setMask d.toNat (g (t.mask a.toNat) (t.mask b.toNat))).advance

def execMand (d a b : BitVec 6) (s : State) : Out := guarded (.mand d a b) s (.next (s.maskOp (· &&& ·) d a b))
def execMor (d a b : BitVec 6) (s : State) : Out := guarded (.mor d a b) s (.next (s.maskOp (· ||| ·) d a b))
def execMxor (d a b : BitVec 6) (s : State) : Out := guarded (.mxor d a b) s (.next (s.maskOp (· ^^^ ·) d a b))
def execMnot (d a : BitVec 6) (s : State) : Out := guarded (.mnot d a) s (.next (s.maskOp (fun x _ => ~~~x) d a a))

/-- A scalar from the live bits of a mask. -/
def State.maskRead (s : State) (g : Mask → Word) (d a : BitVec 6) : State :=
  if s.team.maskHeld [a.toNat] 0 then s
  else s.upd fun t => (t.setReg d (g (t.mask a.toNat &&& t.m0))).advance

/-- The lowest set bit, or all ones. -/
def lowest (x : Mask) : Word :=
  match firstBit x 0 1024 with
  | some i => BitVec.ofNat 64 i
  | none => BitVec.allOnes 64

def execMcount (d a : BitVec 6) (s : State) : Out :=
  guarded (.mcount d a) s (.next (s.maskRead (fun x => BitVec.ofNat 64 (countBits x 1024)) d a))
def execMfirst (d a : BitVec 6) (s : State) : Out := guarded (.mfirst d a) s (.next (s.maskRead lowest d a))

def execMtest (a : BitVec 6) (s : State) : Out :=
  guarded (.mtest a) s (.next <|
    if s.team.maskHeld [a.toNat] 0 then s else s.upd fun t => (t.setMaskFlags (t.mask a.toNat)).advance)

/-- Bits a to b - 1 (R188). -/
def rangeMask (a b : Nat) : Mask := BitVec.ofNat 1024 (2 ^ min b 1024 - 2 ^ min a (min b 1024))

def execMset (d a b : BitVec 6) (s : State) : Out :=
  guarded (.mset d a b) s (.next <|
    if s.team.maskHeld [] d.toNat then s
    else s.upd fun t => (t.setMask d.toNat (rangeMask (t.reg a).toNat (t.reg b).toNat)).advance)

/-! ### Stream slots -/

def Team.stream (t : Team) (q : Nat) : Slot := Store.get {} t.q q

/-- A field of a slot as `qget` reads it. -/
def Slot.read (x : Slot) (f : Nat) : Word :=
  if f = 0 then x.base
  else if f = 1 then BitVec.ofNat 64 (16 * x.kind.toNat + x.ty.toNat)
  else if f = 2 then x.stride.signExtend 64
  else if f = 3 then x.count.zeroExtend 64
  else x.pos.zeroExtend 64

/-- The slot with a field written; none where `qset` refuses the value. -/
def Slot.write (x : Slot) (f : Nat) (v : Word) : Option Slot :=
  if f = 0 then some { x with base := v }
  else if f = 1 then
    (if v.toNat < 32 ∧ v.toNat % 16 < 0xD then some { x with kind := bfld v.toNat 4 1, ty := bfld v.toNat 0 4 } else none)
  else if f = 2 then
    (if (v.truncate 32 : BitVec 32).signExtend 64 = v then some { x with stride := v.truncate 32 } else none)
  else if v.toNat < 2 ^ 32 then
    some (if f = 3 then { x with count := v.truncate 32 } else { x with pos := v.truncate 32 })
  else none

def execQset (a b : BitVec 6) (f : BitVec 4) (s : State) : Out :=
  guarded (.qset a b f) s (.next <|
    if s.team.laneNames (16 + b.toNat) then s
    else match (s.team.stream b.toNat).write f.toNat (s.team.reg a) with
      | none => s.illegal (encode (.qset a b f))
      | some x => s.upd fun t => { t with q := Store.set {} t.q b.toNat x }.advance)

def execQget (d b : BitVec 6) (f : BitVec 4) (s : State) : Out :=
  guarded (.qget d b f) s (.next <|
    if s.team.laneNames (16 + b.toNat) then s
    else s.upd fun t => (t.setReg d ((t.stream b.toNat).read f.toNat)).advance)

end Sys2Proof.Machine
end

