-- ==== Sys2Proof/Machine/ScalarMem.lean ====
section
/-!
DEFINITION. Machine/ScalarMem.lean: scalar loads, stores and atomics (R175 to R178, R260). An access over the scale-up
fabric and an atomic are held at the instruction until their value returns (R453, R454).
-/

namespace Sys2Proof.Machine

/-- The check of a scalar access. -/
def State.scalarCheck (s : State) (t : Team) (g : Bool) (need ea n : Nat) : Checked :=
  if g then s.checkG t.gq t.pstat.tag t.pstat.world need 0 ea n
  else s.checkS t.pstat.tag t.pstat.world t.core 0 ea n

/-- The trap of failed checks (R175, R303). -/
def State.checkTrap (s : State) (c : Checked) : Option State :=
  (worst c.fails).map fun f => s.trapVec f.cause f.scalarVal (vecFor f c.fails)

/-- The operation at `ea` that holds the stream until its value arrives; `far` are the bytes of the window that it goes to. -/
def Team.scalarOp (t : Team) (ticks : Nat) (kind : OpKind) (d : BitVec 6) (v : Option Word) (ea : Nat) (far : List Nat) : Pend :=
  { id := t.nextOp, kind := kind, seq := t.seqctr, pc := t.pc, born := ticks, scalar := some (d.toNat, v),
    addr := BitVec.ofNat 64 ea, fabric := if far.isEmpty then [] else [(0, BitVec.ofNat 64 ea)], far := far }

def State.scalarLoad (s : State) (g : Bool) (d a b : BitVec 6) (z : BitVec 2) : State :=
  let t := s.team
  let ea := (t.reg a + t.reg b).toNat
  let n := 2 ^ z.toNat
  let c := s.scalarCheck t g needR ea n
  match s.checkTrap c with
  | some s' => s'
  | none =>
    if c.keys.any inWindow then
      match s.windowFault t ea n c.keys with
      | some cause => s.trap cause (BitVec.ofNat 64 ea)
      | none => s.setTeam (t.setReg d (((windowAt (c.keys.headD 0)).map (s.windowRead t)).getD 0)).advance
    else if s.scalarWait t c.keys then s.sendTouched s.cur c.keys
    else if s.loadPoisoned t c.keys then s.poisonStop c.keys ea
    else if c.keys.any s.unreachable then s.trap cFabric (BitVec.ofNat 64 ea)
    else
      let v := BitVec.ofNat 64 (s.load t c.keys)
      if c.keys.any onFabric then
        s.setTeam { t with pend := t.pend ++ [t.scalarOp s.ticks .load d (some v) ea (c.keys.filter onFabric)] }.newOp
      else s.setTeam (t.setReg d v).advance

def execLdS (d a b : BitVec 6) (sc : BitVec 4) (c z : BitVec 2) (s : State) : Out :=
  guarded (.ldS d a b sc c z) s (.next (s.scalarLoad false d a b z))
def execLdG (d a b : BitVec 6) (sc : BitVec 4) (c z : BitVec 2) (s : State) : Out :=
  guarded (.ldG d a b sc c z) s (.next (s.scalarLoad true d a b z))

/-- The scope of a releasing store. -/
def storeRelease (scope : BitVec 4) (ord : BitVec 2) : Option Nat := if ord = 2#2 then some scope.toNat else none

def State.scalarStore (s : State) (g : Bool) (d a b : BitVec 6) (release : Option Nat) (z : BitVec 2) : State :=
  let t := s.team
  let ea := (t.reg a + t.reg b).toNat
  let n := 2 ^ z.toNat
  let c := s.scalarCheck t g needW ea n
  match s.checkTrap c with
  | some s' => s'
  | none =>
    if c.keys.any inWindow then
      match s.windowFault t ea n c.keys with
      | some cause => s.trap cause (BitVec.ofNat 64 ea)
      | none => match windowAt (c.keys.headD 0) with
        | some w => s.windowStore (BitVec.ofNat 64 ea) (t.reg d) release w
        | none => s
    else if s.fabricHeld c.keys || t.binsAhead release.isSome c.keys then s
    else
      s.setTeam (((t.noteStale s g c.keys).addWrites 0 s.cycle release
        (storeParts ea (spread c.keys (t.reg d).toNat))).advance)

/-- A go store that waits on a BUSY channel (R261). -/
def State.goBusy (s : State) (t : Team) : Instr → Bool
  | .stG _ a b _ _ z =>
    let c := s.scalarCheck t true needW (t.reg a + t.reg b).toNat (2 ^ z.toNat)
    c.fails.isEmpty && (windowAt (c.keys.headD 0)).any fun w => !w.tmpl && w.word == 4 && (s.channel w.unit).busy
  | _ => false

def execStS (d a b : BitVec 6) (sc : BitVec 4) (c z : BitVec 2) (s : State) : Out :=
  guarded (.stS d a b sc c z) s (.next (s.scalarStore false d a b (storeRelease sc c) z))
def execStG (d a b : BitVec 6) (sc : BitVec 4) (c z : BitVec 2) (s : State) : Out :=
  guarded (.stG d a b sc c z) s (.next (s.scalarStore true d a b (storeRelease sc c) z))

/-! ### Atomics -/

/-- A scalar atomic (R177, R178) on `n` bytes. -/
def State.scalarAtomic (s : State) (g : Bool) (op : RmwOp) (ty : BitVec 4) (n : Nat) (d a b : BitVec 6) : State :=
  let t := s.team
  let ea := (t.reg a).toNat
  let c := s.scalarCheck t g needRW ea n
  if c.keys.any inWindow then s.trap cTbProt (BitVec.ofNat 64 ea)
  else
    let c := if ea % n ≠ 0 then { c with fails := ⟨cAlign, 0, ea, ea⟩ :: c.fails } else c
    match s.checkTrap c with
    | some s' => s'
    | none =>
      if c.keys.any s.poisoned then s.poisonStop c.keys ea
      else if s.fabricHeld c.keys || t.binsAhead false c.keys then s
      else if c.keys.any s.unreachable then s.trap cFabric (BitVec.ofNat 64 ea)
      else
        let o : Rmw := { mode := { op := op, ty := ty }, key := c.keys.headD 0, size := n,
                         val := BitVec.ofNat 64 ((t.reg b).toNat % 256 ^ n),
                         cmp := BitVec.ofNat 64 ((t.reg d).toNat % 256 ^ n) }
        let far := c.keys.any onFabric
        let p := t.scalarOp s.ticks .atomic d none ea (c.keys.filter onFabric)
        s.setTeam (({ t with pend := t.pend ++ [p] }.newOp).addWrites p.id s.cycle none
          [(.atomic o, if far then some (BitVec.ofNat 64 ea) else none)])

/-- Width and type of an integer atomic: `z` set for 64 bits. -/
def atomBytes (z : BitVec 1) : Nat := if z = 1#1 then 8 else 4
def atomSigned (z : BitVec 1) : BitVec 4 := if z = 1#1 then 8#4 else 7#4
def atomPlain (z : BitVec 1) : BitVec 4 := if z = 1#1 then 0xC#4 else 0xB#4

def execAtomAddS (d a b : BitVec 6) (z : BitVec 1) (s : State) : Out :=
  .next (s.scalarAtomic false .add (atomPlain z) (atomBytes z) d a b)
def execAtomMinS (d a b : BitVec 6) (z : BitVec 1) (s : State) : Out :=
  .next (s.scalarAtomic false .min (atomSigned z) (atomBytes z) d a b)
def execAtomMaxS (d a b : BitVec 6) (z : BitVec 1) (s : State) : Out :=
  .next (s.scalarAtomic false .max (atomSigned z) (atomBytes z) d a b)
def execAtomMinuS (d a b : BitVec 6) (z : BitVec 1) (s : State) : Out :=
  .next (s.scalarAtomic false .min (atomPlain z) (atomBytes z) d a b)
def execAtomMaxuS (d a b : BitVec 6) (z : BitVec 1) (s : State) : Out :=
  .next (s.scalarAtomic false .max (atomPlain z) (atomBytes z) d a b)
def execAtomAndS (d a b : BitVec 6) (z : BitVec 1) (s : State) : Out :=
  .next (s.scalarAtomic false .and (atomPlain z) (atomBytes z) d a b)
def execAtomOrS (d a b : BitVec 6) (z : BitVec 1) (s : State) : Out :=
  .next (s.scalarAtomic false .or (atomPlain z) (atomBytes z) d a b)
def execAtomXorS (d a b : BitVec 6) (z : BitVec 1) (s : State) : Out :=
  .next (s.scalarAtomic false .xor (atomPlain z) (atomBytes z) d a b)
def execAtomExchS (d a b : BitVec 6) (z : BitVec 1) (s : State) : Out :=
  .next (s.scalarAtomic false .exch (atomPlain z) (atomBytes z) d a b)
def execAtomCasS (d a b : BitVec 6) (z : BitVec 1) (s : State) : Out :=
  .next (s.scalarAtomic false .cas (atomPlain z) (atomBytes z) d a b)
def execAtomFaddS (d a b : BitVec 6) (s : State) : Out := .next (s.scalarAtomic false .fadd 1#4 4 d a b)
def execAtomFmaxS (d a b : BitVec 6) (s : State) : Out := .next (s.scalarAtomic false .fmax 1#4 4 d a b)
def execAtomFminS (d a b : BitVec 6) (s : State) : Out := .next (s.scalarAtomic false .fmin 1#4 4 d a b)
def execAtomAddG (d a b : BitVec 6) (z : BitVec 1) (s : State) : Out :=
  .next (s.scalarAtomic true .add (atomPlain z) (atomBytes z) d a b)
def execAtomMinG (d a b : BitVec 6) (z : BitVec 1) (s : State) : Out :=
  .next (s.scalarAtomic true .min (atomSigned z) (atomBytes z) d a b)
def execAtomMaxG (d a b : BitVec 6) (z : BitVec 1) (s : State) : Out :=
  .next (s.scalarAtomic true .max (atomSigned z) (atomBytes z) d a b)
def execAtomMinuG (d a b : BitVec 6) (z : BitVec 1) (s : State) : Out :=
  .next (s.scalarAtomic true .min (atomPlain z) (atomBytes z) d a b)
def execAtomMaxuG (d a b : BitVec 6) (z : BitVec 1) (s : State) : Out :=
  .next (s.scalarAtomic true .max (atomPlain z) (atomBytes z) d a b)
def execAtomAndG (d a b : BitVec 6) (z : BitVec 1) (s : State) : Out :=
  .next (s.scalarAtomic true .and (atomPlain z) (atomBytes z) d a b)
def execAtomOrG (d a b : BitVec 6) (z : BitVec 1) (s : State) : Out :=
  .next (s.scalarAtomic true .or (atomPlain z) (atomBytes z) d a b)
def execAtomXorG (d a b : BitVec 6) (z : BitVec 1) (s : State) : Out :=
  .next (s.scalarAtomic true .xor (atomPlain z) (atomBytes z) d a b)
def execAtomExchG (d a b : BitVec 6) (z : BitVec 1) (s : State) : Out :=
  .next (s.scalarAtomic true .exch (atomPlain z) (atomBytes z) d a b)
def execAtomCasG (d a b : BitVec 6) (z : BitVec 1) (s : State) : Out :=
  .next (s.scalarAtomic true .cas (atomPlain z) (atomBytes z) d a b)
def execAtomFaddG (d a b : BitVec 6) (s : State) : Out := .next (s.scalarAtomic true .fadd 1#4 4 d a b)
def execAtomFmaxG (d a b : BitVec 6) (s : State) : Out := .next (s.scalarAtomic true .fmax 1#4 4 d a b)
def execAtomFminG (d a b : BitVec 6) (s : State) : Out := .next (s.scalarAtomic true .fmin 1#4 4 d a b)

end Sys2Proof.Machine
end

