-- ==== Sys2Proof/Machine/Debug.lean ====
section
/-!
DEFINITION. Machine/Debug.lean: claims (R422, R423), breakpoints (R424), halt control (R425), the trace unit (R426, R427),
roll call (R428 to R430) and the counter bank (R431, R432). A unit is reached by the function that holds it; halt control
by the physical function.
-/

namespace Sys2Proof.Machine

/-! ### Claims -/

/-- A function as OWNER and PEND name it; management itself holds no unit. -/
def fnCode : Fn → Option Nat
  | .pf => some 0xFE
  | .vf n => some n.toNat
  | .mgmt => none

def DebugBlock.claim (d : DebugBlock) : DbgUnit → Claim
  | .dbg => d.dbg
  | .ctr => d.ctr
  | .rc => d.rc

def DebugBlock.setClaim (d : DebugBlock) (c : Claim) : DbgUnit → DebugBlock
  | .dbg => { d with dbg := c }
  | .ctr => { d with ctr := c }
  | .rc => { d with rc := c }

/-- A change of OWNER returns every other register of the unit to its reset value. -/
def DebugBlock.passTo (d : DebugBlock) (owner : Nat) : DbgUnit → DebugBlock
  | .dbg => { d with dbg := { owner := owner }, bps := [], trEn := false, brkh := false, trAll := false, trTag := 0,
                     kinds := 0, trace := {} }
  | .ctr => { d with ctr := { owner := owner }, ctrAll := false, ctrTag := 0, unsup := 0, run := false, img := 0, counters := [] }
  | .rc => { d with rc := { owner := owner }, samplers := [] }

/-- The function holds the unit. -/
def DebugBlock.holds (d : DebugBlock) (fn : Fn) (u : DbgUnit) : Bool := fnCode fn == some (d.claim u).owner

/-- The function writes the registers of the unit: the physical function always, a virtual function when it holds the unit
(R422). -/
def DebugBlock.writes (d : DebugBlock) (fn : Fn) (u : DbgUnit) : Bool := fn == .pf || d.holds fn u

/-- The point at which a halted team stands, as breakpoints name it: the head of its queue, or its next scalar instruction or
index. -/
def Team.haltPoint (t : Team) : Word × Option Nat :=
  match t.headPoint with
  | some e => (e.pc, some e.lidx)
  | none => (t.pc, t.lidx)

/-- A halted team goes on; a breakpoint does not match again where it stands. -/
def State.endHalt (s : State) (id : Nat) (one : Bool) : State :=
  if (s.teamAt id).halted then
    (s.modTeam id fun t => { t with halted := false, stepOnce := one, bpSkip := some t.haltPoint }).resumeCount id
  else s

/-- OWNER of a unit changes: every other register of the unit returns to its reset value, HSTAT among those of DBG, so that the
halted teams of the core go on (R423, R425). -/
def State.passUnit (s : State) (core owner : Nat) (u : DbgUnit) : State :=
  let s := s.putDbg core ((s.dbg core).passTo owner u)
  match u with
  | .dbg => ((s.teams.filter fun t => t.2.life == .resident && t.2.core == core && t.2.halted).map Prod.fst).foldl
      (fun s id => s.endHalt id false) s
  | _ => s

/-- The time that a holder has to release a unit (R423). -/
def claimGrace : Nat := 400000

/-- CLAIM_REQUEST: REQ written by a function. -/
def execClaimRequest (fn : Fn) (core : Nat) (unit : DbgUnit) (s : State) : Out :=
  .next <|
    let d := s.dbg core
    let c := d.claim unit
    match fnCode fn with
    | none => s
    | some f =>
      if 48 ≤ core ∨ !s.exposes fn then s
      else if c.owner = 0xFF then s.passUnit core f unit
      else if f = 0xFE ∧ c.owner < 64 ∧ c.pend ≠ 0xFE then
        let deadl := BitVec.ofNat 64 (s.now + claimGrace)
        let s := s.putDbg core (d.setClaim { c with pend := 0xFE, deadl := deadl } unit)
        if c.note = 0 then s else s.putWord c.note.toNat deadl.toNat
      else s

/-- The function whose request is settled first of those that reach a unit in one cycle: the hypervisor, then the virtual function
with the lowest number (R423). -/
def claimFirst (fns : List Fn) : Option Fn :=
  if fns.contains .pf then some .pf
  else ((fns.filterMap fun f => match f with | .vf n => some n.toNat | _ => none).min?).map fun n => .vf (BitVec.ofNat 6 n)

/-- Requests of several functions reach a unit in one cycle. Of those that do not come first, a virtual function's has no effect
on a unit that is now held. -/
def State.claimTogether (s : State) (core : Nat) (unit : DbgUnit) (fns : List Fn) : State :=
  match claimFirst fns with
  | none => s
  | some f => match execClaimRequest f core unit s with
    | .next s' => s'
    | _ => s

/-- CLAIM_RELEASE: REL written by a function; with a revocation pending it counts before the deadline only. -/
def execClaimRelease (fn : Fn) (core : Nat) (unit : DbgUnit) (s : State) : Out :=
  .next <|
    let d := s.dbg core
    let c := d.claim unit
    if 48 ≤ core ∨ !d.holds fn unit then s
    else if c.pend ≠ 0xFE then s.passUnit core 0xFF unit
    else if s.now < c.deadl.toNat then s.passUnit core 0xFE unit
    else s

/-! ### Counters -/

/-- Events that this part counts. -/
def eventKnown (e : Nat) : Bool := decide (1 ≤ e) && decide (e ≤ 8)

def DebugBlock.counter (d : DebugBlock) (n : Nat) : Counter := Store.get {} d.counters n

/-- The address that CTRIMG holds. -/
def DebugBlock.imgAt (d : DebugBlock) : Nat := d.img.toNat * 256

/-- The 256-byte session image as a number (R432). -/
def DebugBlock.image (d : DebugBlock) (taken : Bool) (now : Nat) : Nat :=
  1 + d.unsup.toNat * 2 ^ 32 + bit taken 40 + now % 2 ^ 64 * 2 ^ 64
    + ((List.range 8).map fun n =>
        let c := d.counter n
        (bit c.en 63 + c.event.toNat + c.value.toNat * 2 ^ 64) * 2 ^ (128 * (n + 1))).sum

def State.saveCounters (s : State) (core : Nat) (taken : Bool) : State :=
  let d := s.dbg core
  s.perform (spread (keysFrom d.imgAt 256) (d.image taken s.now)) true

/-- COUNTER_SAVE. -/
def execCounterSave (fn : Fn) (core : Nat) (s : State) : Out :=
  .next (if decide (core < 48) && (s.dbg core).writes fn .ctr then s.saveCounters core false else s)

/-- The bank with its counters from an image. -/
def DebugBlock.load (d : DebugBlock) (image : Nat) : DebugBlock :=
  let sel (n : Nat) : Nat := fld image (128 * (n + 1)) 64
  let known (n : Nat) : Bool := eventKnown (fld (sel n) 0 16)
  { d with
    counters := Store.setAll {} [] ((List.range 8).map fun n =>
      (n, { en := fld (sel n) 63 1 = 1, event := bfld (sel n) 0 16,
            value := if known n then bfld image (128 * (n + 1) + 64) 64 else 0 }))
    unsup := BitVec.ofNat 8 (((List.range 8).map fun n => bit (!known n) n).sum) }

/-- COUNTER_LOAD: the counters of missing events read 0, and the image's header, whose other bits stay, says so. -/
def execCounterLoad (fn : Fn) (core : Nat) (s : State) : Out :=
  .next <|
    let d := s.dbg core
    if 48 ≤ core ∨ !d.writes fn .ctr then s
    else
      let d := d.load (s.readNat d.imgAt 256)
      (s.putDbg core d).perform (spread (keysFrom (d.imgAt + 4) 1) (s.readNat (d.imgAt + 4) 1 ||| d.unsup.toNat)) true

/-- CLAIM_DEADLINE: the unit stops and passes to the hypervisor; the counter bank first writes its image. -/
def execClaimDeadline (core : Nat) (unit : DbgUnit) (s : State) : Out :=
  .next <|
    let c := (s.dbg core).claim unit
    if c.pend ≠ 0xFE ∨ s.now < c.deadl.toNat then s
    else
      let s := if unit = .ctr then s.saveCounters core true else s
      s.passUnit core 0xFE unit

/-- A cycle counts on every core whose counter bank runs (R431). -/
def DebugBlock.countCycle (d : DebugBlock) : DebugBlock :=
  if d.run then
    { d with counters := d.counters.map fun c =>
        if c.2.en && c.2.event == 1#16 then (c.1, { c.2 with value := c.2.value + 1 }) else c }
  else d

def State.countCycles (s : State) : State := { s with dbgs := s.dbgs.map fun d => (d.1, d.2.countCycle) }

/-- Instructions that have completed are counted. -/
def State.countEnded (s : State) : State :=
  s.teams.foldl (fun s x =>
    let t := s.teamAt x.1
    if t.ended = 0 then s else (s.putTeam x.1 { t with ended := 0 }).countEvent t.core t.pstat.tag 2 t.ended) s

/-! ### Halt control (R425) -/

/-- The team in a resident slot. -/
def State.slotTeam (s : State) (core quarter slot : Nat) : Option Nat :=
  (s.teams.find? fun t => t.2.life == .resident && t.2.core == core && t.2.quarter == quarter && t.2.slot == slot).map Prod.fst

/-- An action on the team that a HANDLE names, by the physical function. -/
def State.haltctl (s : State) (fn : Fn) (core quarter slot : Nat) (f : State → Nat → State) : State :=
  match fn, s.slotTeam core quarter slot with
  | .pf, some id => f s id
  | _, _ => s

def execHaltctlHalt (fn : Fn) (core quarter slot : Nat) (s : State) : Out :=
  .next <| s.haltctl fn core quarter slot fun s id => s.modTeam id fun t => { t with haltReq := t.haltReq || !t.halted }

def execHaltctlResume (fn : Fn) (core quarter slot : Nat) (s : State) : Out :=
  .next <| s.haltctl fn core quarter slot fun s id => s.endHalt id false

def execHaltctlStep (fn : Fn) (core quarter slot : Nat) (s : State) : Out :=
  .next <| s.haltctl fn core quarter slot fun s id => s.endHalt id true

def execHaltctlSave (fn : Fn) (core quarter slot : Nat) (s : State) : Out :=
  .next <| s.haltctl fn core quarter slot fun s id => s.modTeam id fun t =>
    if t.saveReq.isNone || t.saveReq == some 2 && !t.saveStopped then t.saveNow else t

/-- HSTAT: the halted teams of a core, by resident slot. -/
def State.hstat (s : State) (core : Nat) : Word :=
  BitVec.ofNat 64 ((s.teams.filter fun t => t.2.life == .resident && t.2.core == core && t.2.halted).map fun t =>
    2 ^ (16 * t.2.quarter + t.2.slot)).sum

/-! ### Rings that are switched on -/

def Ring.clear (r : Ring) : Ring := { r with head := 0, tail := 0, drop := 0 }

/-- TRACE_ENABLE: EN from 0 to 1. -/
def execTraceEnable (fn : Fn) (core : Nat) (s : State) : Out :=
  .next <|
    let d := s.dbg core
    if 48 ≤ core ∨ !d.writes fn .dbg ∨ d.trEn then s else s.putDbg core { d with trEn := true, trace := d.trace.clear }

def DebugBlock.sampler (d : DebugBlock) (q : Nat) : Sampler := Store.get {} d.samplers q
def DebugBlock.setSampler (d : DebugBlock) (q : Nat) (x : Sampler) : DebugBlock :=
  { d with samplers := Store.set {} d.samplers q x }

/-- A sampler is switched on. -/
def Sampler.switchOn (x : Sampler) (now cycle : Nat) : Sampler :=
  { x with en := true, ring := x.ring.clear, start := BitVec.ofNat 64 now, from0 := cycle, taken := 0, last := none }

/-- ROLL_CALL_ENABLE: EN of a quarter's sampler from 0 to 1. -/
def execRollCallEnable (fn : Fn) (core quarter : Nat) (s : State) : Out :=
  .next <|
    let d := s.dbg core
    let x := d.sampler quarter
    if 48 ≤ core ∨ 4 ≤ quarter ∨ !d.writes fn .rc ∨ x.en then s
    else s.putDbg core (d.setSampler quarter (x.switchOn s.now s.cycle))

/-! ### Roll call (R428 to R430) -/

/-- Running the instruction leaves the team at it, and nothing enqueued. -/
def State.stays (s : State) : Out → Bool
  | .next s' =>
    let t := s.team
    let u := s'.team
    !Team.trapped t u && u.life == .resident && u.pc == t.pc && u.came.isNone && u.park.isNone && u.barWait.isNone
      && u.laneq.length == t.laneq.length
  | _ => false

/-- REASON of a team that its next scalar instruction holds (R430). The interlock of R166 holds none: the stream stays at a scalar
access until its value has come, so that REASON is MEM there (log entry 83). -/
def State.holdReason (s : State) (i : Instr) : Option Nat :=
  let t := s.team
  let hold (code : Nat) (o : Out) : Option Nat := if s.stays o then some code else none
  let dispatch (o : Out) : Option Nat := if laneQueueSize ≤ t.laneq.length then some 4 else hold 14 o
  match i with
  | .bar d n => hold 8 (execBar d n s)
  | .barGang d n => hold 8 (execBarGang d n s)
  | .wait k n => hold 3 (execWait k n s)
  | .fence scope ord => hold 10 (execFence scope ord s)
  | .lsync => hold 10 (execLsync s)
  | .yield d a b => hold 10 (execYield d a b s)
  | .halt => hold 10 (execHalt s)
  | .launch d a => hold 10 (execLaunch d a s)
  | .tlbw d a b => hold 10 (execTlbw d a b s)
  | .tlbi a => hold 10 (execTlbi a s)
  | .subflush d a => hold 10 (execSubflush d a s)
  | .unsub d a => hold 10 (execUnsub d a s)
  | .lrun d => dispatch (execLrun d s)
  | .lrunr a => dispatch (execLrunr a s)
  | .stG d a b sc c z => if s.goBusy t i then some 12 else hold 13 (execStG d a b sc c z s)
  | .stS d a b sc c z => hold 13 (execStS d a b sc c z s)
  | .ldS d a b sc c z => hold 13 (execLdS d a b sc c z s)
  | .ldG d a b sc c z => hold 13 (execLdG d a b sc c z s)
  | .stexp a b => hold 13 (execStexp a b s)
  | .starr a sc => hold 13 (execStarr a sc s)
  | .sttest d a b sc => hold 13 (execSttest d a b sc s)
  | .stwait d a b sc => hold 13 (execStwait d a b sc s)
  | .mwait d a b => hold 13 (execMwait d a b s)
  | .atomAddS d a b z | .atomMinS d a b z | .atomMaxS d a b z | .atomMinuS d a b z | .atomMaxuS d a b z | .atomAndS d a b z
  | .atomOrS d a b z | .atomXorS d a b z | .atomExchS d a b z | .atomCasS d a b z => hold 13 (execAtomAddS d a b z s)
  | .atomFaddS d a b | .atomFmaxS d a b | .atomFminS d a b => hold 13 (execAtomFaddS d a b s)
  | .atomAddG d a b z | .atomMinG d a b z | .atomMaxG d a b z | .atomMinuG d a b z | .atomMaxuG d a b z | .atomAndG d a b z
  | .atomOrG d a b z | .atomXorG d a b z | .atomExchG d a b z | .atomCasG d a b z => hold 13 (execAtomAddG d a b z s)
  | .atomFaddG d a b | .atomFmaxG d a b | .atomFminG d a b => hold 13 (execAtomFaddG d a b s)
  | .ext x => hold 14 (execExt x s)
  | i => if t.interlocked i then some 6 else none

/-- The same for the word at pc: the rest of a block, an instruction past its instant, or what a fetch finds. -/
def State.scalarReason (s : State) : Option Nat :=
  let t := s.team
  let s := s.setTeam { t with came := none }
  if !t.stands then none
  else match t.lidx, t.lhdr, t.going with
    | some _, some _, _ => if laneQueueSize ≤ t.laneq.length then some 4 else none
    | _, _, some w => s.holdReason (decodeScalar w.toNat)
    | _, _, none => match s.fetchAt t t.pc.toNat 4 with
      | .waits _ => some 14
      | .word w => s.holdReason (decodeScalar w)
      | _ => none

/-- The head of the lane queue waits for a token of 63 or for a place in the sequencer. -/
def State.tokWait (s : State) (t : Team) : Bool :=
  match t.laneq with
  | [] => false
  | e :: _ => t.tokenFull (lanePost e.word.toNat) || (fld e.word.toNat 92 4 == 0xA && decide (16 ≤ (s.sequencer t.gq).length))

/-- A crewed command of the team waits for arrivals, and the head of its lane queue waits behind it. -/
def State.crewWait (s : State) (id : Nat) (t : Team) : Bool :=
  ((s.sequencer t.gq).any fun c => c.team == id && c.crewN.isSome && c.arrived && !c.started) && s.tokWait t

/-- A quiesce holds fabric accesses, and the head of the lane queue is an access to a G-address (R456). -/
def State.laneFabricHeld (s : State) (t : Team) : Bool :=
  s.fabricHold && !decide (s.cycle < t.laneFree) && match t.laneq with
    | [] => false
    | e :: _ => (laneOps e.word.toNat).any fun o => (o.cls == 8 || o.cls == 9) && o.f.modF 5 1 == 1

/-- REASON of a team that issued nothing. -/
def State.reason (s : State) (id : Nat) (t : Team) : Nat :=
  let r := ({ s with cur := id } : State).scalarReason
  if t.halted then 15
  else if t.park.isSome then 11
  else if t.barWait.isSome || r == some 8 then 8
  else if s.crewWait id t then 9
  else if r == some 3 then 3
  else if r == some 10 then 10
  else if t.suspended then 5
  else if r == some 4 then 4
  else if s.tokWait t then 7
  else if r == some 6 then 6
  else if r == some 12 || (t.sdq.any fun w => w.departed && s.forwarderFull w.keys) then 12
  else if t.scalarPending || r == some 13 || s.laneFabricHeld t then 13
  else if r == some 14 then 14
  else if !t.laneq.isEmpty && decide (s.cycle < t.laneFree) then 2
  else 1

/-- The next resident slot after the one last picked, wrapping round (R428). -/
def nextSlot (slots : List Nat) (last : Option Nat) : Option Nat :=
  let from' := match last with | some l => l + 1 | none => 0
  (((List.range 16).map fun i => (from' + i) % 16).find? slots.contains)

/-- A sample record (R429): of a scalar instruction that issued in the sampled cycle, its address. -/
def State.sample (s : State) (id : Nat) (at' dt : Nat) : List Byte :=
  let t := s.shownTeam id
  let issued := decide (at' < t.lastIssue)
  let pc := if t.lastPc.1 = at' + 1 then t.lastPc.2 else t.pc
  leBytes 16 (bit t.pstat.inh 63 + t.pstat.tag.toNat * 2 ^ 47 + t.slot * 2 ^ 43 + bit issued 42
    + (if issued then 0 else s.reason id t) * 2 ^ 37 + fld pc.toNat 2 37 + (t.seqctr.toNat * 2 ^ 32 + dt % 2 ^ 32) * 2 ^ 64)

/-- ROLL_CALL_SAMPLE of quarter `unit`, when a sample is due. -/
def execRollCallSample (s : State) : Out :=
  .next <|
    let core := s.unit / 4
    let q := s.unit % 4
    let d := s.dbg core
    let x := d.sampler q
    let dt := (x.taken + 1) * x.n.toNat
    if !x.en ∨ s.cycle < x.from0 + dt then s
    else
      let here := (s.teams.filter fun t => t.2.life == .resident && t.2.core == core && t.2.quarter == q)
      match nextSlot (here.map fun t => t.2.slot) x.last with
      | none => s.putDbg core (d.setSampler q { x with taken := x.taken + 1 })
      | some slot =>
        let x := { x with taken := x.taken + 1, last := some slot }
        match here.find? fun t => t.2.slot == slot with
        | none => s
        | some (id, t) =>
          if !s.sees d.rc.owner t.pstat.tag then s.putDbg core (d.setSampler q x)
          else
            let r := x.ring.push 16
            let bs := s.sample id (x.from0 + dt) dt
            let s := s.putDbg core (d.setSampler q { x with ring := r.1 })
            match r.2 with
            | some a => s.perform ((keysFrom a 16).zip bs) true
            | none => s.countEvent core t.pstat.tag 8 1

end Sys2Proof.Machine
end

