-- ==== Sys2Proof/Machine/Fabric.lean ====
section
/-!
DEFINITION. Machine/Fabric.lean: links (R447, R452), partitions (R450) and the quiesce (R455 to R459).
-/

namespace Sys2Proof.Machine

/-! ### Links (R447, R452, R454) -/

def State.link (s : State) (n : Nat) : Link := Store.get {} s.links n
def State.putLink (s : State) (n : Nat) (l : Link) : State := { s with links := Store.set {} s.links n l }

/-- The tags whose traffic a link carries: of writes and loads that are under way over it, of lines of the reduction buffers, and of
transfers that write over it. -/
def State.linkTags (s : State) (n : Nat) : List Nat :=
  let on (k : Nat) : Bool := onFabric k && s.linkOf k == some n
  let tag (id : Nat) : Nat := (s.teamAt id).pstat.tag.toNat
  let teams := s.teams.filter fun t =>
    (t.2.sdq.any fun w => w.departed && w.fabric.isSome && w.keys.any on) || t.2.pend.any fun p => p.far.any on
  teams.map (fun t => t.2.pstat.tag.toNat)
    ++ (s.redbuf.flatMap fun c => (c.2.filter fun l => l.sent && on (128 * l.line)).flatMap fun l => l.teams.map tag)
    ++ s.channels.filterMap fun c => c.2.run.bind fun r =>
      if r.started && r.lines.any (fun l => on (128 * l.1)) then some r.tag.toNat else none

/-- An error of a link: for the classing of R441, and of shared origin for the tags whose traffic it carries (R444, R445). -/
def State.noteLink (s : State) (n : Nat) : State := (s.noteUnit .link n).countTags (s.linkTags n) eShCorr 1

/-- FLIT_CRC_FAILURE of link `unit`: with `item` 0 of the flit that failed last, else of another one. The flit is sent again,
up to seven times; at the eighth failure the link is down. -/
def execFlitCrcFailure (s : State) : Out :=
  .next <|
    let l := s.link s.unit
    let fails := if s.item = 0 then l.fails + 1 else 1
    if 32 ≤ s.unit ∨ !l.up then s
    else
      let s := s.noteLink s.unit
      if 8 ≤ fails then s.putLink s.unit { l with up := false, fails := 0 }
      else s.putLink s.unit { l with fails := fails, retry := if l.retry = 0xFFFF#16 then l.retry else l.retry + 1 }

/-- LINK_UP of link `unit`; `item` is the identifier of the far end. -/
def execLinkUp (s : State) : Out :=
  .next <|
    if 32 ≤ s.unit then s
    else s.putLink s.unit { s.link s.unit with up := true, far := BitVec.ofNat 20 s.item, fails := 0 }

/-- LINK_GOES_DOWN of link `unit`. -/
def execLinkGoesDown (s : State) : Out :=
  .next <|
    if 32 ≤ s.unit ∨ !(s.link s.unit).up then s
    else (s.noteLink s.unit).putLink s.unit { s.link s.unit with up := false, fails := 0 }

/-- A link status register (R452). -/
def Link.status (l : Link) : Word := BitVec.ofNat 64 (bit l.up 63 + l.far.toNat * 2 ^ 20 + l.retry.toNat)

/-! ### Partitions (R450) -/

/-- PARTITION_JOIN: a device moves only while none of its teams is resident or Saved. The epochs of another partition are counted
anew. -/
def execPartitionJoin (partid : Nat) (s : State) : Out :=
  .next <|
    let id : Word := BitVec.ofNat 64 (2 ^ 63 + partid % 2 ^ 32)
    if s.teams.any fun t => t.2.life == .resident || t.2.life == .saved then s
    else if s.partid = id then s
    else { s with partid := id, quiesce := {}, fabricHold := false }

/-- A pool node to which the device is linked, whether or not a link to it is up (R449, R452). -/
def State.ownPool (s : State) (ident : Nat) : Bool := decide (0x80000 ≤ ident) && s.links.any fun l => l.2.far.toNat == ident

/-- The members whose loss concerns the device: without a partition, only its own linked pool nodes (R450). -/
def State.losses (s : State) (lost : List Nat) : List Nat := if s.partid.getLsbD 63 then lost else lost.filter s.ownPool

/-! ### Quiesce (R456 to R459) -/

/-- Offset of the notice in a runtime page. -/
def noticeAt : Nat := 0x0C00

/-- The notice in the runtime page of every tenant (R458). -/
def State.writeNotices (s : State) : State :=
  let q := s.quiesce
  let words := [q.lost.length % 2 ^ 32 * 2 ^ 32 + q.epoch % 2 ^ 32, 0, q.failed % 2 ^ 32 * 2 ^ 32 + q.dropped % 2 ^ 32]
  s.tenants.foldl (fun (s : State) t => match s.runtimePage t.1 with
    | none => s
    | some p =>
      let s := s.perform (words.zipIdx.flatMap fun w => spread (keysFrom (p + noticeAt + 8 * w.2) 8) w.1) true
      s.perform ((q.lost.take 16).zipIdx.flatMap fun x => spread (keysFrom (p + noticeAt + 0x20 + 4 * x.2) 4) (x.1 % 2 ^ 20)) true) s

/-- DEAD in every route to a lost member. -/
def State.markDead (s : State) (lost : List Nat) : State :=
  { s with routes := Store.setAll 0 s.routes ((s.routes.filter fun r =>
      r.1 % 2 == 0 && r.2.getLsbD 63 && lost.contains (fld r.2.toNat 32 20)).map fun r => (r.1, r.2 ||| BitVec.ofNat 64 (2 ^ 62))) }

/-- QUIESCE(E): a new epoch stops every team, or a further loss joins the one that is open. -/
def execQuiesce (epoch : Nat) (lost : List Nat) (s : State) : Out :=
  .next <|
    let q := s.quiesce
    let lost := s.losses lost
    if lost.isEmpty && !s.partid.getLsbD 63 then s
    else if q.active then
      if epoch ≠ q.epoch then s
      else
        let s := { s.markDead lost with quiesce := { q with lost := (q.lost ++ lost).eraseDups } }
        if q.stopped then s.writeNotices else s
    else if epoch ≤ q.epoch then s
    else
      let s := { s.markDead lost with quiesce := { epoch := epoch, active := true, lost := lost.eraseDups } }
      let s := s.teams.foldl (fun (s : State) t => s.deliverCause t.1 cCheckpoint (BitVec.ofNat 64 epoch)) s
      s.sendLines fun _ => true

/-- A team that is to take CHECKPOINT stands at its stopping point. -/
def Team.atStop (t : Team) : Bool :=
  t.life != .resident || t.pstat.inh || t.esc.isSome
    || (t.trapReq.isNone && !t.scalarPending && !t.pastPoint && (t.laneq.isEmpty || t.headPoint.isSome))

/-- A queued write that the directory holds until an engine has written its line (R114). -/
def State.directoryHolds (s : State) (id : Nat) (w : WriteOp) : Bool := w.departed && w.keys.any (s.recalledNow id w.id w.born)

/-- Every write that a team has sent has been performed (R457), every request over the fabric has been answered (R456), and no
reduction is left in a buffer; a line behind a drain that has not been reached comes after the drain. -/
def State.allPerformed (s : State) : Bool :=
  s.teams.all (fun t => t.2.pend.all (fun p => p.fabric.isEmpty) && t.2.sdq.all (s.directoryHolds t.1))
    && s.redbuf.all (fun r => r.2.isEmpty)
    && s.channels.all fun c => match c.2.run with
      | none => true
      | some r => !r.armed || r.lines.all fun l => s.lineHeld r l.1

/-- STOPPED(E), with E in `unit`: the device reports DRAINED when its teams have stopped and what they sent has been performed, so
that the notices stand and fabric accesses are held from now on; then the teams enter. -/
def execStopped (s : State) : Out :=
  .next <|
    let q := s.quiesce
    if !q.active ∨ q.stopped ∨ q.epoch ≠ s.unit then s
    else if !s.allPerformed then s.sendLines fun _ => true
    else if !(s.teams.all fun t => t.2.atStop) then s
    else { s with quiesce := { q with stopped := true }, fabricHold := true }.writeNotices

/-- RESUME(E), with E in `unit`: held accesses go on, and RESUMED stands in every notice. -/
def execFabricResume (s : State) : Out :=
  .next <|
    let q := s.quiesce
    if !q.active ∨ !q.stopped ∨ q.epoch ≠ s.unit then s
    else
      let s := { s with quiesce := { q with active := false, stopped := false }, fabricHold := false }
      s.tenants.foldl (fun (s : State) t => match s.runtimePage t.1 with
        | none => s
        | some p => s.putWord (p + noticeAt + 8) 1) s

end Sys2Proof.Machine
end

