-- ==== Sys2Proof/Machine/LaneMem.lean ====
section
/-!
DEFINITION. Machine/LaneMem.lean: lane loads, stores, prefetches, atomics and no-return reductions (classes 0x8 and 0x9;
R248 to R258).
-/

namespace Sys2Proof.Machine

/-! ### Addresses (R249) -/

/-- The element size in bytes (R248). -/
def LaneOp.size (o : LaneOp) : Nat := if tyIsBlock o.ty then LaneOp.recSize o.ty else tyBits o.ty / 8
def LaneOp.isG (o : LaneOp) : Bool := o.f.modF 5 1 == 1
/-- OFF, signed. -/
def LaneOp.off (o : LaneOp) : Int := sext (o.f.immF 20 12) 12

/-- base(A) of R249. -/
def Ctx.base (c : Ctx) (cyc l : Nat) : Nat := c.src c.o.f.a (if isCap c.o.f.a || c.o.isG then 0xC else 0xB) cyc l
/-- index(B) of R249. -/
def Ctx.index (c : Ctx) (cyc l : Nat) : Int :=
  if c.o.f.b.toNat = 0xEC then 0 else sext (c.src c.o.f.b 0xB cyc l) 32

/-- The address of a lane in class 0x8. -/
def Ctx.addr8 (c : Ctx) (cyc l : Nat) : Nat :=
  wrapTo ((c.base cyc l : Int) + c.index cyc l * (if c.o.f.modF 1 2 = 1 then (c.o.size : Int) else 1) + c.o.off) 64
/-- The address of a lane in class 0x9. -/
def Ctx.addr9 (c : Ctx) (cyc l : Nat) : Nat := wrapTo ((c.base cyc l : Int) + c.o.off) 64

/-! ### The accesses of an instruction -/

/-- One access: its lane, its warp and cycle, its address, and what its checks found. -/
structure LaneAcc where
  lane : Nat
  pass : Pass
  addr : Nat
  chk  : Checked

/-- The lanes that give addresses: every active lane, or the lowest of each warp for a record (R253). -/
def LaneOp.addrLanes (o : LaneOp) (p : Pass) : List Nat := if tyIsBlock o.ty then p.lanes.take 1 else p.lanes

/-- The lanes of a warp that hold the data. -/
def LaneOp.dataLanes (o : LaneOp) (p : Pass) : List Nat := if tyIsBlock o.ty then imageLanes o.ty p.warp else p.lanes

/-- Class 0x8's accesses; an unscaled index that is no whole number of records fails BLOCK (R253). -/
def Ctx.accesses (c : Ctx) (need : Nat) (ps : List Pass) : List LaneAcc :=
  ps.flatMap fun p => (c.o.addrLanes p).map fun l =>
    let a := c.addr8 p.cyc l
    let k := c.s.check c.t c.o.isG need l a c.o.size
    let bad := tyIsBlock c.o.ty && c.o.f.modF 1 2 == 0 && c.index p.cyc l % (c.o.size : Int) != 0
    ⟨l, p, a, if bad then { k with fails := ⟨cBlock, l, a, a⟩ :: k.fails } else k⟩

/-- Class 0x9's accesses: natural alignment (R97, R255). -/
def Ctx.accesses9 (c : Ctx) (ps : List Pass) : List LaneAcc :=
  let n := if tyBits c.o.ty = 64 then 8 else 4
  ps.flatMap fun p => p.lanes.map fun l =>
    let a := c.addr9 p.cyc l
    let k := c.s.check c.t c.o.isG needRW l a n
    ⟨l, p, a, if a % n ≠ 0 ∧ k.window = false then { k with fails := ⟨cAlign, l, a, a⟩ :: k.fails } else k⟩

/-- The trap of an instruction whose checks failed (R92, R303). -/
def State.accTrap (s : State) (e : LaneEntry) (accs : List LaneAcc) : Option State :=
  let fails := accs.flatMap fun a => a.chk.fails
  (worst fails).map fun f => s.trapLane e f.cause (BitVec.ofNat 64 f.addr) (vecFor f fails)

/-- Lanes whose access crosses the fabric, with the address; and of these the ones that fail at once (R454). -/
def fabricLanes (accs : List LaneAcc) : List (Nat × Word) :=
  (accs.filter fun a => a.chk.keys.any onFabric).map fun a => (a.lane, BitVec.ofNat 64 a.addr)
def State.lostLanes (s : State) (accs : List LaneAcc) : List (Nat × Word) :=
  (accs.filter fun a => a.chk.keys.any s.unreachable).map fun a => (a.lane, BitVec.ofNat 64 a.addr)

/-- Which lanes an instruction of these classes reads through an operand code: address lanes, and data lanes of D. -/
def memReads (c : Ctx) (code : BitVec 8) (p : Pass) : List Nat :=
  (if code = c.o.f.a ∨ code = c.o.f.b then (if c.o.cls = 8 then c.o.addrLanes p else p.lanes) else [])
    ++ (if code = c.o.f.d then (if c.o.cls = 8 then c.o.dataLanes p else p.lanes) else [])

/-! ### Class 0x8 -/

/-- A loaded element as D receives it (R251). -/
def extendLoad (ty x : Nat) : Nat := if ty = 5 then wrapTo (sext x 8) 32 else if ty = 6 then wrapTo (sext x 16) 32 else x

/-- The register writes of one access of a load. -/
def Ctx.loadRegs (c : Ctx) (a : LaneAcc) : List (Nat × Lane32) :=
  let x := c.s.load c.t a.chk.keys
  if tyIsBlock c.o.ty then (c.putImage c.o.ty a.pass.warp x).regs
  else putRegs c.o.f.d.toNat a.lane (extendLoad c.o.ty x) c.o.width

def execLaneLd (f : LaneFields) (s : State) : Out :=
  .next <|
    match s.beginLane (.laneLd f) ⟨8, 0x00, f⟩ false memReads (fun c => c.o.dataLanes) with
    | .error s' => s'
    | .ok (c, ps) =>
      let accs := c.accesses needR ps
      match s.accTrap c.e accs with
      | some s' => s'
      | none =>
        if accs.any fun a => s.mustWait c.t a.chk.keys then s.sendTouched s.cur (accs.flatMap fun a => a.chk.keys)
        else
          let lost := s.lostLanes accs
          let hit := accs.filter fun a => s.loadPoisoned c.t a.chk.keys
          let bad := hit.map fun a => a.pass.warp
          let good := accs.filter fun a => !(lost.any fun x => x.1 == a.lane) && !bad.contains a.pass.warp
          let q : Pend := { id := c.t.nextOp, kind := .load, seq := c.e.seq, pc := c.e.pc, tok := lanePost (encode (.laneLd f)),
                            names := c.o.names, born := s.ticks, regs := good.flatMap c.loadRegs, kills := bad.eraseDups,
                            fabric := fabricLanes good, far := (good.flatMap fun a => a.chk.keys).filter onFabric,
                            sources := good.map fun a => ((c.loadRegs a).map Prod.fst, a.chk.keys, c.o.ty),
                            cancel := !lost.isEmpty }
          let t := if ps.isEmpty then c.t else ((c.t.addPend s.free c.o.layout (passCycle s.cycle ps) q).newOp).postOpt q.tok
          let t := { t with async := t.async ++ lost.map fun x => (cFabric, x.2) }
          (s.endLane t ps.length f.stall.toNat).checkTags (hit.flatMap fun a => a.chk.keys)

/-- The bytes of one access of a store. -/
def Ctx.storeBytes (c : Ctx) (a : LaneAcc) : List (Nat × Byte) :=
  spread a.chk.keys
    (if tyIsBlock c.o.ty then c.image c.o.ty c.o.f.d.toNat a.pass.warp a.pass.cyc
     else c.regs (tyBits c.o.ty) a.pass.cyc c.o.f.d.toNat a.lane c.o.width)

/-- ORDER names a release (R101): its scope. -/
def LaneOp.release (o : LaneOp) : Option Nat := if 2 ≤ o.f.ord then some (o.f.immF 16 4) else none

/-- ORDER of a returning atomic names an acquire (R101, R105). -/
def LaneOp.acquires (o : LaneOp) : Bool := o.f.ord % 2 == 1

/-- The operation that a store, reduction or prefetch leaves outstanding, with a token or without one: scalar instructions
wait for its mask (R40) until it is complete. -/
def Ctx.posted (c : Ctx) (tok : Option Nat) (kind : OpKind) : Pend :=
  { id := c.t.nextOp, kind := kind, seq := c.e.seq, pc := c.e.pc, tok := tok, names := c.o.names, born := c.s.ticks }

/-- The team with that operation outstanding and its token posted. -/
def Ctx.outstanding (c : Ctx) (ps : List Pass) (tok : Option Nat) (kind : OpKind) : Team :=
  ((c.t.addPend c.s.free c.o.layout (passCycle c.s.cycle ps) (c.posted tok kind)).newOp).postOpt tok

/-- `st`. Where lanes write one byte, each of them writes there what the lane writes that is taken for it (R95); each access stays one
access, so that none cures a sector that it does not cover alone (R440). -/
def execLaneSt (f : LaneFields) (s : State) : Out :=
  .next <|
    match s.beginLane (.laneSt f) ⟨8, 0x01, f⟩ false memReads (fun _ _ => []) with
    | .error s' => s'
    | .ok (c, ps) =>
      let accs := c.accesses needW ps
      match s.accTrap c.e accs with
      | some s' => s'
      | none =>
        if s.fabricHeld (accs.flatMap fun a => a.chk.keys) then s
        else
        let bs := accs.flatMap c.storeBytes
        let parts :=
          if (bs.map Prod.fst).Nodup then accs.flatMap fun a => storeParts a.addr (c.storeBytes a)
          else
            let won := oneWriter s.free bs
            accs.flatMap fun a => storeParts a.addr ((c.storeBytes a).map fun b =>
              (b.1, ((won.find? fun x => x.1 == b.1).map Prod.snd).getD b.2))
        let tok := lanePost (encode (.laneSt f))
        let t := if ps.isEmpty then c.t
          else (c.outstanding ps tok .store).addWrites c.t.nextOp s.cycle c.o.release parts
        let t := t.noteStale s c.o.isG (bs.map Prod.fst)
        s.endLane t ps.length f.stall.toNat

def execLanePref (f : LaneFields) (s : State) : Out :=
  .next <|
    match s.beginLane (.lanePref f) ⟨8, 0x02, f⟩ false memReads (fun _ _ => []) with
    | .error s' => s'
    | .ok (c, ps) =>
      let accs := c.accesses needR ps
      match s.accTrap c.e accs with
      | some s' => s'
      | none =>
        if s.fabricHeld (accs.flatMap fun a => a.chk.keys) then s
        else
        let t := if ps.isEmpty then c.t else c.outstanding ps (lanePost (encode (.lanePref f))) .prefetch
        s.endLane t ps.length f.stall.toNat

/-! ### Class 0x9 -/

/-- How the elements of an instruction combine: its type, modifiers and the arguments of its random bits. -/
def Ctx.rmwMode (c : Ctx) (op : RmwOp) : RmwMode :=
  { op := op, ty := c.o.f.ty, ab := c.o.f.modF 2 1 == 1, sat := c.o.sat,
    rnd := BitVec.ofNat 3 (resolveRnd c.o.f.rnd.toNat c.e.fmt), seed := c.e.seed, ctr := c.e.ctr,
    str := bfld c.e.fmt.toNat 14 4 }

/-- The read-modify-write of one lane; `cas` compares with D (R255). -/
def Ctx.rmw (c : Ctx) (op : RmwOp) (a : LaneAcc) : Rmw :=
  { mode := c.rmwMode op, lane := a.lane, key := a.chk.keys.headD 0, size := if tyBits c.o.ty = 64 then 8 else 4,
    val := BitVec.ofNat 64 (c.src c.o.f.b c.o.ty a.pass.cyc a.lane),
    cmp := if op = .cas then BitVec.ofNat 64 (c.regs (tyBits c.o.ty) a.pass.cyc c.o.f.d.toNat a.lane c.o.width) else 0 }

/-- The address on the fabric of an element, if it crosses it. -/
def fabricOf (accs : List LaneAcc) (o : Rmw) : Option Word :=
  if onFabric o.key then (accs.find? fun a => a.lane == o.lane).map fun a => BitVec.ofNat 64 a.addr else none

/-- A returning atomic (R255): its old values arrive when its elements have been performed. -/
def State.laneAtomic (s : State) (i : Instr) (opc : Nat) (f : LaneFields) (op : RmwOp) : State :=
  match s.beginLane i ⟨9, opc, f⟩ false memReads (fun _ p => p.lanes) with
  | .error s' => s'
  | .ok (c, ps) =>
    let accs := c.accesses9 ps
    match s.accTrap c.e accs with
    | some s' => s'
    | none =>
      if s.fabricHeld (accs.flatMap fun a => a.chk.keys) then s
      else
      let tok := lanePost (encode i)
      let lost := s.lostLanes accs
      let good := accs.filter fun a => !(lost.any fun x => x.1 == a.lane)
      let q := c.posted tok .atomic
      let q := { q with cancel := !lost.isEmpty,
                        awaits := good.flatMap fun a => (List.range c.o.width).map fun r => vKey (f.d.toNat + r) a.lane }
      let t := if ps.isEmpty then c.t
        else (((c.t.addPend s.free c.o.layout (passCycle s.cycle ps) q).newOp).postOpt tok).addWrites c.t.nextOp s.cycle c.o.release
          ((unordered s.free (good.map (c.rmw op))).map fun o => (.atomic o, fabricOf good o)) c.o.acquires
      let t := { t with async := t.async ++ lost.map fun x => (cFabric, x.2) }
      s.endLane t ps.length f.stall.toNat

/-- A no-return reduction (R258): to an S-address it is performed at the bank, to a G-address through the buffer. DESIGN CHOICE
(log entry 69, unsafe): both wait 64 cycles in the store-delay queue, as R122 says of every reduction, where R120 and R258 say
that one to an S-address is performed when it issues. -/
def State.laneReduction (s : State) (i : Instr) (opc : Nat) (f : LaneFields) (op : RmwOp) : State :=
  match s.beginLane i ⟨9, opc, f⟩ false memReads (fun _ _ => []) with
  | .error s' => s'
  | .ok (c, ps) =>
    let accs := c.accesses9 ps
    match s.accTrap c.e accs with
    | some s' => s'
    | none =>
      if s.fabricHeld (accs.flatMap fun a => a.chk.keys) then s
      else
      let ws := (unordered s.free (accs.map (c.rmw op))).map fun o => (WriteWhat.reduction o c.o.isG, fabricOf accs o)
      let t := if ps.isEmpty then c.t
        else (c.outstanding ps (lanePost (encode i)) .store).addWrites c.t.nextOp s.cycle c.o.release ws
      s.endLane t ps.length f.stall.toNat

def execLaneAtomAdd (f : LaneFields) (s : State) : Out := .next (s.laneAtomic (.laneAtomAdd f) 0x00 f .add)
def execLaneAtomMin (f : LaneFields) (s : State) : Out := .next (s.laneAtomic (.laneAtomMin f) 0x01 f .min)
def execLaneAtomMax (f : LaneFields) (s : State) : Out := .next (s.laneAtomic (.laneAtomMax f) 0x02 f .max)
def execLaneAtomAnd (f : LaneFields) (s : State) : Out := .next (s.laneAtomic (.laneAtomAnd f) 0x03 f .and)
def execLaneAtomOr (f : LaneFields) (s : State) : Out := .next (s.laneAtomic (.laneAtomOr f) 0x04 f .or)
def execLaneAtomXor (f : LaneFields) (s : State) : Out := .next (s.laneAtomic (.laneAtomXor f) 0x05 f .xor)
def execLaneAtomExch (f : LaneFields) (s : State) : Out := .next (s.laneAtomic (.laneAtomExch f) 0x06 f .exch)
def execLaneAtomCas (f : LaneFields) (s : State) : Out := .next (s.laneAtomic (.laneAtomCas f) 0x07 f .cas)
def execLaneAtomFadd (f : LaneFields) (s : State) : Out := .next (s.laneAtomic (.laneAtomFadd f) 0x08 f .fadd)
def execLaneAtomFmax (f : LaneFields) (s : State) : Out := .next (s.laneAtomic (.laneAtomFmax f) 0x09 f .fmax)
def execLaneAtomFmin (f : LaneFields) (s : State) : Out := .next (s.laneAtomic (.laneAtomFmin f) 0x0A f .fmin)
def execLaneRedAdd (f : LaneFields) (s : State) : Out := .next (s.laneReduction (.laneRedAdd f) 0x10 f .add)
def execLaneRedMin (f : LaneFields) (s : State) : Out := .next (s.laneReduction (.laneRedMin f) 0x11 f .min)
def execLaneRedMax (f : LaneFields) (s : State) : Out := .next (s.laneReduction (.laneRedMax f) 0x12 f .max)
def execLaneRedAnd (f : LaneFields) (s : State) : Out := .next (s.laneReduction (.laneRedAnd f) 0x13 f .and)
def execLaneRedOr (f : LaneFields) (s : State) : Out := .next (s.laneReduction (.laneRedOr f) 0x14 f .or)
def execLaneRedXor (f : LaneFields) (s : State) : Out := .next (s.laneReduction (.laneRedXor f) 0x15 f .xor)
def execLaneRedFadd (f : LaneFields) (s : State) : Out := .next (s.laneReduction (.laneRedFadd f) 0x18 f .fadd)
def execLaneRedFmax (f : LaneFields) (s : State) : Out := .next (s.laneReduction (.laneRedFmax f) 0x19 f .fmax)
def execLaneRedFmin (f : LaneFields) (s : State) : Out := .next (s.laneReduction (.laneRedFmin f) 0x1A f .fmin)

end Sys2Proof.Machine
end

