-- ==== Sys2Proof/Machine/LaneRed.lean ====
section
/-!
DEFINITION. Machine/LaneRed.lean: warp and team reductions (R78 to R81, R218 to R221).
-/

namespace Sys2Proof.Machine

/-- The modifiers of a reduction with the arguments of its random bits (R221). -/
structure RedMode where
  fn   : Nat
  ty   : Nat
  ab   : Bool
  sat  : Bool
  rnd  : Nat
  fmt  : Word
  seed : Word
  ctr  : Word

/-- The combining function of R219 on present elements; `lane` and `el` are the arguments of R221. -/
def RedMode.op (m : RedMode) (lane el x y : Nat) : Nat :=
  if m.fn = 3 then x &&& y
  else if m.fn = 4 then x ||| y
  else if m.fn = 5 then x ^^^ y
  else if tyIsFloat m.ty then
    let f := fmtOf m.ty m.fmt
    if m.fn = 0 then
      let rnd := rndMode m.rnd (if m.rnd = 5 then srBits m.seed m.ctr (fld m.fmt.toNat 14 4) lane el else 0)
      (f.ofVal rnd m.sat (FVal.add rnd (f.decode x) (f.decode y))).code
    else f.minMax (decide (m.fn = 2)) x y
  else
    let a := intVal m.ty x
    let b := intVal m.ty y
    if m.fn = 0 then intFit m.ty m.sat m.ab (a + b) else intFit m.ty false false (if m.fn = 1 then min a b else max a b)

/-- A value that is present: none for ABSENT (R78). -/
def RedMode.present (m : RedMode) (x : Nat) : Option Nat :=
  if tyIsFloat m.ty then (if (fmtOf m.ty m.fmt).decode x = .absent then none else some x)
  else if m.ab && x == intAb m.ty then none else some x

/-- R78: ABSENT is the identity, an intermediate result that is the ABSENT code included. -/
def RedMode.comb (m : RedMode) (lane el : Nat) : Option Nat → Option Nat → Option Nat
  | none, y => y
  | x, none => x
  | some x, some y => m.present (m.op lane el x y)

/-- One step of the butterfly of R80. -/
def RedMode.level (m : RedMode) (w e s : Nat) (t : List (Option Nat)) : List (Option Nat) :=
  let d := 2 ^ (4 - s)
  (List.range 32).map fun l =>
    m.comb (32 * w + (l - (if l / d % 2 = 1 then d else 0))) (2 * s + e) (t.getD l none) (t.getD (l ^^^ d) none)

/-- The result of a warp for element `e`. -/
def RedMode.warp (m : RedMode) (w e : Nat) (t : List (Option Nat)) : Option Nat :=
  ((List.range 5).foldl (fun t s => m.level w e s t) t).getD 0 none

/-- One level of R81: pairs of warp results, each with the lowest warp it contains. -/
def RedMode.pairs (m : RedMode) (g e : Nat) : List (Nat × Option Nat) → List (Nat × Option Nat)
  | x :: y :: rest => (x.1, m.comb (32 * x.1) (10 + 2 * g + e) x.2 y.2) :: RedMode.pairs m g e rest
  | xs => xs

/-- R81. -/
def RedMode.team (m : RedMode) (e : Nat) (l : List (Nat × Option Nat)) : Option Nat :=
  match (List.range 5).foldl (fun l g => m.pairs g e l) l with
  | [] => none
  | x :: _ => x.2

def RedMode.absent (m : RedMode) : Nat := if tyIsFloat m.ty then (fmtOf m.ty m.fmt).absent else intAb m.ty

/-- Element e of the lanes of a warp that take part. -/
def RedMode.inputs (m : RedMode) (c : Ctx) (p : Pass) (e : Nat) : List (Option Nat) :=
  (warpLanes p.warp).map fun l =>
    if p.lanes.contains l then m.present (elem (c.srcA p.cyc l) e (tyBits m.ty)) else none

/-- The results and the counts, element by element, that one pass writes. -/
def RedMode.results (m : RedMode) (c : Ctx) (whole : Bool) (ps : List Pass) (p : Pass) : List (Nat × Nat) :=
  (List.range (tyElems m.ty)).map fun e =>
    let group := if whole then ps else [p]
    let ins := group.map fun q => (q.warp, m.inputs c q e)
    let r := m.team e (ins.map fun x => (x.1, m.warp x.1 e x.2))
    (r.getD m.absent, (ins.map fun x => (x.2.filter Option.isSome).length).sum)

/-- The register writes of one lane: the result, and under `.cnt` the counts after it (R220). -/
def redRegs (c : Ctx) (l : Nat) (rs : List (Nat × Nat)) : List (Nat × Lane32) :=
  let d := c.o.f.d.toNat
  putRegs d l (packElems (tyBits c.o.ty) (rs.map Prod.fst)) c.o.width
    ++ (if c.o.f.modF 4 1 = 1 then [(vKey (d + c.o.width) l, BitVec.ofNat 32 (packElems 16 (rs.map Prod.snd)))] else [])

/-- `wred`, and `tred` with `whole`. -/
def State.laneReduce (s : State) (i : Instr) (opc : Nat) (f : LaneFields) (whole : Bool) : State :=
  match s.beginLane i ⟨7, opc, f⟩ false (fun _ _ p => p.lanes) (fun _ p => p.lanes) with
  | .error s' => s'
  | .ok (c, ps) =>
    let q := s.consumeAll c.t c.o (ps.flatMap Pass.lanes)
    match worst q.fails with
    | some x => s.trapLane c.e x.cause (BitVec.ofNat 64 x.addr) (vecFor x q.fails)
    | none =>
      let m : RedMode :=
        { fn := f.modF 0 4, ty := f.t, ab := f.modF 5 1 == 1, sat := c.o.sat, rnd := resolveRnd f.rnd.toNat c.e.fmt,
          fmt := c.e.fmt, seed := c.e.seed, ctr := c.e.ctr }
      let live := ps.filter fun p => !q.poison.contains p.warp
      let gone := q.lost.map Prod.fst
      let live := live.map fun p => { p with lanes := p.lanes.filter fun l => !gone.contains l }
      let regs := live.flatMap fun p =>
        let rs := m.results c whole live p
        p.lanes.flatMap fun l => redRegs c l rs
      let tok := lanePost (encode i)
      let t := if live.isEmpty then c.t
        else ((c.t.addPend s.free c.o.layout (passCycle s.cycle ps)
          { id := c.t.nextOp, kind := .reduce, seq := c.e.seq, pc := c.e.pc, tok := tok, names := c.o.names,
            regs := regs, cancel := !q.lost.isEmpty }).newOp).postOpt tok
      let t := { (t.advanceSlots c.o) with async := t.async ++ q.lost.map fun a => (cFabric, a.2) }
      (q.poison.foldl (fun s w => s.killWarp s.cur w) (s.endLane t ps.length f.stall.toNat)).checkTags q.bad

def execLaneWred (f : LaneFields) (s : State) : Out := .next (s.laneReduce (.laneWred f) 0x02 f false)
def execLaneTred (f : LaneFields) (s : State) : Out := .next (s.laneReduce (.laneTred f) 0x03 f true)

end Sys2Proof.Machine
end

