-- ==== Sys2Proof/Machine/Reliab.lean ====
section
/-!
DEFINITION. Machine/Reliab.lean: strikes (R434 to R437), errors in storage (R438 to R440), the self-test and the retirement of
units (R441, R442), lifetime records (R443) and error blocks (R444, R445).
-/

namespace Sys2Proof.Machine

/-! ### Counting -/

/-- The teams that are resident on a quarter. -/
def State.teamsOn (s : State) (gq : Nat) : List Nat :=
  (s.teams.filter fun t => t.2.life == .resident && t.2.gq == gq).map Prod.fst

/-- Ticks in 1 ms and in 24 hours. -/
def tick1ms : Nat := 4000000
def tick24h : Nat := 24 * 3600 * 4000000000

/-! ### Strikes (R434 to R436) -/

/-- A team whose quarter starts to replay 65 cycles of work: `old` is the team at the rollback point. What it waits for comes 65 cycles
later, and queue entries younger than the point are discarded and entered again (R435). -/
def Team.postpone (t old : Team) (cycle : Nat) : Team :=
  let later (x : Nat) : Nat := if cycle < x then x + 65 else x
  { t with
    laneFree := later t.laneFree
    drainedAt := t.drainedAt.map later
    pend := t.pend.map fun p => { p with ready := later p.ready }
    sdq := t.sdq.map fun w => if w.departed || (old.sdq.any fun x => x.id == w.id) then w else { w with born := w.born + 65 } }

/-- A quarter begins to replay. Its state goes back to the rollback point, 64 cycles ago, as its undo logs hold it, and every change
since then is produced again, 65 cycles after it was first made: `shownTeam` and `shownTile` say what the quarter holds meanwhile, and
the entries of the teams and tiles hold what the replay ends with. A load that was issued after the point and is still outstanding
reads memory again. DEDUCED (log entry 52): a load that has been delivered keeps the value that it read first. -/
def State.startReplay (s : State) (gq : Nat) : State :=
  let frames := (s.undo.filter fun u => decide (s.cycle < u.cycle + 64)).reverse
  let old (id : Nat) : Team := ((frames.head?).map fun u => Store.get {} u.teams id).getD {}
  let ids := s.teamsOn gq
  let loads := ids.flatMap fun id =>
    ((s.teamAt id).pend.filter fun p => p.kind == .load && !((old id).op? p.id).isSome).map fun p => (id, p.id)
  let r : Replay := { till := s.cycle + 66, frames := frames, loads := loads }
  let pipe (ps : List (Nat × Pipe)) (n : Nat) : List (Nat × Pipe) :=
    let x : Pipe := Store.get {} ps n
    Store.set {} ps n { x with free := if s.cycle < x.free then x.free + 65 else x.free }
  let s := ids.foldl (fun (s : State) id => s.modTeam id fun t => t.postpone (old id) s.cycle) s
  { s with replays := (gq, r) :: s.replays.filter (fun x => x.1 != gq), pipes := pipe (pipe s.pipes (2 * gq)) (2 * gq + 1) }

/-- A strike rolls a quarter back (R435). One that replays already shows the state of the new strike's rollback point: it goes on from
there (R436). The eighth rollback within 1 ms stops the quarter. -/
def State.rollback (s : State) (gq : Nat) : State :=
  let ts := (s.teamsOn gq).map fun id => (s.teamAt id).pstat.tag.toNat
  let s := ((s.noteError .quarter gq 1).countLife .quarter gq 0 1).countTags ts eCorr 1
  let near := ((Store.get [] s.rollbacks gq).filter fun x => decide (s.ticks < x + tick1ms)) ++ [s.ticks]
  let s := { s with rollbacks := Store.set [] s.rollbacks gq near,
                    held := if 8 ≤ near.length then Store.set false s.held gq true else s.held }
  if s.replaying gq then s else s.startReplay gq

/-- A load reads memory again, as one issued now; one that would be held keeps what it read first. -/
def State.reread (s : State) (id op : Nat) : State :=
  let t := s.teamAt id
  let before : Team := { t with sdq := t.sdq.filter fun w => decide (w.id < op) }
  let s' := { s with cur := id }
  match t.op? op with
  | none => s
  | some p =>
    let xs := p.sources.filter fun x => !s'.mustWait before x.2.1
    let new := xs.flatMap fun x =>
      let v := extendLoad x.2.2 (s'.load before x.2.1)
      x.1.zipIdx.map fun k => (k.1, (BitVec.ofNat 32 (v / 2 ^ (32 * k.2)) : Lane32))
    let regs := p.regs.map fun r => (r.1, ((new.find? fun y => y.1 == r.1).map Prod.snd).getD r.2)
    let bad := xs.filter fun x => s'.loadPoisoned before x.2.1
    let kills := p.kills ++ bad.flatMap fun x => x.1.map fun k => k % 1024 / 32
    (s.putTeam id (t.setOp { p with regs := regs, kills := kills.eraseDups })).checkTags (bad.flatMap fun x => x.2.1)

/-- Replays that are over. -/
def State.endReplays (s : State) : State :=
  let done := s.replays.filter fun x => decide (x.2.till ≤ s.cycle)
  done.foldl (fun (s : State) x => x.2.loads.foldl (fun (s : State) l => s.reread l.1 l.2) s)
    { s with replays := s.replays.filter fun x => decide (s.cycle < x.2.till) }

/-- The undo logs take in the state at the start of a cycle; they reach 64 cycles back. -/
def State.logUndo (s : State) : State :=
  { s with undo := ({ cycle := s.cycle, teams := s.teams, tiles := s.tiles } :: s.undo).take 66 }

/-- STRIKE, with the quarters that the sensor covers: its own, or those of its core on whose boundary it lies, at most four (R434). -/
def execStrike (quarters : List Nat) (s : State) : Out :=
  .next <|
    let qs := (quarters.filter (· < 192)).eraseDups
    ((qs.filter fun q => q / 4 == qs.headD 0 / 4).take 4).foldl (fun (s : State) q => s.rollback q) s

/-! ### Errors in storage (R438, R439) -/

/-- The tags to which an error is attributed: those of the teams of a quarter, the owner of a bank, of the frame of a sector that a
memory channel holds (R444). -/
def State.attributed (s : State) (sector : Nat) : UnitClass → Nat → List Nat
  | .quarter, n => (s.teamsOn n).map fun id => (s.teamAt id).pstat.tag.toNat
  | .bank, n => [(s.owner 1 n).tag.toNat]
  | .channel, _ => [s.sectorTag sector]
  | _, _ => []

/-- Line-cache slices, routers, channels and links carry the traffic of many tags (R442, R444). -/
def sharedUnit : UnitClass → Bool
  | .quarter | .bank => false
  | _ => true

/-- A single-bit error is corrected and counted. -/
def State.correctError (s : State) (sector : Nat) (u : UnitClass) (n : Nat) (shared : List Nat) : State :=
  ((s.noteError u n 2).countTags (s.attributed sector u n) eCorr 1).countTags (if sharedUnit u then shared else []) eShCorr 1

/-- An uncorrectable error poisons the sector that holds it: the resource that holds the sector is its owner's (R444). -/
def State.spoilSector (s : State) (sector : Nat) (u : UnitClass) (n : Nat) (shared : List Nat) : State :=
  (((s.setPoison sector true).noteError u n 3).countTags [s.sectorTag sector] ePois 1).countTags
    (if sharedUnit u then shared else []) eShPois 1

/-- The parity of a count turns. -/
def Tile.flipParity (x : Tile) (n : Nat) : Tile :=
  { x with badPar := if x.badPar.contains n then x.badPar.filter (· != n) else x.badPar ++ [n] }

/-- Bits of a tile flip: element 0 to 2047 is a value, 2048 + r is CX and 2112 + r is CR of row r, and 2176 + n is the count of value n:
an odd number of bits of a count makes its parity wrong, or right again (R273). -/
def State.upsetTile (s : State) (i elem : Nat) (flip : BitVec 32) : State :=
  let x := s.tile i
  if elem < 2048 then s.putTile i { x with vals := Store.set 0 x.vals elem (Store.get 0 x.vals elem ^^^ flip) }
  else if elem < 2112 then s.putTile i { x with cx := Store.set 0 x.cx (elem - 2048) (Store.get 0 x.cx (elem - 2048) ^^^ flip) }
  else if elem < 2176 then s.putTile i { x with cr := Store.set 0 x.cr (elem - 2112) (Store.get 0 x.cr (elem - 2112) ^^^ flip) }
  else if elem < 4224 then
    let b : BitVec 16 := flip.setWidth 16
    let x' : Tile := { x with counts := Store.set 0 x.counts (elem - 2176) (Store.get 0 x.counts (elem - 2176) ^^^ b) }
    let odd := ((List.range 16).filter fun i => b.getLsbD i).length % 2 == 1
    s.putTile i (if odd then x'.flipParity (elem - 2176) else x')
  else s

/-- The parity of a count flips. -/
def State.upsetParity (s : State) (i elem : Nat) : State :=
  let x := s.tile i
  if 2048 ≤ elem then s
  else s.putTile i (x.flipParity elem)

/-! ### Self-test (R441, R442) -/

/-- P is set in a team, or in its whole crew (R319, R442). -/
def State.askCrew (s : State) (id : Nat) : State :=
  let t := s.teamAt id
  let mates := if t.crewed.isNone then [id] else
    (s.groupOf t).members.filter fun m => (s.teamAt m).crewed.isSome && (s.teamAt m).crew == t.crew
  mates.foldl (fun (s : State) m => s.setP m) s

/-- Requests for what management wants of a tag are posted, six resources in each, as long as its ring has a free slot (R389, R442). -/
def State.postWanted (s : State) (tag : Nat) : Nat → State
  | 0 => s
  | n + 1 =>
    let t := s.tenantAt tag
    if t.wanted.isEmpty then s
    else match execRevocationRequest tag { resources := t.wanted.take 6, reason := 2, grace := 0 } s with
      | .next s' =>
        if (s'.tenantAt tag).lastReq = t.lastReq then s
        else State.postWanted (s'.putTenant tag { s'.tenantAt tag with wanted := t.wanted.drop 6 }) tag n
      | _ => s

/-- Management asks a tag for resources of a retired unit; what the ring has no place for is requested later. -/
def State.requestRetired (s : State) (tag : Nat) (resources : List Word) : State :=
  (s.putTenant tag { s.tenantAt tag with wanted := (s.tenantAt tag).wanted ++ resources }).postWanted tag 16

/-- What is still wanted of any tag is requested; what has left the tag meanwhile is wanted no more. -/
def State.requestWanted (s : State) : State :=
  s.tenants.foldl (fun s x =>
    if x.2.wanted.isEmpty then s
    else
      let held := x.2.wanted.filter fun r => (s.holder (r.toNat / 2 ^ 60) (r.toNat % 2 ^ 60)).1.toNat == x.1
      (s.putTenant x.1 { s.tenantAt x.1 with wanted := held }).postWanted x.1 16) s

/-- Resources of a unit are retired: one that no tag holds is marked at once, the others are requested from their tags (R384,
R442). -/
def State.retireResources (s : State) (rs : List (Nat × Nat)) : State :=
  let free := rs.filter fun r => (s.owner r.1 r.2).tag == 0
  let used := rs.filter fun r => (s.owner r.1 r.2).tag != 0
  let s := free.foldl (fun (s : State) r => s.setOwner r.1 r.2 { s.owner r.1 r.2 with retired := true }) s
  ((used.map fun r => (s.owner r.1 r.2).tag.toNat).eraseDups).foldl (fun (s : State) tag =>
    s.requestRetired tag ((used.filter fun r => (s.owner r.1 r.2).tag.toNat == tag).map fun r => BitVec.ofNat 64 (resKey r.1 r.2))) s

/-- A lasting unit is retired: a bank through the revocation path; a quarter takes no further placement, its teams are asked to
leave, and its tiles and translation slots are requested (R442). -/
def State.retireUnit (s : State) (u : UnitClass) (n : Nat) : State :=
  let s := { s with retired := Store.set false s.retired (unitKey u n) true }
  match u with
  | .bank => s.retireResources [(1, n)]
  | .quarter =>
    ((s.teamsOn n).foldl (fun (s : State) id => s.askCrew id) s).retireResources
      ((List.range 16).map (fun i => (4, 16 * n + i)) ++ (List.range 512).map fun i => (3, 512 * n + i))
  | _ => s

/-- SELF_TEST: `lasting` says that the test fails. With a third error within 24 hours a unit that passes is lasting too. -/
def execSelfTest (unit : UnitClass) (number : Nat) (lasting : Bool) (s : State) : Out :=
  .next <|
    let k := unitKey unit number
    let s := { s with tests := s.tests.filter fun x => !(x.1 == unit && x.2.1 == number) }
    let s := s.countLife unit number (if lasting then 7 else 6) 1
    let s := match unit with
      | .quarter => { s with held := Store.set false s.held number false }
      | _ => s
    let errors := ((Store.get [] s.history k).filter fun x => decide (s.ticks < x + tick24h)).length
    if lasting ∨ 3 ≤ errors then s.retireUnit unit number else s

/-- Whether a self-test fails: what is wrong with the unit, which nothing here says (log entry 86). -/
def State.testFails (s : State) (u : UnitClass) (n : Nat) : Bool := pick s.free 17 (unitKey u n)

/-- Self-tests whose 10 ms are over run (R441). -/
def State.runTests (s : State) : State :=
  (s.tests.filter fun x => decide (x.2.2 ≤ s.ticks)).foldl (fun (s : State) x =>
    match execSelfTest x.1 x.2.1 (s.testFails x.1 x.2.1) s with
    | .next s' => s'
    | _ => s) s

/-! ### Lifetime records (R443) -/

/-- Every record is written to module flash. -/
def State.flush (s : State) : State :=
  { s with flash := { s.flash with lifetime := s.lifetime, retired := s.retired, powered := s.flash.powered + (s.ticks - s.flushed) },
           flushed := s.ticks }

/-- LIFETIME_FLUSH, every ten minutes. -/
def execLifetimeFlush (s : State) : Out := .next (if s.flushed + 600 * 4000000000 ≤ s.ticks then s.flush else s)

/-- ORDERLY_SHUTDOWN. -/
def execOrderlyShutdown (s : State) : Out := .next s.flush

/-- The record of a unit as the physical function reads it: the words at +0x00, +0x08 and of the 32 bins. -/
def State.lifeRecord (s : State) (u : UnitClass) (n : Nat) : List Word :=
  let k := unitKey u n
  let secs := (s.flash.powered + (s.ticks - s.flushed)) / 4000000000
  [BitVec.ofNat 64 (k / 2 ^ 32 * 2 ^ 8 + n % 2 ^ 48 * 2 ^ 16),
   BitVec.ofNat 64 (secs % 2 ^ 32 * 2 ^ 32 + bit (Store.get false s.retired k) 0)]
    ++ (List.range 256).map fun i => BitVec.ofNat 64 (Store.get 0 s.lifetime (k * 2 ^ 8 + i))

/-! ### Error blocks (R445) -/

/-- ERROR_BLOCK_CLEAR of virtual function `unit`. -/
def execErrorBlockClear (s : State) : Out := .next { s with errors := Store.erase s.errors s.unit }

end Sys2Proof.Machine
end

