-- ==== Sys2Proof/Machine/Secure.lean ====
section
/-!
DEFINITION. Machine/Secure.lean: world keys and their rotation (R409 to R415), the page engine (R414), scrubbing (R416),
identity, boot and reset (R417, R418, R466, R469), and attestation (R419, R420).
-/

namespace Sys2Proof.Machine

/-! ### Key slots (R410, R415) -/

def State.putKeySlot (s : State) (n : Nat) (k : KeySlot) : State := { s with keys := Store.set {} s.keys n k }

/-- A quarter, bank, tile or frame is assigned to a world (R409). -/
def State.assigned (s : State) (world : BitVec 8) : Bool :=
  (List.range 192).any (fun q => Store.get 0 s.worlds q == world)
    || s.owners.any fun o =>
        let kind := o.1 / 2 ^ 60
        (kind == 1 || kind == 2 || kind == 4) && o.2.world == world

/-- Keys are generated for a slot: a new generation. -/
def State.loadKeys (s : State) (n : Nat) (k : KeySlot) : State :=
  { (s.putKeySlot n { k with valid := true, key := s.nextKey, mask := s.nextKey }) with nextKey := s.nextKey + 1 }

/-- GO: step 1 of R415. -/
def State.startRotation (s : State) (n : Nat) : State :=
  let k := s.keySlot n
  if !k.valid || k.rot then s
  else { (s.putKeySlot n { k with rot := true, oldKey := k.key, key := s.nextKey, tide := 0 }) with nextKey := s.nextKey + 1 }

/-- A write to WCTL of slot n; one whose WORLD another valid slot holds is ignored whole. -/
def State.writeWctl (s : State) (n : Nat) (x : Word) : State :=
  let k := s.keySlot n
  let w : BitVec 8 := bfld x.toNat 0 8
  if n = 0 ∨ 64 ≤ n ∨ (s.keys.any fun o => o.1 != n && o.2.valid && o.2.world == w) then s
  else if !k.valid then
    if x.getLsbD 63 then s.loadKeys n { k with world := w }
    else s.putKeySlot n { k with world := w }
  else
    let s := if !x.getLsbD 63 && !s.assigned k.world then
        s.putKeySlot n { k with valid := false, rot := false, key := 0, oldKey := 0, mask := 0 } else s
    if x.getLsbD 61 then s.startRotation n else s

/-- WCTL as it reads, and WTIDE. -/
def KeySlot.wctl (k : KeySlot) : Word :=
  BitVec.ofNat 64 (bit k.valid 63 + bit k.rot 62 + k.epoch.toNat * 2 ^ 32 + k.world.toNat)
def KeySlot.wtide (k : KeySlot) : Word := BitVec.ofNat 64 (k.tide / 128 * 128)

/-- WCTL_KEY_LOAD: V = 1 is written over 0 in slot `unit`, with the world that the slot names. -/
def execWctlKeyLoad (s : State) : Out :=
  .next <|
    let k := s.keySlot s.unit
    if k.valid then s else s.writeWctl s.unit (BitVec.ofNat 64 (2 ^ 63 + k.world.toNat))

/-- WCTL_KEY_ERASE: V = 0 is written in slot `unit`. -/
def execWctlKeyErase (s : State) : Out :=
  .next <|
    let k := s.keySlot s.unit
    if k.valid then s.writeWctl s.unit (BitVec.ofNat 64 k.world.toNat) else s

/-- WCTL_GO of slot `unit`. -/
def execWctlGo (s : State) : Out :=
  .next <|
    let k := s.keySlot s.unit
    if k.valid then s.writeWctl s.unit (BitVec.ofNat 64 (2 ^ 63 + 2 ^ 61 + k.world.toNat)) else s

/-- The end of far memory (R383). -/
def endOfFar : Nat := 0x30000000000

/-- The first line of near DRAM or far memory at or above an address in a frame that is assigned to a world. -/
def State.nextLineOf (s : State) (world : BitVec 8) (a : Nat) : Option Nat :=
  (s.owners.find? fun o =>
    let idx := o.1 % 2 ^ 60
    o.1 / 2 ^ 60 == 2 && o.2.world == world && decide (a / 2 ^ 16 ≤ idx) && decide (idx * 2 ^ 16 < endOfFar)).map fun o =>
      max a (o.1 % 2 ^ 60 * 2 ^ 16)

/-- What is stored for a line of near DRAM or far memory changes, and the tag beside it. Where the tag matches what is then stored,
the line reads as that decrypts; else it is returned poisoned, and its first read finds it (R412; log entry 8). -/
def State.tamper (s : State) (line : Nat) (cipher : BitVec 1024) (tag : BitVec 64) : State :=
  let f := line / 512
  let d := Store.get (0, 0) s.tampers line
  let k := s.lineKey (s.owner 2 f).world line
  let c := s.storedLine line ^^^ cipher
  if !resourceOk 2 f then s
  else if s.tagOf line (s.version f) c = s.storedTag line ^^^ tag then
    { s.setBytes (spread (keysFrom (128 * line) 128) (xtsLine false (dataKey k) (tweakKey k) line c).toNat) with
        tampers := Store.erase s.tampers line }
  else { s with tampers := Store.set (0, 0) s.tampers line (d.1 ^^^ cipher, d.2 ^^^ tag) }

/-- ROTATION_LINE: the rotation of the lowest slot that has one goes on. The line at the tideline is checked under the old keys
and rewritten, which moves it to the new ones; one that fails is written poisoned. TIDE passes every frame that is not of the
world; past the last frame the old keys go and EPOCH counts. -/
def execRotationLine (s : State) : Out :=
  .next <|
    match s.keys.find? fun k => k.2.valid && k.2.rot with
    | none => s
    | some (n, k) =>
      let done : KeySlot := { k with rot := false, oldKey := 0, epoch := k.epoch + 1, tide := endOfFar }
      match s.nextLineOf k.world k.tide with
      | none => s.putKeySlot n done
      | some a => match s.nextLineOf k.world (a + 128) with
        | none => (s.tagFails (a / 128)).putKeySlot n done
        | some b => (s.tagFails (a / 128)).putKeySlot n { k with tide := b }

/-! ### The page engine (R414) -/

/-- Size of the image: header, ciphertext, tags. -/
def evictSize : Nat := 64 + 0x10000 + 0x1000

/-- A frame of near DRAM or far memory is there, not on its way out of a tag. -/
def State.settled (s : State) (frame : Nat) : Bool := resourceOk 2 frame && !s.leaving 2 frame

/-- One that management holds. -/
def State.held2 (s : State) (frame : Nat) : Bool := s.settled frame && (s.owner 2 frame).tag == 0

/-- Such a frame of a world with keys. -/
def State.pageable (s : State) (frame : Nat) : Bool := s.held2 frame && (s.slotOf (s.owner 2 frame).world).isSome

/-- A frame is overwritten raw with zeros, and its flash bit is set (R416). -/
def State.scrub (s : State) (frame : Nat) : State :=
  { s.zeroRange (frame * 2 ^ 16) (2 ^ 16) with
      flash := { s.flash with scrubbed := Store.set false s.flash.scrubbed frame true } }

/-- An Unscrubbed frame is overwritten first (R416); a frame of a rucksack holds no old contents. -/
def State.scrubFirst (s : State) (frame : Nat) : State :=
  if Store.get false s.flash.scrubbed frame || s.inSack frame then s else s.scrub frame

/-- FRAME_EVICT of frame `unit` to host address `item`. -/
def execFrameEvict (s : State) : Out :=
  .next <|
    let f := s.unit
    if !s.pageable f then s
    else
      let world := (s.owner 2 f).world
      let ver : BitVec 32 := Store.get 0 s.versions f + 1
      let header := leBytes 64 (f * 2 ^ 16 + world.toNat * 2 ^ 64 + ver.toNat * 2 ^ 96)
      let s := s.scrubFirst f
      let s := { s with versions := Store.set 0 s.versions f ver, exports := Store.set 0 s.exports f (s.lineKey world (512 * f)) }
      (s.perform ((keysFrom (hostKey s.item) evictSize).zip (header ++ s.storedFrame f ++ s.storedTags f)) true).checkTags
        ((List.range 512).map fun i => f * 2 ^ 16 + 128 * i)

/-- A line of ciphertext of an image at a host address, and its tag. -/
def State.imageLine (s : State) (a i : Nat) : BitVec 1024 := BitVec.ofNat 1024 (s.readNat (hostKey (a + 64 + 128 * i)) 128)
def State.imageTag (s : State) (a i : Nat) : BitVec 64 := BitVec.ofNat 64 (s.readNat (hostKey (a + 0x10040 + 8 * i)) 8)

/-- FRAME_RETURN from host address `item`: the image goes to the address in its header and to no other, also where the frame has been
granted meanwhile; a version, a world or a tag that fails poisons the frame. An export under keys that have gone fails its tags (R414): the model compares the
generations of the keys beside the tags (log entry 8). -/
def execFrameReturn (s : State) : Out :=
  .next <|
    let a := s.readNat (hostKey s.item) 8
    let f := a / 2 ^ 16
    if a % 2 ^ 16 ≠ 0 ∨ !s.settled f then s
    else
      let world := (s.owner 2 f).world
      let ver := s.version f
      let gen (i : Nat) : Nat := s.lineKey world (512 * f + i)
      let ok := (s.slotOf world).isSome && s.readNat (hostKey (s.item + 12)) 4 == ver
        && s.readNat (hostKey (s.item + 8)) 1 == world.toNat && Store.get 0 s.exports f == gen 0
        && (List.range 512).all fun i => s.imageTag s.item i == s.tagOf (512 * f + i) ver (s.imageLine s.item i)
      if !ok then s.integrity f
      else
        let plain (i : Nat) : BitVec 1024 :=
          xtsLine false (dataKey (gen i)) (tweakKey (gen i)) (512 * f + i) (s.imageLine s.item i)
        let w := s.writeRange (f * 2 ^ 16) (2 ^ 16) ((List.range 512).map fun i => (128 * i, 128, (plain i).toNat))
        { w with
            poison := if (s.owner 2 f).poison then s.poison else w.poison
            flash := { s.flash with scrubbed := Store.set false s.flash.scrubbed f false } }

/-- FRAME_SCRUB of frame `unit`, which management holds and no rucksack takes up. -/
def execFrameScrub (s : State) : Out := .next (if !s.held2 s.unit || s.inSack s.unit then s else s.scrub s.unit)

/-! ### Boot and reset (R416 to R418, R466, R469) -/

/-- The image brings the Peryord root key, whose hash the ROM holds, and its signature over the body verifies (R418). -/
def imageVerifies (i : FwImage) : Bool := sha384 i.rootKey == Config.rootHash && ecdsaVerify i.rootKey i.body i.sig

/-- An image slot whose signature verifies. -/
def State.bootImage (s : State) : Option FwImage :=
  (s.flash.images.find? fun i => decide (i.1 < 2) && imageVerifies i.2).map Prod.snd

/-- The identity private key of a root seed (R417): its SHA-384, modulo the order of the group. -/
def identityOf (seed : BitVec 384) : Nat := (sha384 (hashBytes seed)).toNat % ecN

/-- BOOT: identity, slot 0 with its keys, the first image slot that verifies, and the measurements. -/
def execBoot (s : State) : Out :=
  .next <|
    if s.boot.done then s
    else
      let seed := Config.rootSeed s.flash.helper (Config.startup s.free)
      let b : Boot := { done := true, recovery := true, seed := seed.isSome, key := (seed.map identityOf).getD 0 }
      let s := s.fresh.loadKeys 0 { world := 0 }
      match s.bootImage with
      | none => { s with boot := b }
      | some i => { s with boot := { b with recovery := !b.seed, fwm := sha384 i.body, svn := i.svn, cfgm := sha384 i.config } }

/-- A key of memory outside the module: of the window, of the host, or of a home on the fabric. -/
def outsideKey (k : Nat) : Bool := decide (2 ^ 50 ≤ k) && decide (k < 2 ^ 52) || decide (2 ^ 90 ≤ k)

/-- The device resets: what is left is the module flash, the memory outside the module, and marks of retired units and
resources; the lifetime counts are those of the last flush. Keys that come later are new ones. -/
def State.resets (s : State) : State :=
  { State.reset with
    script := s.script, cur := s.cur, unit := s.unit, item := s.item, free := s.free, nextKey := s.nextKey, nextId := s.nextId
    mem := s.mem.filter fun c => outsideKey c.1
    poison := s.poison.filter fun p => outsideKey (32 * p.1)
    owners := Store.setAll {} [] ((s.owners.filter fun o => o.2.retired).map fun o => (o.1, ({ retired := true } : Owner)))
    flash := s.flash, lifetime := s.flash.lifetime, retired := s.flash.retired, replies := s.replies }

/-- POWER_LOSS. -/
def execPowerLoss (s : State) : Out := .next s.resets

/-- THERMAL_TRIP. -/
def execThermalTrip (s : State) : Out := .next s.resets

/-! ### Attestation (R419, R420) -/

/-- Bit numbers below `n` that satisfy `p`, as one number. -/
def bitmap (n : Nat) (p : Nat → Bool) : Nat := (List.range n).foldl (fun acc i => acc + bit (p i) i) 0

/-- Bytes 0x000 to 0x27F of a report. -/
def State.report (s : State) (tag page : Nat) (seq : Word) : List Byte :=
  let world := (s.owner 2 (page / 2 ^ 16)).world
  let epoch := ((s.slotOf world).map fun k => k.2.epoch.toNat).getD 0
  leBytes 8 1 ++ leBytes 8 seq.toNat ++ leBytes 8 s.now ++ leBytes 8 s.boot.svn.toNat
    ++ hashBytes (sha384 (ecPublic s.boot.key)) ++ hashBytes s.boot.fwm ++ hashBytes s.boot.cfgm
    ++ (keysFrom (page + 0x840) 48).map s.byte
    ++ leBytes 8 (tag % 2 ^ 16 + world.toNat * 2 ^ 16 + epoch * 2 ^ 24)
    ++ leBytes 24 (bitmap 192 fun q => Store.get 0 s.worlds q == world)
    ++ leBytes 384 (bitmap 3072 fun b => (s.owner 1 b).world == world)

/-- ATTESTATION_REPORT of tag `unit`: the latest request is answered, once. -/
def execAttestationReport (s : State) : Out :=
  .next <|
    match s.runtimePage s.unit with
    | none => s
    | some page =>
      let seq : Word := BitVec.ofNat 64 (s.readNat (page + 0x870) 8)
      let t := s.tenantAt s.unit
      if seq = 0 ∨ seq = t.attest ∨ !s.boot.seed ∨ s.boot.recovery then s
      else
        let body := s.report s.unit page seq
        let s := s.perform ((keysFrom (page + 0x900) 0x2E0).zip (body ++ ecdsaSign s.boot.key (Config.nonce s.free) body)) true
        (s.fresh.putTenant s.unit { (s.tenantAt s.unit) with attest := seq }).arriveMailbox s.unit page

end Sys2Proof.Machine
end

