-- ==== Sys2Proof/Machine/Time.lean ====
section
/-!
DEFINITION. Machine/Time.lean: ticks and device time (R462, R463), stolen time (R464), telemetry and the core clock (R466 to
R468).
-/

namespace Sys2Proof.Machine

/-! ### Time passes -/

/-- A virtual function's tick is stolen: it has work that is queued or Saved, and no team of its tags is resident. -/
def State.steals (s : State) (f : Nat) : Bool :=
  let qs := s.queues.filter fun q => q.2.vf.toNat == f
  qs.any (fun q => !q.2.work.isEmpty)
    && !s.teams.any fun t => t.2.life == .resident && qs.any fun q => q.2.tag == t.2.pstat.tag

/-- Stolen ticks are counted for every virtual function with a queue. -/
def State.countStolen (s : State) (n : Nat) : State :=
  let fns := ((s.queues.filter fun q => decide (q.2.vf.toNat < 64)).map fun q => q.2.vf.toNat).eraseDups
  (fns.filter s.steals).foldl (fun (s : State) f =>
    let b := s.timeBlock f
    { s with times := Store.set {} s.times f { b with stolen := b.stolen + n } }) s

/-- A core cycle of time: 4000 / MHZ ticks; while an offset is slewed away, each 4,096 ticks count one more or one less. -/
def State.passTime (s : State) : State :=
  let total := 4000 + s.tickRest
  let mhz := max 1 s.telemetry.mhz
  let n := total / mhz
  let ticks := s.ticks + n
  let turn := s.slew != 0 && decide (s.ticks / 4096 < ticks / 4096)
  let m := if !turn then n else if 0 < s.slew then n + 1 else n - 1
  let slew := if !turn then s.slew else if 0 < s.slew then s.slew - 1 else s.slew + 1
  ({ s with cycle := s.cycle + 1, ticks := ticks, tickRest := total % mhz, now := s.now + m, slew := slew }).countStolen m

/-! ### PTM (R463) -/

/-- PTM_EXCHANGE: an offset of 1 ms or more forward is one step; any other is slewed away. -/
def execPtmExchange (hostTime : Word) (s : State) : Out :=
  .next <|
    let off : Int := (hostTime.toNat : Int) - (s.now : Int)
    if 4000000 ≤ off then { s with now := hostTime.toNat, slew := 0 } else { s with slew := off }

/-! ### Telemetry and the clock (R467, R468) -/

/-- Power above PLIMIT, or a junction above 105 °C. -/
def State.overLimit (s : State) : Bool :=
  decide (s.telemetry.plimit.toNat * 1000 < s.telemetry.power.toNat) || s.telemetry.temps.any fun t => decide (105 * 16 < t.toNat)

/-- The registers are refreshed every 100 µs, with one whole sample. -/
def State.refresh (s : State) : State :=
  if s.sampled + 400000 ≤ s.ticks then { s with shown := s.telemetry, sampled := s.ticks } else s

/-- Either limit is exceeded now: the 10 ms of R467 start again. -/
def State.noteOver (s : State) : State := if s.overLimit then { s with lastOver := s.ticks } else s

/-- A sensor reaches 115 °C (R466). -/
def TelemetryRegs.trips (r : TelemetryRegs) : Bool := r.temps.any fun t => decide (115 * 16 ≤ t.toNat)

/-- TELEMETRY_REFRESH: new measurements, with the temperatures of dies 0 to 4; at the thermal trip the device resets at once. -/
def execTelemetryRefresh (reading : Telemetry) (s : State) : Out :=
  .next <|
    let s := s.noteOver
    let s := { s with telemetry := { s.telemetry with power := reading.power, temps := reading.temps.take 5, vcore := reading.vcore } }
    if s.telemetry.trips then s.resets else s.refresh.noteOver

/-- CLOCK_REDUCTION: 250 MHz less, to no lower than 1.0 GHz. -/
def execClockReduction (s : State) : Out :=
  .next <|
    if s.overLimit ∧ 1000 < s.telemetry.mhz then
      { s with lastOver := s.ticks,
               telemetry := { s.telemetry with mhz := max 1000 (s.telemetry.mhz - 250), events := s.telemetry.events + 1 } }
    else s

/-- CLOCK_RAISE: 250 MHz more, when both conditions have been clear for 10 ms. -/
def execClockRaise (s : State) : Out :=
  .next <|
    if !s.overLimit ∧ s.telemetry.mhz < 4000 ∧ s.lastOver + 40000000 ≤ s.ticks then
      { s with telemetry := { s.telemetry with mhz := min 4000 (s.telemetry.mhz + 250) } }
    else s

end Sys2Proof.Machine
end

