-- ==== Sys2Proof/Machine/Registers.lean ====
section
/-!
DEFINITION. Machine/Registers.lean: writes to the registers of the device by their offsets (R7): queues (R374), management
(R397, R410, R452), debug blocks (R423 to R431), error and time blocks (R445, R464), telemetry (R468), launch tables (R378)
and routes (R451). A field that has an event of its own acts as that event.
-/

namespace Sys2Proof.Machine

/-- The state after an event that always answers one. -/
def after (o : Out) (s : State) : State := match o with | .next s' => s' | _ => s

/-- The part of a value in some bits. -/
def keepBits (x : Word) (lo len : Nat) : Word := BitVec.ofNat 64 (fld x.toNat lo len * 2 ^ lo)

/-! ### Queues (R374) -/

/-- QBIND: its fields, and the start of the first period when EN goes from 0 to 1. -/
def State.writeQbind (s : State) (n : Nat) (x : Word) : State :=
  let q := s.queueAt n
  let en := x.getLsbD 63
  let s := s.putQueue n { q with en := q.en && en, world := bfld x.toNat 24 8, tag := bfld x.toNat 8 16, vf := bfld x.toNat 0 8 }
  if en && !q.en then after (execQueueEnable .pf n s) s else s

/-- A write to offset `off` of the block of queue `n`. -/
def State.writeQueue (s : State) (fn : Fn) (n off : Nat) (x : Word) : State :=
  let q := s.queueAt n
  if !q.reachedBy fn then s
  else if off = 0x38 then after (execSubmit fn n x s) s
  else if off = 0x30 then s.putQueue n { q with resp := keepBits x 6 58 }
  else match fn with
    | .vf _ => s
    | _ =>
      if off = 0x00 then s.writeQbind n x
      else if off = 0x08 then s.putQueue n { q with rsize := bfld x.toNat 48 4, cores := bfld x.toNat 0 48 }
      else if off = 0x10 then s.putQueue n { q with period := bfld x.toNat 0 40 }
      else if off = 0x18 then s.putQueue n { q with budget := bfld x.toNat 0 40 }
      else if off = 0x20 then s.putQueue n { q with yields := bfld x.toNat 0 32 }
      else if off = 0x28 then s.putQueue n { q with age := bfld x.toNat 0 40 }
      else s

/-! ### Management (R397, R410, R452) -/

/-- ACTION on the team of a HANDLE. -/
def State.escAction (s : State) (x : Word) : State :=
  let h := fld x.toNat 0 12
  match s.slotTeam (h / 64) (h / 16 % 4) (h % 16) with
  | none => s
  | some id =>
    let u := { s with unit := id }
    let a := fld x.toNat 62 2
    let v := if a = 1 then after (execEscalationEnd u) s else if a = 2 then after (execEscalationResume u) s
      else if a = 3 then after (execEscalationSave u) s else s
    { v with unit := s.unit, cur := s.cur }

def State.writeMgmt (s : State) (off : Nat) (x : Word) : State :=
  if off = 0x100 then { s with escBase := keepBits x 12 40 }
  else if off = 0x110 then { s with escTail := bfld x.toNat 0 32 }
  else if off = 0x118 then s.escAction x
  else if 0x800 ≤ off ∧ off < 0xC00 ∧ off % 16 = 0 then s.writeWctl ((off - 0x800) / 16) x
  else if 0xC00 ≤ off ∧ off < 0xD00 ∧ off % 8 = 0 then
    let l := s.link ((off - 0xC00) / 8)
    s.putLink ((off - 0xC00) / 8) { l with retry := l.retry &&& ~~~(bfld x.toNat 0 16) }
  else s

/-! ### Debug blocks (R422 to R431) -/

/-- The function may name a tag (R424, R426, R431). -/
def State.ownTag (s : State) (fn : Fn) (tag : BitVec 16) : Bool :=
  match fn with | .vf n => (s.functionsOf tag.toNat).contains n.toNat | _ => true

/-- A bit that only the hypervisor sets. -/
def hyperBit (fn : Fn) (old new : Bool) : Bool := match fn with | .vf _ => old && new | _ => new

def State.writeClaim (s : State) (fn : Fn) (core off : Nat) (u : DbgUnit) (x : Word) : State :=
  let d := s.dbg core
  if off = 0 then
    let s := if x.getLsbD 63 then after (execClaimRequest fn core u s) s else s
    if x.getLsbD 62 then after (execClaimRelease fn core u s) s else s
  else if off = 0x10 ∧ d.writes fn u then s.putDbg core (d.setClaim { d.claim u with note := keepBits x 3 49 } u)
  else s

def State.writeBreakpoint (s : State) (fn : Fn) (core n off : Nat) (x : Word) : State :=
  let d := s.dbg core
  let b : Breakpoint := Store.get {} d.bps n
  let put (b : Breakpoint) : State := s.putDbg core { d with bps := Store.set {} d.bps n b }
  if off = 0 then put { b with pc := keepBits x 2 62 }
  else if off = 8 then
    if !s.ownTag fn (bfld x.toNat 32 16) then s
    else
      let halt := hyperBit fn (b.ctl.getLsbD 60) (x.getLsbD 60)
      put { b with ctl := keepBits x 61 3 ||| BitVec.ofNat 64 (bit halt 60) ||| keepBits x 32 16 ||| keepBits x 0 11 }
  else if off = 0x10 then put { b with seq := bfld x.toNat 0 32 }
  else s

/-- TAIL of a ring: a value that would pass HEAD or leave more than SIZE records is ignored (R427). -/
def Ring.writeTail (r : Ring) (x : Word) : Ring :=
  let tail : BitVec 32 := bfld x.toNat 0 32
  if (r.head - tail).toNat ≤ r.size.toNat then { r with tail := tail } else r

def State.writeTrace (s : State) (fn : Fn) (core off : Nat) (x : Word) : State :=
  let d := s.dbg core
  if off = 0x200 then
    if !s.ownTag fn (bfld x.toNat 32 16) then s
    else if d.trEn then s.putDbg core { d with trEn := x.getLsbD 63 }
    else
      let s := s.putDbg core { d with brkh := hyperBit fn d.brkh (x.getLsbD 49), trAll := hyperBit fn d.trAll (x.getLsbD 48),
                                      trTag := bfld x.toNat 32 16, kinds := bfld x.toNat 1 8 }
      if x.getLsbD 63 then after (execTraceEnable fn core s) s else s
  else if off = 0x220 then s.putDbg core { d with trace := d.trace.writeTail x }
  else if d.trEn then s
  else if off = 0x208 then s.putDbg core { d with trace := { d.trace with base := keepBits x 6 46 } }
  else if off = 0x210 then s.putDbg core { d with trace := { d.trace with size := bfld x.toNat 0 24 } }
  else s

def State.writeSampler (s : State) (fn : Fn) (core q off : Nat) (x : Word) : State :=
  let d := s.dbg core
  let y := d.sampler q
  let put (y : Sampler) : State := s.putDbg core (d.setSampler q y)
  if off = 0 then
    if fld x.toNat 0 16 < 16 then s
    else if y.en then put { y with en := x.getLsbD 63 }
    else
      let s := put { y with n := bfld x.toNat 0 16 }
      if x.getLsbD 63 then after (execRollCallEnable fn core q s) s else s
  else if off = 0x20 then put { y with ring := y.ring.writeTail x }
  else if y.en then s
  else if off = 0x08 then put { y with ring := { y.ring with base := keepBits x 4 48 } }
  else if off = 0x10 then put { y with ring := { y.ring with size := bfld x.toNat 0 24 } }
  else s

def State.writeCounter (s : State) (fn : Fn) (core off : Nat) (x : Word) : State :=
  let d := s.dbg core
  let n := (off - 0x440) / 16
  if off = 0x400 then
    if !s.ownTag fn (bfld x.toNat 32 16) then s
    else
      let s := s.putDbg core { d with ctrAll := hyperBit fn d.ctrAll (x.getLsbD 48), ctrTag := bfld x.toNat 32 16,
                                      run := x.getLsbD 0 }
      let s := if x.getLsbD 63 then after (execCounterSave fn core s) s else s
      if x.getLsbD 62 then after (execCounterLoad fn core s) s else s
  else if off = 0x408 then s.putDbg core { d with img := bfld x.toNat 8 44 }
  else if off < 0x440 ∨ 0x4C0 ≤ off then s
  else if off % 16 = 0 then
    let known := eventKnown (fld x.toNat 0 16)
    let c := d.counter n
    let c : Counter := { en := x.getLsbD 63, event := bfld x.toNat 0 16, value := if known then c.value else 0 }
    let unsup := (d.unsup &&& ~~~(BitVec.ofNat 8 (2 ^ n))) ||| BitVec.ofNat 8 (bit (!known) n)
    s.putDbg core { d with counters := Store.set {} d.counters n c, unsup := unsup }
  else if off % 16 = 8 ∧ d.unsup.getLsbD n = false then
    s.putDbg core { d with counters := Store.set {} d.counters n { d.counter n with value := x } }
  else s

/-- Halt control, which only the physical function reaches (R425). -/
def State.writeHalt (s : State) (fn : Fn) (x : Word) : State :=
  let h := fld x.toNat 0 12
  let a := fld x.toNat 62 2
  let q := h / 16 % 4
  let slot := h % 16
  if a = 0 then after (execHaltctlHalt fn (h / 64) q slot s) s
  else if a = 1 then after (execHaltctlResume fn (h / 64) q slot s) s
  else if a = 2 then after (execHaltctlStep fn (h / 64) q slot s) s
  else after (execHaltctlSave fn (h / 64) q slot s) s

def State.writeDebug (s : State) (fn : Fn) (core off : Nat) (x : Word) : State :=
  let d := s.dbg core
  if 48 ≤ core then s
  else if 0x100 ≤ off ∧ off < 0x120 then s.writeClaim fn core (off - 0x100) .dbg x
  else if 0x120 ≤ off ∧ off < 0x140 then s.writeClaim fn core (off - 0x120) .ctr x
  else if 0x140 ≤ off ∧ off < 0x160 then s.writeClaim fn core (off - 0x140) .rc x
  else if off = 0x180 then s.writeHalt fn x
  else if off < 0x100 then (if d.writes fn .dbg then s.writeBreakpoint fn core (off / 32) (off % 32) x else s)
  else if 0x200 ≤ off ∧ off < 0x230 then (if d.writes fn .dbg then s.writeTrace fn core off x else s)
  else if 0x300 ≤ off ∧ off < 0x400 then
    (if d.writes fn .rc then s.writeSampler fn core ((off - 0x300) / 64) ((off - 0x300) % 64) x else s)
  else if 0x400 ≤ off ∧ off < 0x4C0 then (if d.writes fn .ctr then s.writeCounter fn core off x else s)
  else s

/-! ### Offsets in the BARs of a function (R373, R422, R445, R464, R468) -/

/-- BAR0: 128 bytes for each queue. -/
def bar0Reg (off : Nat) : Option RegAddr := if off / 128 < 8192 then some (.queue (bfld off 7 13) (bfld off 0 7)) else none

/-- BAR2: the debug blocks, then the error block, the time blocks (through a virtual function its own) and telemetry. -/
def bar2Reg (fn : Fn) (off : Nat) : Option RegAddr :=
  if off < 0x30000 then some (.debug (bfld off 12 6) (bfld off 0 12))
  else match fn with
    | .vf n =>
      if off < 0x30040 then some (.errors n (bfld off 0 6))
      else if 0x31000 ≤ off ∧ off < 0x31040 then some (.time n (bfld off 0 6))
      else none
    | .pf =>
      if 0x31000 ≤ off ∧ off < 0x32000 then some (.time (bfld (off - 0x31000) 6 6) (bfld off 0 6))
      else if 0x32000 ≤ off ∧ off < 0x32080 then some (.telemetry (bfld off 0 7))
      else none
    | .mgmt => none

/-- The register at an offset of a function's BAR0, or BAR2. -/
def barReg (fn : Fn) (two : Bool) (off : Nat) : Option RegAddr := if two then bar2Reg fn off else bar0Reg off

/-! ### The other blocks -/

/-- GTCTL, GTOFF and GTSCALE, by the hypervisor (R464). -/
def State.writeTime (s : State) (vf off : Nat) (x : Word) : State :=
  let b := s.timeBlock vf
  let put (b : TimeBlock) : State := { s with times := Store.set {} s.times vf b }
  if off = 0 then put { b with hide := x.getLsbD 0 }
  else if off = 8 then put { b with offset := x }
  else if off = 0x10 then put { b with scale := x }
  else s

/-- REGISTER_WRITE. -/
def execRegisterWrite (fn : Fn) (reg : RegAddr) (value : Word) (s : State) : Out :=
  .next <|
    if !s.exposes fn then s
    else match reg, fn with
      | .queue q off, _ => s.writeQueue fn q.toNat off.toNat value
      | .mgmt off, .mgmt => s.writeMgmt off.toNat value
      | .debug core off, _ => s.writeDebug fn core.toNat off.toNat value
      | .errors vf off, .vf n =>
        if vf = n ∧ off = 0x38#6 ∧ value.getLsbD 0 then { s with errors := Store.erase s.errors vf.toNat } else s
      | .time vf off, .pf => s.writeTime vf.toNat off.toNat value
      | .telemetry off, .mgmt =>
        if off = 0#7 then { s.noteOver with telemetry := { s.telemetry with plimit := bfld value.toNat 0 12 } } else s
      | .launchTable tag n, .pf =>
        { s with launches := Store.set 0 s.launches (4096 * tag.toNat + n.toNat)
                   (keepBits value 63 1 ||| keepBits value 32 20 ||| keepBits value 16 16 ||| keepBits value 0 13) }
      | .route n w, .mgmt =>
        { s with routes := Store.set 0 s.routes (2 * n.toNat + w.toNat)
                   (if w = 0#1 then keepBits value 62 2 ||| keepBits value 0 52 else keepBits value 30 34) }
      | _, _ => s

/-- A write at an offset of a BAR. -/
def State.writeBar (s : State) (fn : Fn) (two : Bool) (off : Nat) (x : Word) : Out :=
  match barReg fn two off with
  | some r => execRegisterWrite fn r x s
  | none => .next s

/-! ### What the registers read -/

def Queue.read (q : Queue) (off : Nat) : Nat :=
  if off = 0x00 then bit q.en 63 + q.world.toNat * 2 ^ 24 + q.tag.toNat * 2 ^ 8 + q.vf.toNat
  else if off = 0x08 then q.rsize.toNat * 2 ^ 48 + q.cores.toNat
  else if off = 0x10 then q.period.toNat
  else if off = 0x18 then q.budget.toNat
  else if off = 0x20 then q.yields.toNat
  else if off = 0x28 then q.age.toNat
  else if off = 0x30 then q.resp.toNat
  else if off = 0x40 then q.pend * 2 ^ 48 + q.ovr.toNat * 2 ^ 32 + q.subno.toNat
  else if off = 0x48 then q.used
  else if off = 0x50 then q.deadl.toNat
  else 0

def State.readMgmt (s : State) (off : Nat) : Nat :=
  if off = 0x100 then s.escBase.toNat
  else if off = 0x108 then s.escHead.toNat
  else if off = 0x110 then s.escTail.toNat
  else if 0x800 ≤ off ∧ off < 0xC00 then
    (if off % 16 = 0 then (s.keySlot ((off - 0x800) / 16)).wctl.toNat
     else if off % 16 = 8 then (s.keySlot ((off - 0x800) / 16)).wtide.toNat else 0)
  else if 0xC00 ≤ off ∧ off < 0xD00 ∧ off % 8 = 0 then (s.link ((off - 0xC00) / 8)).status.toNat
  else if off = 0xD00 then s.partid.toNat
  else 0

/-- The registers of a ring and its unit: base, size, head, tail, drop. -/
def Ring.read (r : Ring) (off : Nat) : Nat :=
  if off = 0x08 then r.base.toNat else if off = 0x10 then r.size.toNat else if off = 0x18 then r.head.toNat
  else if off = 0x20 then r.tail.toNat else if off = 0x28 then r.drop.toNat else 0

def Claim.read (c : Claim) (off : Nat) : Nat :=
  if off = 0 then c.owner * 2 ^ 8 + c.pend else if off = 8 then c.deadl.toNat else if off = 0x10 then c.note.toNat else 0

/-- The unit of an offset of a debug block. -/
def dbgUnitAt (off : Nat) : Option DbgUnit :=
  if off < 0x120 ∨ (0x200 ≤ off ∧ off < 0x300) then some .dbg
  else if off < 0x140 ∨ (0x400 ≤ off ∧ off < 0x500) then some .ctr
  else if off < 0x160 ∨ (0x300 ≤ off ∧ off < 0x400) then some .rc
  else none

def State.readDebug (s : State) (core off : Nat) : Nat :=
  let d := s.dbg core
  if off < 0x100 then
    let b : Breakpoint := Store.get {} d.bps (off / 32)
    if off % 32 = 0 then b.pc.toNat else if off % 32 = 8 then b.ctl.toNat else if off % 32 = 16 then b.seq.toNat else 0
  else if off < 0x120 then d.dbg.read (off - 0x100)
  else if off < 0x140 then d.ctr.read (off - 0x120)
  else if off < 0x160 then d.rc.read (off - 0x140)
  else if off = 0x188 then (s.hstat core).toNat
  else if off = 0x200 then
    bit d.trEn 63 + bit d.brkh 49 + bit d.trAll 48 + d.trTag.toNat * 2 ^ 32 + d.kinds.toNat * 2
  else if 0x208 ≤ off ∧ off < 0x230 then d.trace.read (off - 0x200)
  else if 0x300 ≤ off ∧ off < 0x400 then
    let x := d.sampler ((off - 0x300) / 64)
    let o := (off - 0x300) % 64
    if o = 0 then bit x.en 63 + x.n.toNat else if o = 0x30 then x.start.toNat else x.ring.read o
  else if off = 0x400 then
    bit d.ctrAll 48 + d.ctrTag.toNat * 2 ^ 32 + d.unsup.toNat * 2 ^ 16 + bit d.run 0
  else if off = 0x408 then d.imgAt
  else if 0x440 ≤ off ∧ off < 0x4C0 then
    let c := d.counter ((off - 0x440) / 16)
    if off % 16 = 0 then bit c.en 63 + c.event.toNat else if off % 16 = 8 then c.value.toNat else 0
  else 0

/-- What a function may read of a debug block: a unit that it does not hold reads 0 through a virtual function, and halt
control is the physical function's. -/
def State.seesDebug (s : State) (fn : Fn) (core off : Nat) : Bool :=
  match fn with
  | .pf => true
  | .mgmt => false
  | .vf _ => match dbgUnitAt off with
    | some u => (s.dbg core).holds fn u
    | none => false

def State.readTelemetry (s : State) (off : Nat) : Nat :=
  let r := s.shown
  if off = 0 then r.plimit.toNat
  else if off = 8 then r.power.toNat
  else if 0x10 ≤ off ∧ off < 0x38 ∧ off % 8 = 0 then (r.temps.getD ((off - 0x10) / 8) 0).toNat
  else if off = 0x38 then r.vcore.toNat
  else if off = 0x40 then r.events.toNat * 2 ^ 32 + r.mhz
  else 0

/-- GTCTL, GTOFF, GTSCALE, GTSTOLEN and GTNOW. -/
def TimeBlock.read (b : TimeBlock) (off now : Nat) : Nat :=
  if off = 0 then bit b.hide 0 else if off = 8 then b.offset.toNat else if off = 0x10 then b.scale.toNat
  else if off = 0x18 then b.stolen % 2 ^ 64 else if off = 0x20 then (b.guest now).toNat else 0

/-- The value that a register reads for a function; what it does not reach reads 0. -/
def State.readRegister (s : State) (fn : Fn) (reg : RegAddr) : Word :=
  BitVec.ofNat 64 <|
    if !s.exposes fn then 0
    else match reg, fn with
      | .queue q off, _ => if (s.queueAt q.toNat).reachedBy fn then (s.queueAt q.toNat).read off.toNat else 0
      | .mgmt off, .mgmt => s.readMgmt off.toNat
      | .debug core off, _ => if s.seesDebug fn core.toNat off.toNat then s.readDebug core.toNat off.toNat else 0
      | .errors vf off, .vf n =>
        if vf = n ∧ off.toNat % 8 = 0 ∧ off.toNat < 0x38 then
          (Store.get 0 (Store.get {} s.errors vf.toNat : ErrorBlock).counts (off.toNat / 8)).toNat else 0
      | .time vf off, .vf n => if vf = n then (s.timeBlock vf.toNat).read off.toNat s.now else 0
      | .time vf off, .pf => (s.timeBlock vf.toNat).read off.toNat s.now
      | .telemetry off, .pf => s.readTelemetry off.toNat
      | .telemetry off, .mgmt => s.readTelemetry off.toNat
      | .launchTable tag n, .pf => (Store.get 0 s.launches (4096 * tag.toNat + n.toNat)).toNat
      | .route n w, .mgmt => (Store.get 0 s.routes (2 * n.toNat + w.toNat)).toNat
      | _, _ => 0

/-- A read at an offset of a BAR. -/
def State.readBar (s : State) (fn : Fn) (two : Bool) (off : Nat) : Word := ((barReg fn two off).map (s.readRegister fn)).getD 0

end Sys2Proof.Machine
end

