-- ==== Sys2Proof/Machine/Dispatch.lean ====
section
/-!
DEFINITION. Machine/Dispatch.lean: one arm per constructor of Instr, each the call of its meaning.
-/

namespace Sys2Proof.Machine

def exec (i : Instr) (s : State) : Host.Outcome State Fault Refusal :=
  match i with
  | .iadd d a b => Sys2Proof.Machine.execIadd d a b s
  | .isub d a b => Sys2Proof.Machine.execIsub d a b s
  | .imul d a b => Sys2Proof.Machine.execImul d a b s
  | .imulh d a b => Sys2Proof.Machine.execImulh d a b s
  | .imulhu d a b => Sys2Proof.Machine.execImulhu d a b s
  | .idiv d a b => Sys2Proof.Machine.execIdiv d a b s
  | .idivu d a b => Sys2Proof.Machine.execIdivu d a b s
  | .irem d a b => Sys2Proof.Machine.execIrem d a b s
  | .iremu d a b => Sys2Proof.Machine.execIremu d a b s
  | .and d a b => Sys2Proof.Machine.execAnd d a b s
  | .or d a b => Sys2Proof.Machine.execOr d a b s
  | .xor d a b => Sys2Proof.Machine.execXor d a b s
  | .shl d a b => Sys2Proof.Machine.execShl d a b s
  | .shr d a b => Sys2Proof.Machine.execShr d a b s
  | .sar d a b => Sys2Proof.Machine.execSar d a b s
  | .imin d a b => Sys2Proof.Machine.execImin d a b s
  | .imax d a b => Sys2Proof.Machine.execImax d a b s
  | .iminu d a b => Sys2Proof.Machine.execIminu d a b s
  | .imaxu d a b => Sys2Proof.Machine.execImaxu d a b s
  | .cmp a b => Sys2Proof.Machine.execCmp a b s
  | .sxt8 d a => Sys2Proof.Machine.execSxt8 d a s
  | .sxt16 d a => Sys2Proof.Machine.execSxt16 d a s
  | .sxt32 d a => Sys2Proof.Machine.execSxt32 d a s
  | .selCc d a b c => Sys2Proof.Machine.execSelCc d a b c s
  | .iaddi d a i0 => Sys2Proof.Machine.execIaddi d a i0 s
  | .imuli d a i0 => Sys2Proof.Machine.execImuli d a i0 s
  | .andi d a i0 => Sys2Proof.Machine.execAndi d a i0 s
  | .ori d a i0 => Sys2Proof.Machine.execOri d a i0 s
  | .xori d a i0 => Sys2Proof.Machine.execXori d a i0 s
  | .shli d a n => Sys2Proof.Machine.execShli d a n s
  | .shri d a n => Sys2Proof.Machine.execShri d a n s
  | .sari d a n => Sys2Proof.Machine.execSari d a n s
  | .cmpi a i0 => Sys2Proof.Machine.execCmpi a i0 s
  | .brCc c d => Sys2Proof.Machine.execBrCc c d s
  | .call d => Sys2Proof.Machine.execCall d s
  | .jr a => Sys2Proof.Machine.execJr a s
  | .callr a => Sys2Proof.Machine.execCallr a s
  | .ret => Sys2Proof.Machine.execRet s
  | .dbnz d i0 => Sys2Proof.Machine.execDbnz d i0 s
  | .ldS d a b s0 c z => Sys2Proof.Machine.execLdS d a b s0 c z s
  | .ldG d a b s0 c z => Sys2Proof.Machine.execLdG d a b s0 c z s
  | .stS d a b s0 c z => Sys2Proof.Machine.execStS d a b s0 c z s
  | .stG d a b s0 c z => Sys2Proof.Machine.execStG d a b s0 c z s
  | .atomAddS d a b z => Sys2Proof.Machine.execAtomAddS d a b z s
  | .atomMinS d a b z => Sys2Proof.Machine.execAtomMinS d a b z s
  | .atomMaxS d a b z => Sys2Proof.Machine.execAtomMaxS d a b z s
  | .atomMinuS d a b z => Sys2Proof.Machine.execAtomMinuS d a b z s
  | .atomMaxuS d a b z => Sys2Proof.Machine.execAtomMaxuS d a b z s
  | .atomAndS d a b z => Sys2Proof.Machine.execAtomAndS d a b z s
  | .atomOrS d a b z => Sys2Proof.Machine.execAtomOrS d a b z s
  | .atomXorS d a b z => Sys2Proof.Machine.execAtomXorS d a b z s
  | .atomExchS d a b z => Sys2Proof.Machine.execAtomExchS d a b z s
  | .atomCasS d a b z => Sys2Proof.Machine.execAtomCasS d a b z s
  | .atomFaddS d a b => Sys2Proof.Machine.execAtomFaddS d a b s
  | .atomFmaxS d a b => Sys2Proof.Machine.execAtomFmaxS d a b s
  | .atomFminS d a b => Sys2Proof.Machine.execAtomFminS d a b s
  | .atomAddG d a b z => Sys2Proof.Machine.execAtomAddG d a b z s
  | .atomMinG d a b z => Sys2Proof.Machine.execAtomMinG d a b z s
  | .atomMaxG d a b z => Sys2Proof.Machine.execAtomMaxG d a b z s
  | .atomMinuG d a b z => Sys2Proof.Machine.execAtomMinuG d a b z s
  | .atomMaxuG d a b z => Sys2Proof.Machine.execAtomMaxuG d a b z s
  | .atomAndG d a b z => Sys2Proof.Machine.execAtomAndG d a b z s
  | .atomOrG d a b z => Sys2Proof.Machine.execAtomOrG d a b z s
  | .atomXorG d a b z => Sys2Proof.Machine.execAtomXorG d a b z s
  | .atomExchG d a b z => Sys2Proof.Machine.execAtomExchG d a b z s
  | .atomCasG d a b z => Sys2Proof.Machine.execAtomCasG d a b z s
  | .atomFaddG d a b => Sys2Proof.Machine.execAtomFaddG d a b s
  | .atomFmaxG d a b => Sys2Proof.Machine.execAtomFmaxG d a b s
  | .atomFminG d a b => Sys2Proof.Machine.execAtomFminG d a b s
  | .faddF32 d a b r => Sys2Proof.Machine.execFaddF32 d a b r s
  | .fsubF32 d a b r => Sys2Proof.Machine.execFsubF32 d a b r s
  | .fmulF32 d a b r => Sys2Proof.Machine.execFmulF32 d a b r s
  | .ffmaF32 d a b r => Sys2Proof.Machine.execFfmaF32 d a b r s
  | .fminF32 d a b => Sys2Proof.Machine.execFminF32 d a b s
  | .fmaxF32 d a b => Sys2Proof.Machine.execFmaxF32 d a b s
  | .fcmpF32 a b => Sys2Proof.Machine.execFcmpF32 a b s
  | .cvtF32S32 d a r => Sys2Proof.Machine.execCvtF32S32 d a r s
  | .cvtS32F32 d a r => Sys2Proof.Machine.execCvtS32F32 d a r s
  | .lrun d => Sys2Proof.Machine.execLrun d s
  | .lrunr a => Sys2Proof.Machine.execLrunr a s
  | .lsync => Sys2Proof.Machine.execLsync s
  | .lqcnt d => Sys2Proof.Machine.execLqcnt d s
  | .wait k n => Sys2Proof.Machine.execWait k n s
  | .tkrd d k => Sys2Proof.Machine.execTkrd d k s
  | .fmtset a => Sys2Proof.Machine.execFmtset a s
  | .fmtget d => Sys2Proof.Machine.execFmtget d s
  | .srseed a b => Sys2Proof.Machine.execSrseed a b s
  | .mand d a b => Sys2Proof.Machine.execMand d a b s
  | .mor d a b => Sys2Proof.Machine.execMor d a b s
  | .mxor d a b => Sys2Proof.Machine.execMxor d a b s
  | .mnot d a => Sys2Proof.Machine.execMnot d a s
  | .mcount d a => Sys2Proof.Machine.execMcount d a s
  | .mfirst d a => Sys2Proof.Machine.execMfirst d a s
  | .mtest a => Sys2Proof.Machine.execMtest a s
  | .mset d a b => Sys2Proof.Machine.execMset d a b s
  | .qset a b f => Sys2Proof.Machine.execQset a b f s
  | .qget d b f => Sys2Proof.Machine.execQget d b f s
  | .bar d n => Sys2Proof.Machine.execBar d n s
  | .barGang d n => Sys2Proof.Machine.execBarGang d n s
  | .stexp a b => Sys2Proof.Machine.execStexp a b s
  | .starr a s0 => Sys2Proof.Machine.execStarr a s0 s
  | .sttest d a b s0 => Sys2Proof.Machine.execSttest d a b s0 s
  | .stwait d a b s0 => Sys2Proof.Machine.execStwait d a b s0 s
  | .yield d a b => Sys2Proof.Machine.execYield d a b s
  | .mwait d a b => Sys2Proof.Machine.execMwait d a b s
  | .fence s0 c => Sys2Proof.Machine.execFence s0 c s
  | .sub d a b => Sys2Proof.Machine.execSub d a b s
  | .unsub d a => Sys2Proof.Machine.execUnsub d a s
  | .subflush d a => Sys2Proof.Machine.execSubflush d a s
  | .launch d a => Sys2Proof.Machine.execLaunch d a s
  | .cget d r => Sys2Proof.Machine.execCget d r s
  | .cset a r => Sys2Proof.Machine.execCset a r s
  | .tlbw d a b => Sys2Proof.Machine.execTlbw d a b s
  | .tlbi a => Sys2Proof.Machine.execTlbi a s
  | .tlbrW0 d a => Sys2Proof.Machine.execTlbrW0 d a s
  | .tlbrW1 d a => Sys2Proof.Machine.execTlbrW1 d a s
  | .nop => Sys2Proof.Machine.execNop s
  | .halt => Sys2Proof.Machine.execHalt s
  | .eret => Sys2Proof.Machine.execEret s
  | .brk => Sys2Proof.Machine.execBrk s
  | .trap a b => Sys2Proof.Machine.execTrap a b s
  | .mark a => Sys2Proof.Machine.execMark a s
  | .ext i0 => Sys2Proof.Machine.execExt i0 s
  | .unassignedScalarWord word => Sys2Proof.Machine.execUnassignedScalarWord word s
  | .laneIadd f => Sys2Proof.Machine.execLaneIadd f s
  | .laneIsub f => Sys2Proof.Machine.execLaneIsub f s
  | .laneImul f => Sys2Proof.Machine.execLaneImul f s
  | .laneImulhi f => Sys2Proof.Machine.execLaneImulhi f s
  | .laneImad f => Sys2Proof.Machine.execLaneImad f s
  | .laneIdiv f => Sys2Proof.Machine.execLaneIdiv f s
  | .laneIrem f => Sys2Proof.Machine.execLaneIrem f s
  | .laneImin f => Sys2Proof.Machine.execLaneImin f s
  | .laneImax f => Sys2Proof.Machine.execLaneImax f s
  | .laneIabs f => Sys2Proof.Machine.execLaneIabs f s
  | .laneIneg f => Sys2Proof.Machine.execLaneIneg f s
  | .laneMov f => Sys2Proof.Machine.execLaneMov f s
  | .laneLfn3 f => Sys2Proof.Machine.execLaneLfn3 f s
  | .laneIshl f => Sys2Proof.Machine.execLaneIshl f s
  | .laneIshr f => Sys2Proof.Machine.execLaneIshr f s
  | .laneIsar f => Sys2Proof.Machine.execLaneIsar f s
  | .laneIrot f => Sys2Proof.Machine.execLaneIrot f s
  | .laneBfext f => Sys2Proof.Machine.execLaneBfext f s
  | .laneBfins f => Sys2Proof.Machine.execLaneBfins f s
  | .laneBfrev f => Sys2Proof.Machine.execLaneBfrev f s
  | .lanePopc f => Sys2Proof.Machine.execLanePopc f s
  | .laneClz f => Sys2Proof.Machine.execLaneClz f s
  | .laneCtz f => Sys2Proof.Machine.execLaneCtz f s
  | .laneIcmp f => Sys2Proof.Machine.execLaneIcmp f s
  | .laneFcmp f => Sys2Proof.Machine.execLaneFcmp f s
  | .laneSel f => Sys2Proof.Machine.execLaneSel f s
  | .laneVote f => Sys2Proof.Machine.execLaneVote f s
  | .laneFadd f => Sys2Proof.Machine.execLaneFadd f s
  | .laneFsub f => Sys2Proof.Machine.execLaneFsub f s
  | .laneFmul f => Sys2Proof.Machine.execLaneFmul f s
  | .laneFfma f => Sys2Proof.Machine.execLaneFfma f s
  | .laneFmin f => Sys2Proof.Machine.execLaneFmin f s
  | .laneFmax f => Sys2Proof.Machine.execLaneFmax f s
  | .laneFabs f => Sys2Proof.Machine.execLaneFabs f s
  | .laneFneg f => Sys2Proof.Machine.execLaneFneg f s
  | .laneFclass f => Sys2Proof.Machine.execLaneFclass f s
  | .laneFrcp f => Sys2Proof.Machine.execLaneFrcp f s
  | .laneFrsq f => Sys2Proof.Machine.execLaneFrsq f s
  | .laneFsqrt f => Sys2Proof.Machine.execLaneFsqrt f s
  | .laneFexp2 f => Sys2Proof.Machine.execLaneFexp2 f s
  | .laneFlog2 f => Sys2Proof.Machine.execLaneFlog2 f s
  | .laneFsin f => Sys2Proof.Machine.execLaneFsin f s
  | .laneFcos f => Sys2Proof.Machine.execLaneFcos f s
  | .laneFtanh f => Sys2Proof.Machine.execLaneFtanh f s
  | .laneCvt f => Sys2Proof.Machine.execLaneCvt f s
  | .laneFrnd f => Sys2Proof.Machine.execLaneFrnd f s
  | .laneBpack f => Sys2Proof.Machine.execLaneBpack f s
  | .laneBunpack f => Sys2Proof.Machine.execLaneBunpack f s
  | .laneBscale f => Sys2Proof.Machine.execLaneBscale f s
  | .laneFpres f => Sys2Proof.Machine.execLaneFpres f s
  | .laneFdflt f => Sys2Proof.Machine.execLaneFdflt f s
  | .laneHist f => Sys2Proof.Machine.execLaneHist f s
  | .laneShfl f => Sys2Proof.Machine.execLaneShfl f s
  | .laneQuad f => Sys2Proof.Machine.execLaneQuad f s
  | .laneWred f => Sys2Proof.Machine.execLaneWred f s
  | .laneTred f => Sys2Proof.Machine.execLaneTred f s
  | .laneLd f => Sys2Proof.Machine.execLaneLd f s
  | .laneSt f => Sys2Proof.Machine.execLaneSt f s
  | .lanePref f => Sys2Proof.Machine.execLanePref f s
  | .laneAtomAdd f => Sys2Proof.Machine.execLaneAtomAdd f s
  | .laneAtomMin f => Sys2Proof.Machine.execLaneAtomMin f s
  | .laneAtomMax f => Sys2Proof.Machine.execLaneAtomMax f s
  | .laneAtomAnd f => Sys2Proof.Machine.execLaneAtomAnd f s
  | .laneAtomOr f => Sys2Proof.Machine.execLaneAtomOr f s
  | .laneAtomXor f => Sys2Proof.Machine.execLaneAtomXor f s
  | .laneAtomExch f => Sys2Proof.Machine.execLaneAtomExch f s
  | .laneAtomCas f => Sys2Proof.Machine.execLaneAtomCas f s
  | .laneAtomFadd f => Sys2Proof.Machine.execLaneAtomFadd f s
  | .laneAtomFmax f => Sys2Proof.Machine.execLaneAtomFmax f s
  | .laneAtomFmin f => Sys2Proof.Machine.execLaneAtomFmin f s
  | .laneRedAdd f => Sys2Proof.Machine.execLaneRedAdd f s
  | .laneRedMin f => Sys2Proof.Machine.execLaneRedMin f s
  | .laneRedMax f => Sys2Proof.Machine.execLaneRedMax f s
  | .laneRedAnd f => Sys2Proof.Machine.execLaneRedAnd f s
  | .laneRedOr f => Sys2Proof.Machine.execLaneRedOr f s
  | .laneRedXor f => Sys2Proof.Machine.execLaneRedXor f s
  | .laneRedFadd f => Sys2Proof.Machine.execLaneRedFadd f s
  | .laneRedFmax f => Sys2Proof.Machine.execLaneRedFmax f s
  | .laneRedFmin f => Sys2Proof.Machine.execLaneRedFmin f s
  | .mma f => Sys2Proof.Machine.execMma f s
  | .mmloop f => Sys2Proof.Machine.execMmloop f s
  | .mmzero f => Sys2Proof.Machine.execMmzero f s
  | .mmdrain f => Sys2Proof.Machine.execMmdrain f s
  | .mmcheck f => Sys2Proof.Machine.execMmcheck f s
  | .pairWord x y => Sys2Proof.Machine.execPairWord x y s
  | .queueEnable fn queue => Sys2Proof.Machine.execQueueEnable fn queue s
  | .submit fn queue addr => Sys2Proof.Machine.execSubmit fn queue addr s
  | .launchPacket frame => Sys2Proof.Machine.execLaunchPacket frame s
  | .revocationRequest tag req => Sys2Proof.Machine.execRevocationRequest tag req s
  | .resourceSeizure resource reason reqid => Sys2Proof.Machine.execResourceSeizure resource reason reqid s
  | .resourceGrant resource tag world shared => Sys2Proof.Machine.execResourceGrant resource tag world shared s
  | .claimRequest fn core unit => Sys2Proof.Machine.execClaimRequest fn core unit s
  | .claimRelease fn core unit => Sys2Proof.Machine.execClaimRelease fn core unit s
  | .claimDeadline core unit => Sys2Proof.Machine.execClaimDeadline core unit s
  | .haltctlHalt fn core quarter slot => Sys2Proof.Machine.execHaltctlHalt fn core quarter slot s
  | .haltctlResume fn core quarter slot => Sys2Proof.Machine.execHaltctlResume fn core quarter slot s
  | .haltctlStep fn core quarter slot => Sys2Proof.Machine.execHaltctlStep fn core quarter slot s
  | .haltctlSave fn core quarter slot => Sys2Proof.Machine.execHaltctlSave fn core quarter slot s
  | .traceEnable fn core => Sys2Proof.Machine.execTraceEnable fn core s
  | .rollCallEnable fn core quarter => Sys2Proof.Machine.execRollCallEnable fn core quarter s
  | .counterSave fn core => Sys2Proof.Machine.execCounterSave fn core s
  | .counterLoad fn core => Sys2Proof.Machine.execCounterLoad fn core s
  | .strike quarters => Sys2Proof.Machine.execStrike quarters s
  | .selfTest unit number lasting => Sys2Proof.Machine.execSelfTest unit number lasting s
  | .partitionJoin partid => Sys2Proof.Machine.execPartitionJoin partid s
  | .quiesce epoch lost => Sys2Proof.Machine.execQuiesce epoch lost s
  | .ptmExchange hostTime => Sys2Proof.Machine.execPtmExchange hostTime s
  | .telemetryRefresh reading => Sys2Proof.Machine.execTelemetryRefresh reading s
  | .registerWrite fn reg value => Sys2Proof.Machine.execRegisterWrite fn reg value s
  | .fixedLatencyWriteBack => Sys2Proof.Machine.execFixedLatencyWriteBack s
  | .loadDelivery => Sys2Proof.Machine.execLoadDelivery s
  | .atomicReturn => Sys2Proof.Machine.execAtomicReturn s
  | .reductionComplete => Sys2Proof.Machine.execReductionComplete s
  | .storeDelayDeparture => Sys2Proof.Machine.execStoreDelayDeparture s
  | .writePerformed => Sys2Proof.Machine.execWritePerformed s
  | .reductionLinePerformed => Sys2Proof.Machine.execReductionLinePerformed s
  | .matrixCommandStart => Sys2Proof.Machine.execMatrixCommandStart s
  | .matrixStep => Sys2Proof.Machine.execMatrixStep s
  | .matrixCommandComplete => Sys2Proof.Machine.execMatrixCommandComplete s
  | .crewArrival => Sys2Proof.Machine.execCrewArrival s
  | .ferryGo => Sys2Proof.Machine.execFerryGo s
  | .ferryLinePerformed => Sys2Proof.Machine.execFerryLinePerformed s
  | .postcardClose => Sys2Proof.Machine.execPostcardClose s
  | .postcardApplication => Sys2Proof.Machine.execPostcardApplication s
  | .trapEntry => Sys2Proof.Machine.execTrapEntry s
  | .escalation => Sys2Proof.Machine.execEscalation s
  | .dispatcherRound => Sys2Proof.Machine.execDispatcherRound s
  | .headAgeExpiry => Sys2Proof.Machine.execHeadAgeExpiry s
  | .yieldDeadline => Sys2Proof.Machine.execYieldDeadline s
  | .teamSave => Sys2Proof.Machine.execTeamSave s
  | .queuePeriodExpiry => Sys2Proof.Machine.execQueuePeriodExpiry s
  | .budgetOverrun => Sys2Proof.Machine.execBudgetOverrun s
  | .revocationReply => Sys2Proof.Machine.execRevocationReply s
  | .revocationDeadline => Sys2Proof.Machine.execRevocationDeadline s
  | .escalationEnd => Sys2Proof.Machine.execEscalationEnd s
  | .escalationResume => Sys2Proof.Machine.execEscalationResume s
  | .escalationSave => Sys2Proof.Machine.execEscalationSave s
  | .wctlKeyLoad => Sys2Proof.Machine.execWctlKeyLoad s
  | .wctlKeyErase => Sys2Proof.Machine.execWctlKeyErase s
  | .wctlGo => Sys2Proof.Machine.execWctlGo s
  | .rotationLine => Sys2Proof.Machine.execRotationLine s
  | .frameEvict => Sys2Proof.Machine.execFrameEvict s
  | .frameReturn => Sys2Proof.Machine.execFrameReturn s
  | .frameScrub => Sys2Proof.Machine.execFrameScrub s
  | .boot => Sys2Proof.Machine.execBoot s
  | .powerLoss => Sys2Proof.Machine.execPowerLoss s
  | .thermalTrip => Sys2Proof.Machine.execThermalTrip s
  | .attestationReport => Sys2Proof.Machine.execAttestationReport s
  | .rollCallSample => Sys2Proof.Machine.execRollCallSample s
  | .lifetimeFlush => Sys2Proof.Machine.execLifetimeFlush s
  | .errorBlockClear => Sys2Proof.Machine.execErrorBlockClear s
  | .flitCrcFailure => Sys2Proof.Machine.execFlitCrcFailure s
  | .linkUp => Sys2Proof.Machine.execLinkUp s
  | .fabricRequestGiveUp => Sys2Proof.Machine.execFabricRequestGiveUp s
  | .stopped => Sys2Proof.Machine.execStopped s
  | .fabricResume => Sys2Proof.Machine.execFabricResume s
  | .clockReduction => Sys2Proof.Machine.execClockReduction s
  | .clockRaise => Sys2Proof.Machine.execClockRaise s
  | .prefetchFetchEnded => Sys2Proof.Machine.execPrefetchFetchEnded s
  | .linkGoesDown => Sys2Proof.Machine.execLinkGoesDown s
  | .orderlyShutdown => Sys2Proof.Machine.execOrderlyShutdown s

end Sys2Proof.Machine
end

