-- ==== Sys2Proof/Machine/Scope.lean ====
section
/-!
DEFINITION. Machine/Scope.lean: agents, the scopes of R99, and when an access or fence of a scope can synchronise two agents
(R100).
-/

namespace Sys2Proof.Machine

/-- What reads and writes memory (R98): the scalar and lane streams of a team, the engines that act for it, the postcard forwarders,
the host, and what lies beyond the device, by fabric identifier (R449) with the number of its partition. -/
inductive Agent where
  | team (id : Nat)
  | engine (team : Nat)
  /-- the forwarder of a core's subscriptions -/
  | forwarder (core : Nat)
  | host
  | fabric (ident : BitVec 20) (part : Option (BitVec 32))
  | peer (n : Nat)
  deriving DecidableEq, Repr

/-- The team of an agent of this device. -/
def Agent.teamOf : Agent → Option Nat
  | .team id | .engine id => some id
  | _ => none

/-- The partition of the device, when it belongs to one (R450). -/
def State.partition (s : State) : Option (BitVec 32) := if s.partid.getLsbD 63 then some (s.partid.setWidth 32) else none

/-- An agent lies within scope `code`, seen from a team. -/
def State.inScope (s : State) (code : Nat) (id : Nat) (a : Agent) : Bool :=
  let t := s.teamAt id
  match a with
  | .team x | .engine x =>
    let u := s.teamAt x
    x == id || (decide (1 ≤ code) && u.group == t.group) || (decide (2 ≤ code) && (s.gangOf t.group).contains u.group)
      || (decide (3 ≤ code) && u.core == t.core) || decide (4 ≤ code)
  | .forwarder c => (decide (3 ≤ code) && c == t.core) || decide (4 ≤ code)
  | .host => decide (5 ≤ code)
  | .fabric ident part =>
    (decide (6 ≤ code) && s.ownPool ident.toNat) || (decide (7 ≤ code) && s.partition.isSome && part == s.partition) || decide (8 ≤ code)
  | .peer _ => decide (9 ≤ code)

/-- The scope of an agent: an engine's is that of the team for which it acts. Of forwarders and of agents outside the device the spec gives no
view: the model takes them to have every agent in scope (log entry 77). -/
def State.seenFrom (s : State) (code : Nat) (a b : Agent) : Bool :=
  match a.teamOf with
  | some id => s.inScope code id b
  | none => true

/-- An access or fence of the scope can synchronise the two agents: each lies within the other's scope (R100). -/
def State.mutualScope (s : State) (code : Nat) (a b : Agent) : Bool := s.seenFrom code a b && s.seenFrom code b a

end Sys2Proof.Machine
end

