-- ==== Sys2Proof/Machine/Acts.lean ====
section
/-!
DEFINITION. Machine/Acts.lean: what moves in a step (log entry 1): a scalar instruction, the head of a lane queue, a hardware
event, or something outside the device; what moves when nothing is scheduled; and the passing of a cycle.
-/

namespace Sys2Proof.Machine

/-! ### Instructions -/

/-- The quarter has stopped issuing (R436), or replays (R435). -/
def State.quarterHeld (s : State) (t : Team) : Bool := Store.get false s.held t.gq || s.replaying t.gq

/-- Fetch, decode and run the next scalar instruction. Where an `lrun` is part-way through (R41) the word at pc has to be an `lrun`
or `lrunr` still, as R45 asks of the word at which `eret` resumes (log entry 82). -/
def fetchIssue (s : State) : Out :=
  let t := s.team
  match s.fetchAt t t.pc.toNat 4 with
  | .fault f vec =>
    .next (if s.badTarget t none then s.trap cBadExt (t.came.getD 0) else s.trapHere f.cause f.scalarVal vec)
  | .waits keys => .next (s.sendTouched s.cur keys)
  | .lost => .next (s.trapHere cFabric t.pc [])
  | .poisoned keys => .next ((s.checkTags keys).escalate 0x81 { t.scalarPoint 0x81 t.pc with lidx := t.lidxWord })
  | .word w =>
    let i := decodeScalar w
    if wordOk i && s.badTarget t (some i) then .next (s.trap cBadExt (t.came.getD 0))
    else if t.lidx.isSome && (s.headerOf t w).isNone then .next (s.trapHere cIllegal (BitVec.ofNat 64 w) [])
    else exec i (s.setTeam { t with came := none })

/-- The scalar stream issues: the rest of a block whose header has been read (R37), an instruction past its instant (R185), or the
next word. -/
def scalarIssue (s : State) : Out :=
  let t := s.team
  match t.lidx, t.lhdr, t.going with
  | some i, some b, _ => .next (s.enqueueFrom b (laneQueueSize - t.laneq.length) i)
  | _, _, some w => exec (decodeScalar w.toNat) s
  | _, _, none => fetchIssue s

/-- With what follows it. -/
def scalarRun (s : State) : Out :=
  match scalarIssue s with
  | .next s' => .next (s'.afterScalar { s.team with came := none })
  | x => x

/-- Ranks 1 to 7 of R404 where the scalar stream stands: a debugger's halt (R424, R425) lets the instruction's own fault go first; then
the pending causes; then a breakpoint that only traces, and the instruction. -/
def scalarGo (s : State) : Out :=
  let t := s.team
  let b := if t.lidx.isNone && !t.pastPoint then s.breakpoint none else (s, false)
  if s.haltsAt then
    match scalarIssue s with
    | .next s' => .next (if Team.trapped s.team s'.team then s'.upd fun t => { t with haltReq := true } else if b.2 then b.1 else s')
    | x => x
  else match s.takeCause with
    | some s' => .next s'
    | none => if t.causeWaits then .next s else scalarRun b.1

/-- A parked team whose pending cause can be taken leaves its park; the trap names the `yield` or `mwait` (R407). -/
def State.unpark (s : State) : State :=
  let t := s.team
  if t.park.isSome && t.laneq.isEmpty && t.causeWaits && t.saveReq.isNone && !t.halted && !s.checkpointHeld t then s.setTeam { t with park := none }
  else s

/-- The scalar stream of the current team. -/
def scalarAct (s : State) : Out :=
  let s := s.unpark
  let t := s.team
  if t.haltHere then .next (s.setTeam t.halt)
  else if s.quarterHeld t || !(t.runs || (t.saveReq == some 2 && !t.saveStopped && s.haltBeforeSave)) then .next s
  else scalarGo s

/-! ### Pipes X and Y (R49, R314) -/

def State.pipe (s : State) (gq p : Nat) : Pipe := Store.get {} s.pipes (2 * gq + p)

/-- The pipes whose selector may choose a word: a pair word issues when X selects its team, classes 8 to A issue on Y only. -/
def selectors (w : Nat) : List Nat :=
  let c := fld w 92 4
  if c = 0xF then [0] else if 8 ≤ c ∧ c ≤ 0xA then [1] else [0, 1]

/-- The head of a team's lane queue is an exact point at which a pending cause is taken, or, while a quiesce drains, held (R404,
R456). A save other than a forced one carries pending causes with it (R401). -/
def Team.stopsAtHead (t : Team) : Bool :=
  t.headPoint.isSome && t.trapReq.isNone && (t.saveReq.isNone || t.saveReq == some 2) && t.causeWaits

/-- The head of a team's lane queue can issue in this cycle on a pipe. -/
def State.laneReady (s : State) (p : Nat) (t : Team) : Bool :=
  match t.laneq with
  | [] => false
  | e :: _ =>
    let w := e.word.toNat
    let cls := fld w 92 4
    (selectors w).contains p && t.life == .resident && !t.halted && !t.saveStopped && !t.haltHere && !t.stopsAtHead && decide (t.laneFree ≤ s.cycle)
      && (cls != 0xF || decide ((s.pipe t.gq 1).free ≤ s.cycle))
      && !(cls == 0xA && (t.tokenFull (lanePost w) || decide (16 ≤ (s.sequencer t.gq).length)))
      && !(t.tokenFull (lanePost w) && !(t.passesFrom false s.free s.cycle (fld w 80 4)).isEmpty)

/-- The resident slot that pipe `p` of a quarter selects: the next one that holds a Ready team, in round-robin order. -/
def State.picks (s : State) (gq p : Nat) : Option Nat :=
  let x := s.pipe gq p
  let ready := (s.teams.filter fun t => t.2.gq == gq && s.laneReady p t.2).map fun t => t.2.slot
  if s.cycle < x.free then none else nextSlot ready (some x.last)

/-- The pipe that selects a team for a word. -/
def State.selectedBy (s : State) (t : Team) (w : Nat) : Option Nat :=
  (selectors w).find? fun p => s.picks t.gq p == some t.slot

/-- A pipe has selected a team: the pointer moves on, and the passes take the pipe, and a pair word the other one too. -/
def State.takePipe (s : State) (gq p slot until' : Nat) (pair : Bool) : State :=
  let ps := Store.set {} s.pipes (2 * gq + p) { last := slot, free := until' }
  { s with pipes := if pair then Store.set {} ps (2 * gq + 1) { (Store.get {} ps (2 * gq + 1) : Pipe) with free := until' } else ps }

/-- The head of a team's lane queue issues on the pipe that selects the team; nothing happens when none does. -/
def laneIssue (t : Team) (e : LaneEntry) (s : State) : Out :=
  let w := e.word.toNat
  match s.selectedBy t w with
  | none => .next s
  | some p => match decodeLane w with
    | .error _ => .next s
    | .ok i => match exec i s with
      | .next s' => .next ((s'.takePipe t.gq p t.slot (max s'.team.lastIssue (s.cycle + 1)) (fld w 92 4 == 0xF)).afterLane t e)
      | x => x

/-- The head of the current team's lane queue. -/
def laneAct (s : State) : Out :=
  let t := s.team
  if t.life ≠ .resident ∨ t.halted ∨ t.saveStopped ∨ s.quarterHeld t then .next s
  else if t.haltHere then .next (s.setTeam t.halt)
  else match t.laneq with
    | [] => .next s
    | e :: _ =>
      if t.stopsAtHead then .next (s.takeCause.getD s) else laneIssue t e s

/-! ### Outside the device -/

/-- Management assigns a quarter to a world that has keys, while no team is resident on it (R394, R409). -/
def State.assignQuarter (s : State) (q world : Nat) : State :=
  let w : BitVec 8 := BitVec.ofNat 8 world
  if 192 ≤ q ∨ !(s.teamsOn q).isEmpty ∨ (s.slotOf w).isNone then s
  else { s with worlds := Store.set 0 s.worlds q w }

/-- Management creates a tenant, or gives it a new runtime page, a frame that the tenant owns (R388). -/
def State.createTenant (s : State) (tag : Nat) (page : Word) (frame : Nat) : State :=
  if frame % 2 ^ 16 ≠ 0 then s else s.putTenant tag { s.tenantAt tag with page := page, frame := some frame }

/-- An image is written to a slot of the module flash. -/
def State.writeFlash (s : State) (slot : Nat) (image : FwImage) : State :=
  { s with flash := { s.flash with images := Store.insert slot image (Store.erase s.flash.images slot) } }

/-- Writes from outside the device in their order: the directory holds one whose line an engine owns, and what touches a byte of
one that is held, until the engine has written (R114). -/
def State.tryWrites (s : State) : List (List (Nat × Byte)) → State
  | [] => s
  | bs :: rest =>
    let held := bs.any fun b => s.engineLines.any (fun l => l.line == lineOf b.1 && onDevice b.1)
      || s.heldWrites.any fun w => w.any fun x => x.1 == b.1
    (if held then { s with heldWrites := s.heldWrites ++ [bs] } else s.perform bs true).tryWrites rest

/-- The host, a pool node or a remote peer writes; what was held before goes first. -/
def State.outsideWrite (s : State) (bs : List (Nat × Byte)) : State :=
  { s with heldWrites := [] }.tryWrites (s.heldWrites ++ [bs])

/-- What an entry of the script does. -/
def act (a : Act) (s : State) : Out :=
  match a with
  | .scalar id => scalarAct { s with cur := id }
  | .lane id => laneAct { s with cur := id }
  | .event i u n => exec i { s with unit := u, item := n }
  | .external bs => .next (s.outsideWrite bs)
  | .upset tile elem flip => .next (s.upsetTile tile elem flip)
  | .upsetCount tile elem => .next (s.upsetParity tile elem)
  | .spoil sec u n shared => .next (s.spoilSector sec u n shared)
  | .correct sec u n shared => .next (s.correctError sec u n shared)
  | .tamper line cipher tag => .next (s.tamper line cipher tag)
  | .bar fn two off x => s.writeBar fn two off x
  | .tagFails line => .next (s.tagFails line)
  | .provision helper certificate =>
    .next { s with flash := { s.flash with helper := helper, certificate := certificate } }
  | .tenant tag page frame => .next (s.createTenant tag page frame)
  | .quarterWorld q w => .next (s.assignQuarter q w)
  | .flashImage slot image => .next (s.writeFlash slot image)
  | .askPreempt id => .next (s.askCrew id)
  | .claims core unit fns => .next (s.claimTogether core unit fns)
  | .authenticate port peer =>
    .next { s with ports := (port, peer) :: s.ports.filter fun p => p.1 != port }

/-! ### What moves when nothing is scheduled -/

/-- The delivery event of an operation. -/
def Pend.event (p : Pend) : Option Instr :=
  match p.kind with
  | .fixed => some .fixedLatencyWriteBack
  | .load => some .loadDelivery
  | .atomic => some .atomicReturn
  | .reduce => some .reductionComplete
  | .prefetch => some .prefetchFetchEnded
  | .matrix | .store => none

/-- What a team can do next, and what is under way for it. -/
def Team.acts (id : Nat) (t : Team) : List Act :=
  (if t.life ≠ .resident then []
   else
    [.scalar id, .lane id, .event .trapEntry id 0, .event .storeDelayDeparture id 0, .event .teamSave id 0,
     .event .yieldDeadline id 0, .event .escalation id 0])
      ++ (t.pend.filterMap fun p => p.event.map fun i => Act.event i id p.id)
      ++ (t.sdq.map fun w => Act.event .writePerformed id w.id)

/-- Everything that may move on its own: the scheduler takes them in turn. -/
def State.acts (s : State) : List Act :=
  if !s.boot.done then [.event .boot 0 0]
  else
    (s.teams.flatMap fun t => t.2.acts t.1)
      ++ (s.seqs.flatMap fun q =>
          [.event .crewArrival q.1 0, .event .matrixCommandStart q.1 0, .event .matrixStep q.1 0,
           .event .matrixCommandComplete q.1 0])
      ++ (s.redbuf.flatMap fun c => c.2.map fun l => Act.event .reductionLinePerformed c.1 l.id)
      ++ (s.channels.flatMap fun c => [Act.event .ferryGo c.1 0] ++ (match c.2.run with
          | some r => r.lines.map fun l => Act.event .ferryLinePerformed c.1 l.1
          | none => []))
      ++ (if s.heldWrites.isEmpty then [] else [Act.external []])
      ++ (s.posts.flatMap fun p => [Act.event .postcardClose p.1 0, .event .postcardApplication p.1 0])
      ++ (s.queues.flatMap fun q =>
          [Act.event .queuePeriodExpiry q.1 0, .event .budgetOverrun q.1 0, .event .headAgeExpiry q.1 0])
      ++ (s.tenants.flatMap fun t =>
          [Act.event .revocationReply t.1 0, .event .revocationDeadline t.1 0, .event .attestationReport t.1 0])
      ++ (s.tests.map fun x => Act.event (.selfTest x.1 x.2.1 (s.testFails x.1 x.2.1)) 0 0)
      ++ [.event .dispatcherRound 0 0, .event .rotationLine 0 0, .event .lifetimeFlush 0 0, .event .clockReduction 0 0,
          .event .clockRaise 0 0]

/-- The next of them. -/
def State.nextAct (s : State) : Option Act := (s.acts)[s.cycle % s.acts.length]?

/-! ### Time -/

/-- The state that an event leaves, when it stops at none. -/
def State.on (s : State) (unit : Nat) (f : State → Out) : State :=
  match f { s with unit := unit } with
  | .next s' => { s' with unit := s.unit }
  | _ => s

/-- The samples that are due in the cycle that ends (R428). -/
def State.samples (s : State) : State :=
  s.dbgs.foldl (fun s d => d.2.samplers.foldl (fun (s : State) q => s.on (4 * d.1 + q.1) execRollCallSample) s) s

/-- The clocks of a queue: its budget, and then, at a deadline, its period, and the age of its head (R379, R380). -/
def State.queueTimers (s : State) (n : Nat) : State :=
  ((s.on n execBudgetOverrun).on n execQueuePeriodExpiry).on n execHeadAgeExpiry

/-- The deadline of a request has passed (R391). -/
def State.requestTimer (s : State) (tag : Nat) : State :=
  if (s.tenantAt tag).posted.any fun p => decide (p.deadline ≤ s.now) then s.on tag execRevocationDeadline else s

/-- The deadlines of claims on a core (R423). -/
def State.claimTimers (s : State) (core : Nat) : State :=
  [DbgUnit.dbg, .ctr, .rc].foldl (fun s u => s.on s.unit (execClaimDeadline core u)) s

/-- What happens because its time has come, and the dispatcher's round when one is due (R380). -/
def State.timers (s : State) : State :=
  let s := s.queues.foldl (fun s q => s.queueTimers q.1) s
  let s := s.teams.foldl (fun s t => if t.2.deadline.isSome then s.on t.1 execYieldDeadline else s) s
  let s := s.dbgs.foldl (fun s d => s.claimTimers d.1) s
  let s := s.tenants.foldl (fun s t => s.requestTimer t.1) s
  let s := s.posts.foldl (fun s p => if p.2.openCard.isSome then s.on p.1 execPostcardClose else s) s
  let s := (s.endGrids.retryStiles.requestWanted.runTests.noteOver).refresh
  if s.roundDue then s.round else s

/-- The end of a cycle: samples, time, charges, counters, what is due, replays that are over and the undo logs (R435), and a new value
for the free choices (R8). -/
def State.endCycle (s : State) : State := s.samples.passTime.charge.countCycles.countEnded.timers.endReplays.logUndo.fresh

/-- A cycle passes. -/
def tick (o : Out) : Out :=
  match o with
  | .next s => .next s.endCycle
  | x => x

/-- One step: the head of the script, or, with an empty script, what moves on its own. -/
def stepOf (s : State) : Out :=
  match s.script with
  | a :: rest => tick (act a { s with script := rest })
  | [] => match s.nextAct with
    | some a => tick (act a s)
    | none => tick (.next s)

/-! ### Placing an instruction -/

/-- The team, translation and memory from which the next step fetches a word at 0x10000, or the lane queue that it heads. -/
def State.placed (s : State) (nbits w : Nat) : State :=
  let t : Team := { life := .resident, pc := 0x10000#64, live := 32 }
  if nbits ≤ 32 then
    { s with script := [.scalar 0], cur := 0, teams := [(0, t)], pipes := [], tlb := [(0, { w0 := 0x1000B#64, w1 := 0x10000#64 })],
             mem := Store.setAll 0 s.mem (spread (keysFrom 0x10000 4) w) }
  else
    { s with script := [.lane 0], cur := 0, pipes := [], teams := [(0, { t with laneq := [{ word := BitVec.ofNat 96 w }] })] }

end Sys2Proof.Machine
end

