-- ==== Sys2Proof/Laws/Store.lean ====
section
/-!
SUPPORT. Laws/Store.lean: reading a table after a write, and the canonical form, which every operation on a table keeps.
-/

namespace Sys2Proof.Machine

variable {α : Type}

theorem Store.get_erase_same (d : α) (m : List (Nat × α)) (k : Nat) : Store.get d (Store.erase m k) k = d := by
  induction m with
  | nil => rfl
  | cons p m ih =>
    by_cases h : p.1 = k <;> simp_all [Store.erase, Store.get]

theorem Store.get_erase_other (d : α) (m : List (Nat × α)) {k j : Nat} (h : j ≠ k) :
    Store.get d (Store.erase m k) j = Store.get d m j := by
  induction m with
  | nil => rfl
  | cons p m ih =>
    by_cases hp : p.1 = k
    · have : p.1 ≠ j := by omega
      simp_all [Store.erase, Store.get]
    · simp_all [Store.erase, Store.get]

theorem Store.get_insert_same (d : α) (k : Nat) (v : α) (m : List (Nat × α)) (h : ∀ p ∈ m, p.1 ≠ k) :
    Store.get d (Store.insert k v m) k = v := by
  induction m with
  | nil => simp [Store.insert, Store.get]
  | cons p m ih =>
    have hp : p.1 ≠ k := h p (by simp)
    have hm : ∀ q ∈ m, q.1 ≠ k := fun q hq => h q (by simp [hq])
    by_cases hk : k < p.1 <;> simp [Store.insert, Store.get, hk, hp, ih hm]

theorem Store.get_insert_other (d : α) {k j : Nat} (v : α) (m : List (Nat × α)) (h : j ≠ k) :
    Store.get d (Store.insert k v m) j = Store.get d m j := by
  induction m with
  | nil => simp [Store.insert, Store.get, Ne.symm h]
  | cons p m ih =>
    by_cases hk : k < p.1 <;> simp [Store.insert, Store.get, hk, Ne.symm h, ih]

theorem Store.not_mem_erase (m : List (Nat × α)) (k : Nat) : ∀ p ∈ Store.erase m k, p.1 ≠ k := by
  intro p hp
  simpa using (List.mem_filter.mp hp).2

variable [DecidableEq α]

/-- A table reads back what was written to the key. -/
@[simp] theorem Store.get_set_same (d : α) (m : List (Nat × α)) (k : Nat) (v : α) :
    Store.get d (Store.set d m k v) k = v := by
  unfold Store.set
  split
  · next h => rw [Store.get_erase_same, h]
  · exact Store.get_insert_same d k v _ (Store.not_mem_erase m k)

/-- A write leaves every other key alone. -/
theorem Store.get_set_other (d : α) (m : List (Nat × α)) {k j : Nat} (v : α) (h : j ≠ k) :
    Store.get d (Store.set d m k v) j = Store.get d m j := by
  unfold Store.set
  split
  · exact Store.get_erase_other d m h
  · rw [Store.get_insert_other d v _ h, Store.get_erase_other d m h]

theorem Store.get_set (d : α) (m : List (Nat × α)) (k j : Nat) (v : α) :
    Store.get d (Store.set d m k v) j = if j = k then v else Store.get d m j := by
  split
  · next h => rw [h, Store.get_set_same]
  · next h => exact Store.get_set_other d m v h

/-- Keys that a list of writes does not name keep their values. -/
theorem Store.get_setAll_other (d : α) (ps : List (Nat × α)) (m : List (Nat × α)) (j : Nat) (h : ∀ p ∈ ps, p.1 ≠ j) :
    Store.get d (Store.setAll d m ps) j = Store.get d m j := by
  induction ps generalizing m with
  | nil => rfl
  | cons p ps ih =>
    have hp : p.1 ≠ j := h p (by simp)
    rw [Store.setAll, ih _ fun q hq => h q (by simp [hq]), Store.get_set_other d m p.2 (Ne.symm hp)]

/-! ### The canonical form -/

/-- The canonical form, as two plain facts. -/
theorem Store.wf_iff (d : α) (m : List (Nat × α)) :
    Store.wf d m = true ↔ m.Pairwise (fun a b => a.1 < b.1) ∧ ∀ p ∈ m, p.2 ≠ d := by
  induction m with
  | nil => simp [Store.wf]
  | cons p m ih =>
    cases m with
    | nil => simp [Store.wf]
    | cons q m =>
      simp only [Store.wf, Bool.and_eq_true, decide_eq_true_eq, ih, List.pairwise_cons, List.mem_cons]
      constructor
      · rintro ⟨⟨h1, h2⟩, ⟨h3, h4⟩, h5⟩
        refine ⟨⟨?_, h3, h4⟩, ?_⟩
        · rintro a (rfl | ha)
          · exact h2
          · exact lt_trans h2 (h3 a ha)
        · rintro a (rfl | ha)
          · exact h1
          · exact h5 a ha
      · rintro ⟨⟨h1, h3, h4⟩, h5⟩
        exact ⟨⟨h5 p (by simp), h1 q (by simp)⟩, ⟨h3, h4⟩, fun a ha => h5 a (by simp [ha])⟩

/-- Any part of a canonical table is canonical. -/
theorem Store.wf_filter (d : α) (f : Nat × α → Bool) (m : List (Nat × α)) (h : Store.wf d m = true) :
    Store.wf d (m.filter f) = true := by
  rw [Store.wf_iff] at h ⊢
  exact ⟨h.1.filter f, fun p hp => h.2 p (List.mem_of_mem_filter hp)⟩

/-- Changing the values keeps the canonical form, where no value turns into the default. -/
theorem Store.wf_map (d : α) (f : Nat × α → Nat × α) (m : List (Nat × α)) (hk : ∀ p, (f p).1 = p.1)
    (hd : ∀ p, (f p).2 = d → p.2 = d) (h : Store.wf d m = true) : Store.wf d (m.map f) = true := by
  rw [Store.wf_iff] at h ⊢
  refine ⟨List.pairwise_map.mpr (h.1.imp fun {a b} hab => by rw [hk, hk]; exact hab), ?_⟩
  intro p hp
  obtain ⟨q, hq, rfl⟩ := List.mem_map.mp hp
  exact fun he => h.2 q hq (hd q he)

omit [DecidableEq α] in
theorem Store.mem_insert {k : Nat} {v : α} {m : List (Nat × α)} {p : Nat × α} (h : p ∈ Store.insert k v m) :
    p = (k, v) ∨ p ∈ m := by
  induction m with
  | nil => simpa [Store.insert] using h
  | cons q m ih =>
    unfold Store.insert at h
    split at h
    · simpa using h
    · rcases List.mem_cons.mp h with h | h
      · exact .inr (by simp [h])
      · rcases ih h with h | h
        · exact .inl h
        · exact .inr (by simp [h])

omit [DecidableEq α] in
theorem Store.pairwise_insert (k : Nat) (v : α) (m : List (Nat × α)) (h : m.Pairwise fun a b => a.1 < b.1)
    (hk : ∀ p ∈ m, p.1 ≠ k) : (Store.insert k v m).Pairwise fun a b => a.1 < b.1 := by
  induction m with
  | nil => simp [Store.insert]
  | cons q m ih =>
    rw [List.pairwise_cons] at h
    unfold Store.insert
    split
    · next hlt =>
      refine List.pairwise_cons.mpr ⟨?_, List.pairwise_cons.mpr h⟩
      intro a ha
      rcases List.mem_cons.mp ha with rfl | ha
      · exact hlt
      · exact lt_trans hlt (h.1 a ha)
    · next hlt =>
      refine List.pairwise_cons.mpr ⟨?_, ih h.2 fun p hp => hk p (by simp [hp])⟩
      intro a ha
      rcases Store.mem_insert ha with rfl | ha
      · have := hk q (by simp)
        simp only at hlt ⊢
        omega
      · exact h.1 a ha

/-- A write keeps the canonical form. -/
theorem Store.wf_set (d : α) (m : List (Nat × α)) (k : Nat) (v : α) (h : Store.wf d m = true) :
    Store.wf d (Store.set d m k v) = true := by
  have he : Store.wf d (Store.erase m k) = true := Store.wf_filter d _ m h
  unfold Store.set
  split
  · exact he
  · next hv =>
    rw [Store.wf_iff] at he ⊢
    refine ⟨Store.pairwise_insert k v _ he.1 (Store.not_mem_erase m k), ?_⟩
    intro p hp
    rcases Store.mem_insert hp with rfl | hp
    · exact hv
    · exact he.2 p hp

theorem Store.wf_setAll (d : α) (ps : List (Nat × α)) (m : List (Nat × α)) (h : Store.wf d m = true) :
    Store.wf d (Store.setAll d m ps) = true := by
  induction ps generalizing m with
  | nil => exact h
  | cons p ps ih => exact ih _ (Store.wf_set d m p.1 p.2 h)

/-- Two canonical tables that read alike are equal. -/
theorem Store.ext_of_wf (d : α) (m n : List (Nat × α)) (hm : Store.wf d m = true) (hn : Store.wf d n = true)
    (h : ∀ k, Store.get d m k = Store.get d n k) : m = n := by
  have get_none (l : List (Nat × α)) (k : Nat) (hl : ∀ p ∈ l, p.1 ≠ k) : Store.get d l k = d := by
    induction l with
    | nil => rfl
    | cons p l ih =>
      simp [Store.get, hl p (by simp), ih fun q hq => hl q (by simp [hq])]
  induction m generalizing n with
  | nil =>
    cases n with
    | nil => rfl
    | cons q n =>
      have := h q.1
      simp [Store.get] at this
      exact absurd this.symm ((Store.wf_iff d _).mp hn |>.2 q (by simp))
  | cons p m ih =>
    rw [Store.wf_iff, List.pairwise_cons] at hm
    cases n with
    | nil =>
      have := h p.1
      simp [Store.get] at this
      exact absurd this (hm.2 p (by simp))
    | cons q n =>
      rw [Store.wf_iff, List.pairwise_cons] at hn
      have hpq : p.1 = q.1 := by
        by_contra hne
        rcases Nat.lt_or_gt_of_ne hne with hlt | hlt
        · have := h p.1
          rw [get_none (q :: n) p.1 (by
            intro a ha
            rcases List.mem_cons.mp ha with rfl | ha
            · omega
            · have := hn.1.1 a ha; omega)] at this
          simp [Store.get] at this
          exact hm.2 p (by simp) this
        · have := h q.1
          rw [get_none (p :: m) q.1 (by
            intro a ha
            rcases List.mem_cons.mp ha with rfl | ha
            · omega
            · have := hm.1.1 a ha; omega)] at this
          simp [Store.get] at this
          exact hn.2 q (by simp) this.symm
      have hv : p.2 = q.2 := by
        have := h p.1
        simpa [Store.get, hpq] using this
      have hrest : m = n := by
        refine ih n ((Store.wf_iff d m).mpr ⟨hm.1.2, fun a ha => hm.2 a (by simp [ha])⟩)
          ((Store.wf_iff d n).mpr ⟨hn.1.2, fun a ha => hn.2 a (by simp [ha])⟩) fun k => ?_
        by_cases hk : p.1 = k
        · rw [get_none m k (fun a ha => by have := hm.1.1 a ha; omega),
            get_none n k (fun a ha => by have := hn.1.1 a ha; omega)]
        · have := h k
          simpa [Store.get, hk, ← hpq] using this
      rw [hrest, Prod.ext hpq hv]

end Sys2Proof.Machine
end

