-- ==== Sys2Proof/Laws/State.lean ====
section
/-!
SUPPORT. Laws/State.lean: what the updates of State and of Team change and what they leave alone, one lemma per field and
update, so that no proof unfolds a record update.
-/

namespace Sys2Proof.Machine


/-! ### A table of the machine is written -/

@[simp] theorem State.putTeam_script (s : State) (i : Nat) (t : Team) : (s.putTeam i t).script = s.script := rfl
@[simp] theorem State.putTeam_cur (s : State) (i : Nat) (t : Team) : (s.putTeam i t).cur = s.cur := rfl
@[simp] theorem State.putTeam_unit (s : State) (i : Nat) (t : Team) : (s.putTeam i t).unit = s.unit := rfl
@[simp] theorem State.putTeam_item (s : State) (i : Nat) (t : Team) : (s.putTeam i t).item = s.item := rfl
@[simp] theorem State.putTeam_free (s : State) (i : Nat) (t : Team) : (s.putTeam i t).free = s.free := rfl
@[simp] theorem State.putTeam_cycle (s : State) (i : Nat) (t : Team) : (s.putTeam i t).cycle = s.cycle := rfl
@[simp] theorem State.putTeam_ticks (s : State) (i : Nat) (t : Team) : (s.putTeam i t).ticks = s.ticks := rfl
@[simp] theorem State.putTeam_now (s : State) (i : Nat) (t : Team) : (s.putTeam i t).now = s.now := rfl
@[simp] theorem State.putTeam_tickRest (s : State) (i : Nat) (t : Team) : (s.putTeam i t).tickRest = s.tickRest := rfl
@[simp] theorem State.putTeam_slew (s : State) (i : Nat) (t : Team) : (s.putTeam i t).slew = s.slew := rfl
@[simp] theorem State.putTeam_mem (s : State) (i : Nat) (t : Team) : (s.putTeam i t).mem = s.mem := rfl
@[simp] theorem State.putTeam_poison (s : State) (i : Nat) (t : Team) : (s.putTeam i t).poison = s.poison := rfl
@[simp] theorem State.putTeam_groups (s : State) (i : Nat) (t : Team) : (s.putTeam i t).groups = s.groups := rfl
@[simp] theorem State.putTeam_grids (s : State) (i : Nat) (t : Team) : (s.putTeam i t).grids = s.grids := rfl
@[simp] theorem State.putTeam_tlb (s : State) (i : Nat) (t : Team) : (s.putTeam i t).tlb = s.tlb := rfl
@[simp] theorem State.putTeam_owners (s : State) (i : Nat) (t : Team) : (s.putTeam i t).owners = s.owners := rfl
@[simp] theorem State.putTeam_worlds (s : State) (i : Nat) (t : Team) : (s.putTeam i t).worlds = s.worlds := rfl
@[simp] theorem State.putTeam_tiles (s : State) (i : Nat) (t : Team) : (s.putTeam i t).tiles = s.tiles := rfl
@[simp] theorem State.putTeam_seqs (s : State) (i : Nat) (t : Team) : (s.putTeam i t).seqs = s.seqs := rfl
@[simp] theorem State.putTeam_pipes (s : State) (i : Nat) (t : Team) : (s.putTeam i t).pipes = s.pipes := rfl
@[simp] theorem State.putTeam_redbuf (s : State) (i : Nat) (t : Team) : (s.putTeam i t).redbuf = s.redbuf := rfl
@[simp] theorem State.putTeam_channels (s : State) (i : Nat) (t : Team) : (s.putTeam i t).channels = s.channels := rfl
@[simp] theorem State.putTeam_templates (s : State) (i : Nat) (t : Team) : (s.putTeam i t).templates = s.templates := rfl
@[simp] theorem State.putTeam_posts (s : State) (i : Nat) (t : Team) : (s.putTeam i t).posts = s.posts := rfl
@[simp] theorem State.putTeam_remotes (s : State) (i : Nat) (t : Team) : (s.putTeam i t).remotes = s.remotes := rfl
@[simp] theorem State.putTeam_routes (s : State) (i : Nat) (t : Team) : (s.putTeam i t).routes = s.routes := rfl
@[simp] theorem State.putTeam_links (s : State) (i : Nat) (t : Team) : (s.putTeam i t).links = s.links := rfl
@[simp] theorem State.putTeam_fabricHold (s : State) (i : Nat) (t : Team) : (s.putTeam i t).fabricHold = s.fabricHold := rfl
@[simp] theorem State.putTeam_quiesce (s : State) (i : Nat) (t : Team) : (s.putTeam i t).quiesce = s.quiesce := rfl
@[simp] theorem State.putTeam_releases (s : State) (i : Nat) (t : Team) : (s.putTeam i t).releases = s.releases := rfl
@[simp] theorem State.putTeam_stileWaits (s : State) (i : Nat) (t : Team) : (s.putTeam i t).stileWaits = s.stileWaits := rfl
@[simp] theorem State.putTeam_partid (s : State) (i : Nat) (t : Team) : (s.putTeam i t).partid = s.partid := rfl
@[simp] theorem State.putTeam_queues (s : State) (i : Nat) (t : Team) : (s.putTeam i t).queues = s.queues := rfl
@[simp] theorem State.putTeam_launches (s : State) (i : Nat) (t : Team) : (s.putTeam i t).launches = s.launches := rfl
@[simp] theorem State.putTeam_replies (s : State) (i : Nat) (t : Team) : (s.putTeam i t).replies = s.replies := rfl
@[simp] theorem State.putTeam_retired (s : State) (i : Nat) (t : Team) : (s.putTeam i t).retired = s.retired := rfl
@[simp] theorem State.putTeam_tenants (s : State) (i : Nat) (t : Team) : (s.putTeam i t).tenants = s.tenants := rfl
@[simp] theorem State.putTeam_escBase (s : State) (i : Nat) (t : Team) : (s.putTeam i t).escBase = s.escBase := rfl
@[simp] theorem State.putTeam_escHead (s : State) (i : Nat) (t : Team) : (s.putTeam i t).escHead = s.escHead := rfl
@[simp] theorem State.putTeam_escTail (s : State) (i : Nat) (t : Team) : (s.putTeam i t).escTail = s.escTail := rfl
@[simp] theorem State.putTeam_keys (s : State) (i : Nat) (t : Team) : (s.putTeam i t).keys = s.keys := rfl
@[simp] theorem State.putTeam_nextKey (s : State) (i : Nat) (t : Team) : (s.putTeam i t).nextKey = s.nextKey := rfl
@[simp] theorem State.putTeam_versions (s : State) (i : Nat) (t : Team) : (s.putTeam i t).versions = s.versions := rfl
@[simp] theorem State.putTeam_exports (s : State) (i : Nat) (t : Team) : (s.putTeam i t).exports = s.exports := rfl
@[simp] theorem State.putTeam_tampers (s : State) (i : Nat) (t : Team) : (s.putTeam i t).tampers = s.tampers := rfl
@[simp] theorem State.putTeam_boot (s : State) (i : Nat) (t : Team) : (s.putTeam i t).boot = s.boot := rfl
@[simp] theorem State.putTeam_flash (s : State) (i : Nat) (t : Team) : (s.putTeam i t).flash = s.flash := rfl
@[simp] theorem State.putTeam_dbgs (s : State) (i : Nat) (t : Team) : (s.putTeam i t).dbgs = s.dbgs := rfl
@[simp] theorem State.putTeam_heldWrites (s : State) (i : Nat) (t : Team) : (s.putTeam i t).heldWrites = s.heldWrites := rfl
@[simp] theorem State.putTeam_undo (s : State) (i : Nat) (t : Team) : (s.putTeam i t).undo = s.undo := rfl
@[simp] theorem State.putTeam_replays (s : State) (i : Nat) (t : Team) : (s.putTeam i t).replays = s.replays := rfl
@[simp] theorem State.putTeam_rollbacks (s : State) (i : Nat) (t : Team) : (s.putTeam i t).rollbacks = s.rollbacks := rfl
@[simp] theorem State.putTeam_held (s : State) (i : Nat) (t : Team) : (s.putTeam i t).held = s.held := rfl
@[simp] theorem State.putTeam_history (s : State) (i : Nat) (t : Team) : (s.putTeam i t).history = s.history := rfl
@[simp] theorem State.putTeam_tests (s : State) (i : Nat) (t : Team) : (s.putTeam i t).tests = s.tests := rfl
@[simp] theorem State.putTeam_lifetime (s : State) (i : Nat) (t : Team) : (s.putTeam i t).lifetime = s.lifetime := rfl
@[simp] theorem State.putTeam_flushed (s : State) (i : Nat) (t : Team) : (s.putTeam i t).flushed = s.flushed := rfl
@[simp] theorem State.putTeam_errors (s : State) (i : Nat) (t : Team) : (s.putTeam i t).errors = s.errors := rfl
@[simp] theorem State.putTeam_times (s : State) (i : Nat) (t : Team) : (s.putTeam i t).times = s.times := rfl
@[simp] theorem State.putTeam_telemetry (s : State) (i : Nat) (t : Team) : (s.putTeam i t).telemetry = s.telemetry := rfl
@[simp] theorem State.putTeam_shown (s : State) (i : Nat) (t : Team) : (s.putTeam i t).shown = s.shown := rfl
@[simp] theorem State.putTeam_sampled (s : State) (i : Nat) (t : Team) : (s.putTeam i t).sampled = s.sampled := rfl
@[simp] theorem State.putTeam_lastOver (s : State) (i : Nat) (t : Team) : (s.putTeam i t).lastOver = s.lastOver := rfl
@[simp] theorem State.putTeam_seizing (s : State) (i : Nat) (t : Team) : (s.putTeam i t).seizing = s.seizing := rfl
@[simp] theorem State.putTeam_records (s : State) (i : Nat) (t : Team) : (s.putTeam i t).records = s.records := rfl
@[simp] theorem State.putTeam_roundDue (s : State) (i : Nat) (t : Team) : (s.putTeam i t).roundDue = s.roundDue := rfl
@[simp] theorem State.putTeam_ports (s : State) (i : Nat) (t : Team) : (s.putTeam i t).ports = s.ports := rfl
@[simp] theorem State.putTeam_nextId (s : State) (i : Nat) (t : Team) : (s.putTeam i t).nextId = s.nextId := rfl

@[simp] theorem State.teamAt_putTeam (s : State) (i : Nat) (t : Team) : (s.putTeam i t).teamAt i = t := by
  simp [State.teamAt, State.putTeam]
theorem State.teamAt_putTeam_other (s : State) {i j : Nat} (t : Team) (h : j ≠ i) :
    (s.putTeam i t).teamAt j = s.teamAt j := by
  simp [State.teamAt, State.putTeam, Store.get_set_other _ _ _ h]
theorem State.teamAt_of_teams {s s' : State} (h : s'.teams = s.teams) (i : Nat) : s'.teamAt i = s.teamAt i := by
  simp [State.teamAt, h]


/-! ### The executing team is written -/

@[simp] theorem State.setTeam_script (s : State) (t : Team) : (s.setTeam t).script = s.script := rfl
@[simp] theorem State.setTeam_cur (s : State) (t : Team) : (s.setTeam t).cur = s.cur := rfl
@[simp] theorem State.setTeam_unit (s : State) (t : Team) : (s.setTeam t).unit = s.unit := rfl
@[simp] theorem State.setTeam_item (s : State) (t : Team) : (s.setTeam t).item = s.item := rfl
@[simp] theorem State.setTeam_free (s : State) (t : Team) : (s.setTeam t).free = s.free := rfl
@[simp] theorem State.setTeam_cycle (s : State) (t : Team) : (s.setTeam t).cycle = s.cycle := rfl
@[simp] theorem State.setTeam_ticks (s : State) (t : Team) : (s.setTeam t).ticks = s.ticks := rfl
@[simp] theorem State.setTeam_now (s : State) (t : Team) : (s.setTeam t).now = s.now := rfl
@[simp] theorem State.setTeam_tickRest (s : State) (t : Team) : (s.setTeam t).tickRest = s.tickRest := rfl
@[simp] theorem State.setTeam_slew (s : State) (t : Team) : (s.setTeam t).slew = s.slew := rfl
@[simp] theorem State.setTeam_mem (s : State) (t : Team) : (s.setTeam t).mem = s.mem := rfl
@[simp] theorem State.setTeam_poison (s : State) (t : Team) : (s.setTeam t).poison = s.poison := rfl
@[simp] theorem State.setTeam_groups (s : State) (t : Team) : (s.setTeam t).groups = s.groups := rfl
@[simp] theorem State.setTeam_grids (s : State) (t : Team) : (s.setTeam t).grids = s.grids := rfl
@[simp] theorem State.setTeam_tlb (s : State) (t : Team) : (s.setTeam t).tlb = s.tlb := rfl
@[simp] theorem State.setTeam_owners (s : State) (t : Team) : (s.setTeam t).owners = s.owners := rfl
@[simp] theorem State.setTeam_worlds (s : State) (t : Team) : (s.setTeam t).worlds = s.worlds := rfl
@[simp] theorem State.setTeam_tiles (s : State) (t : Team) : (s.setTeam t).tiles = s.tiles := rfl
@[simp] theorem State.setTeam_seqs (s : State) (t : Team) : (s.setTeam t).seqs = s.seqs := rfl
@[simp] theorem State.setTeam_pipes (s : State) (t : Team) : (s.setTeam t).pipes = s.pipes := rfl
@[simp] theorem State.setTeam_redbuf (s : State) (t : Team) : (s.setTeam t).redbuf = s.redbuf := rfl
@[simp] theorem State.setTeam_channels (s : State) (t : Team) : (s.setTeam t).channels = s.channels := rfl
@[simp] theorem State.setTeam_templates (s : State) (t : Team) : (s.setTeam t).templates = s.templates := rfl
@[simp] theorem State.setTeam_posts (s : State) (t : Team) : (s.setTeam t).posts = s.posts := rfl
@[simp] theorem State.setTeam_remotes (s : State) (t : Team) : (s.setTeam t).remotes = s.remotes := rfl
@[simp] theorem State.setTeam_routes (s : State) (t : Team) : (s.setTeam t).routes = s.routes := rfl
@[simp] theorem State.setTeam_links (s : State) (t : Team) : (s.setTeam t).links = s.links := rfl
@[simp] theorem State.setTeam_fabricHold (s : State) (t : Team) : (s.setTeam t).fabricHold = s.fabricHold := rfl
@[simp] theorem State.setTeam_quiesce (s : State) (t : Team) : (s.setTeam t).quiesce = s.quiesce := rfl
@[simp] theorem State.setTeam_releases (s : State) (t : Team) : (s.setTeam t).releases = s.releases := rfl
@[simp] theorem State.setTeam_stileWaits (s : State) (t : Team) : (s.setTeam t).stileWaits = s.stileWaits := rfl
@[simp] theorem State.setTeam_partid (s : State) (t : Team) : (s.setTeam t).partid = s.partid := rfl
@[simp] theorem State.setTeam_queues (s : State) (t : Team) : (s.setTeam t).queues = s.queues := rfl
@[simp] theorem State.setTeam_launches (s : State) (t : Team) : (s.setTeam t).launches = s.launches := rfl
@[simp] theorem State.setTeam_replies (s : State) (t : Team) : (s.setTeam t).replies = s.replies := rfl
@[simp] theorem State.setTeam_retired (s : State) (t : Team) : (s.setTeam t).retired = s.retired := rfl
@[simp] theorem State.setTeam_tenants (s : State) (t : Team) : (s.setTeam t).tenants = s.tenants := rfl
@[simp] theorem State.setTeam_escBase (s : State) (t : Team) : (s.setTeam t).escBase = s.escBase := rfl
@[simp] theorem State.setTeam_escHead (s : State) (t : Team) : (s.setTeam t).escHead = s.escHead := rfl
@[simp] theorem State.setTeam_escTail (s : State) (t : Team) : (s.setTeam t).escTail = s.escTail := rfl
@[simp] theorem State.setTeam_keys (s : State) (t : Team) : (s.setTeam t).keys = s.keys := rfl
@[simp] theorem State.setTeam_nextKey (s : State) (t : Team) : (s.setTeam t).nextKey = s.nextKey := rfl
@[simp] theorem State.setTeam_versions (s : State) (t : Team) : (s.setTeam t).versions = s.versions := rfl
@[simp] theorem State.setTeam_exports (s : State) (t : Team) : (s.setTeam t).exports = s.exports := rfl
@[simp] theorem State.setTeam_tampers (s : State) (t : Team) : (s.setTeam t).tampers = s.tampers := rfl
@[simp] theorem State.setTeam_boot (s : State) (t : Team) : (s.setTeam t).boot = s.boot := rfl
@[simp] theorem State.setTeam_flash (s : State) (t : Team) : (s.setTeam t).flash = s.flash := rfl
@[simp] theorem State.setTeam_dbgs (s : State) (t : Team) : (s.setTeam t).dbgs = s.dbgs := rfl
@[simp] theorem State.setTeam_heldWrites (s : State) (t : Team) : (s.setTeam t).heldWrites = s.heldWrites := rfl
@[simp] theorem State.setTeam_undo (s : State) (t : Team) : (s.setTeam t).undo = s.undo := rfl
@[simp] theorem State.setTeam_replays (s : State) (t : Team) : (s.setTeam t).replays = s.replays := rfl
@[simp] theorem State.setTeam_rollbacks (s : State) (t : Team) : (s.setTeam t).rollbacks = s.rollbacks := rfl
@[simp] theorem State.setTeam_held (s : State) (t : Team) : (s.setTeam t).held = s.held := rfl
@[simp] theorem State.setTeam_history (s : State) (t : Team) : (s.setTeam t).history = s.history := rfl
@[simp] theorem State.setTeam_tests (s : State) (t : Team) : (s.setTeam t).tests = s.tests := rfl
@[simp] theorem State.setTeam_lifetime (s : State) (t : Team) : (s.setTeam t).lifetime = s.lifetime := rfl
@[simp] theorem State.setTeam_flushed (s : State) (t : Team) : (s.setTeam t).flushed = s.flushed := rfl
@[simp] theorem State.setTeam_errors (s : State) (t : Team) : (s.setTeam t).errors = s.errors := rfl
@[simp] theorem State.setTeam_times (s : State) (t : Team) : (s.setTeam t).times = s.times := rfl
@[simp] theorem State.setTeam_telemetry (s : State) (t : Team) : (s.setTeam t).telemetry = s.telemetry := rfl
@[simp] theorem State.setTeam_shown (s : State) (t : Team) : (s.setTeam t).shown = s.shown := rfl
@[simp] theorem State.setTeam_sampled (s : State) (t : Team) : (s.setTeam t).sampled = s.sampled := rfl
@[simp] theorem State.setTeam_lastOver (s : State) (t : Team) : (s.setTeam t).lastOver = s.lastOver := rfl
@[simp] theorem State.setTeam_seizing (s : State) (t : Team) : (s.setTeam t).seizing = s.seizing := rfl
@[simp] theorem State.setTeam_records (s : State) (t : Team) : (s.setTeam t).records = s.records := rfl
@[simp] theorem State.setTeam_roundDue (s : State) (t : Team) : (s.setTeam t).roundDue = s.roundDue := rfl
@[simp] theorem State.setTeam_ports (s : State) (t : Team) : (s.setTeam t).ports = s.ports := rfl
@[simp] theorem State.setTeam_nextId (s : State) (t : Team) : (s.setTeam t).nextId = s.nextId := rfl
@[simp] theorem State.upd_script (s : State) (f : Team → Team) : (s.upd f).script = s.script := rfl
@[simp] theorem State.upd_cur (s : State) (f : Team → Team) : (s.upd f).cur = s.cur := rfl
@[simp] theorem State.upd_unit (s : State) (f : Team → Team) : (s.upd f).unit = s.unit := rfl
@[simp] theorem State.upd_item (s : State) (f : Team → Team) : (s.upd f).item = s.item := rfl
@[simp] theorem State.upd_free (s : State) (f : Team → Team) : (s.upd f).free = s.free := rfl
@[simp] theorem State.upd_cycle (s : State) (f : Team → Team) : (s.upd f).cycle = s.cycle := rfl
@[simp] theorem State.upd_ticks (s : State) (f : Team → Team) : (s.upd f).ticks = s.ticks := rfl
@[simp] theorem State.upd_now (s : State) (f : Team → Team) : (s.upd f).now = s.now := rfl
@[simp] theorem State.upd_tickRest (s : State) (f : Team → Team) : (s.upd f).tickRest = s.tickRest := rfl
@[simp] theorem State.upd_slew (s : State) (f : Team → Team) : (s.upd f).slew = s.slew := rfl
@[simp] theorem State.upd_mem (s : State) (f : Team → Team) : (s.upd f).mem = s.mem := rfl
@[simp] theorem State.upd_poison (s : State) (f : Team → Team) : (s.upd f).poison = s.poison := rfl
@[simp] theorem State.upd_groups (s : State) (f : Team → Team) : (s.upd f).groups = s.groups := rfl
@[simp] theorem State.upd_grids (s : State) (f : Team → Team) : (s.upd f).grids = s.grids := rfl
@[simp] theorem State.upd_tlb (s : State) (f : Team → Team) : (s.upd f).tlb = s.tlb := rfl
@[simp] theorem State.upd_owners (s : State) (f : Team → Team) : (s.upd f).owners = s.owners := rfl
@[simp] theorem State.upd_worlds (s : State) (f : Team → Team) : (s.upd f).worlds = s.worlds := rfl
@[simp] theorem State.upd_tiles (s : State) (f : Team → Team) : (s.upd f).tiles = s.tiles := rfl
@[simp] theorem State.upd_seqs (s : State) (f : Team → Team) : (s.upd f).seqs = s.seqs := rfl
@[simp] theorem State.upd_pipes (s : State) (f : Team → Team) : (s.upd f).pipes = s.pipes := rfl
@[simp] theorem State.upd_redbuf (s : State) (f : Team → Team) : (s.upd f).redbuf = s.redbuf := rfl
@[simp] theorem State.upd_channels (s : State) (f : Team → Team) : (s.upd f).channels = s.channels := rfl
@[simp] theorem State.upd_templates (s : State) (f : Team → Team) : (s.upd f).templates = s.templates := rfl
@[simp] theorem State.upd_posts (s : State) (f : Team → Team) : (s.upd f).posts = s.posts := rfl
@[simp] theorem State.upd_remotes (s : State) (f : Team → Team) : (s.upd f).remotes = s.remotes := rfl
@[simp] theorem State.upd_routes (s : State) (f : Team → Team) : (s.upd f).routes = s.routes := rfl
@[simp] theorem State.upd_links (s : State) (f : Team → Team) : (s.upd f).links = s.links := rfl
@[simp] theorem State.upd_fabricHold (s : State) (f : Team → Team) : (s.upd f).fabricHold = s.fabricHold := rfl
@[simp] theorem State.upd_quiesce (s : State) (f : Team → Team) : (s.upd f).quiesce = s.quiesce := rfl
@[simp] theorem State.upd_releases (s : State) (f : Team → Team) : (s.upd f).releases = s.releases := rfl
@[simp] theorem State.upd_stileWaits (s : State) (f : Team → Team) : (s.upd f).stileWaits = s.stileWaits := rfl
@[simp] theorem State.upd_partid (s : State) (f : Team → Team) : (s.upd f).partid = s.partid := rfl
@[simp] theorem State.upd_queues (s : State) (f : Team → Team) : (s.upd f).queues = s.queues := rfl
@[simp] theorem State.upd_launches (s : State) (f : Team → Team) : (s.upd f).launches = s.launches := rfl
@[simp] theorem State.upd_replies (s : State) (f : Team → Team) : (s.upd f).replies = s.replies := rfl
@[simp] theorem State.upd_retired (s : State) (f : Team → Team) : (s.upd f).retired = s.retired := rfl
@[simp] theorem State.upd_tenants (s : State) (f : Team → Team) : (s.upd f).tenants = s.tenants := rfl
@[simp] theorem State.upd_escBase (s : State) (f : Team → Team) : (s.upd f).escBase = s.escBase := rfl
@[simp] theorem State.upd_escHead (s : State) (f : Team → Team) : (s.upd f).escHead = s.escHead := rfl
@[simp] theorem State.upd_escTail (s : State) (f : Team → Team) : (s.upd f).escTail = s.escTail := rfl
@[simp] theorem State.upd_keys (s : State) (f : Team → Team) : (s.upd f).keys = s.keys := rfl
@[simp] theorem State.upd_nextKey (s : State) (f : Team → Team) : (s.upd f).nextKey = s.nextKey := rfl
@[simp] theorem State.upd_versions (s : State) (f : Team → Team) : (s.upd f).versions = s.versions := rfl
@[simp] theorem State.upd_exports (s : State) (f : Team → Team) : (s.upd f).exports = s.exports := rfl
@[simp] theorem State.upd_tampers (s : State) (f : Team → Team) : (s.upd f).tampers = s.tampers := rfl
@[simp] theorem State.upd_boot (s : State) (f : Team → Team) : (s.upd f).boot = s.boot := rfl
@[simp] theorem State.upd_flash (s : State) (f : Team → Team) : (s.upd f).flash = s.flash := rfl
@[simp] theorem State.upd_dbgs (s : State) (f : Team → Team) : (s.upd f).dbgs = s.dbgs := rfl
@[simp] theorem State.upd_heldWrites (s : State) (f : Team → Team) : (s.upd f).heldWrites = s.heldWrites := rfl
@[simp] theorem State.upd_undo (s : State) (f : Team → Team) : (s.upd f).undo = s.undo := rfl
@[simp] theorem State.upd_replays (s : State) (f : Team → Team) : (s.upd f).replays = s.replays := rfl
@[simp] theorem State.upd_rollbacks (s : State) (f : Team → Team) : (s.upd f).rollbacks = s.rollbacks := rfl
@[simp] theorem State.upd_held (s : State) (f : Team → Team) : (s.upd f).held = s.held := rfl
@[simp] theorem State.upd_history (s : State) (f : Team → Team) : (s.upd f).history = s.history := rfl
@[simp] theorem State.upd_tests (s : State) (f : Team → Team) : (s.upd f).tests = s.tests := rfl
@[simp] theorem State.upd_lifetime (s : State) (f : Team → Team) : (s.upd f).lifetime = s.lifetime := rfl
@[simp] theorem State.upd_flushed (s : State) (f : Team → Team) : (s.upd f).flushed = s.flushed := rfl
@[simp] theorem State.upd_errors (s : State) (f : Team → Team) : (s.upd f).errors = s.errors := rfl
@[simp] theorem State.upd_times (s : State) (f : Team → Team) : (s.upd f).times = s.times := rfl
@[simp] theorem State.upd_telemetry (s : State) (f : Team → Team) : (s.upd f).telemetry = s.telemetry := rfl
@[simp] theorem State.upd_shown (s : State) (f : Team → Team) : (s.upd f).shown = s.shown := rfl
@[simp] theorem State.upd_sampled (s : State) (f : Team → Team) : (s.upd f).sampled = s.sampled := rfl
@[simp] theorem State.upd_lastOver (s : State) (f : Team → Team) : (s.upd f).lastOver = s.lastOver := rfl
@[simp] theorem State.upd_seizing (s : State) (f : Team → Team) : (s.upd f).seizing = s.seizing := rfl
@[simp] theorem State.upd_records (s : State) (f : Team → Team) : (s.upd f).records = s.records := rfl
@[simp] theorem State.upd_roundDue (s : State) (f : Team → Team) : (s.upd f).roundDue = s.roundDue := rfl
@[simp] theorem State.upd_ports (s : State) (f : Team → Team) : (s.upd f).ports = s.ports := rfl
@[simp] theorem State.upd_nextId (s : State) (f : Team → Team) : (s.upd f).nextId = s.nextId := rfl

@[simp] theorem State.team_setTeam (s : State) (t : Team) : (s.setTeam t).team = t := by
  simp [State.team, State.setTeam]
@[simp] theorem State.team_upd (s : State) (f : Team → Team) : (s.upd f).team = f s.team := by
  simp [State.upd]
@[simp] theorem State.setTeam_setTeam (s : State) (t u : Team) : ((s.setTeam t).setTeam u).team = u := by simp
theorem State.teamAt_setTeam_other (s : State) (t : Team) {j : Nat} (h : j ≠ s.cur) : (s.setTeam t).teamAt j = s.teamAt j :=
  State.teamAt_putTeam_other s t h
@[simp] theorem State.groupAt_setTeam (s : State) (t : Team) (g : Nat) : (s.setTeam t).groupAt g = s.groupAt g := rfl
@[simp] theorem State.groupAt_upd (s : State) (f : Team → Team) (g : Nat) : (s.upd f).groupAt g = s.groupAt g := rfl
@[simp] theorem State.byte_setTeam (s : State) (t : Team) (k : Nat) : (s.setTeam t).byte k = s.byte k := rfl
@[simp] theorem State.byte_upd (s : State) (f : Team → Team) (k : Nat) : (s.upd f).byte k = s.byte k := rfl
@[simp] theorem State.owner_setTeam (s : State) (t : Team) (k i : Nat) : (s.setTeam t).owner k i = s.owner k i := rfl


/-! ### Memory is written -/

@[simp] theorem State.setBytes_script (s : State) (bs : List (Nat × Byte)) : (s.setBytes bs).script = s.script := rfl
@[simp] theorem State.setBytes_cur (s : State) (bs : List (Nat × Byte)) : (s.setBytes bs).cur = s.cur := rfl
@[simp] theorem State.setBytes_unit (s : State) (bs : List (Nat × Byte)) : (s.setBytes bs).unit = s.unit := rfl
@[simp] theorem State.setBytes_item (s : State) (bs : List (Nat × Byte)) : (s.setBytes bs).item = s.item := rfl
@[simp] theorem State.setBytes_free (s : State) (bs : List (Nat × Byte)) : (s.setBytes bs).free = s.free := rfl
@[simp] theorem State.setBytes_cycle (s : State) (bs : List (Nat × Byte)) : (s.setBytes bs).cycle = s.cycle := rfl
@[simp] theorem State.setBytes_ticks (s : State) (bs : List (Nat × Byte)) : (s.setBytes bs).ticks = s.ticks := rfl
@[simp] theorem State.setBytes_now (s : State) (bs : List (Nat × Byte)) : (s.setBytes bs).now = s.now := rfl
@[simp] theorem State.setBytes_tickRest (s : State) (bs : List (Nat × Byte)) : (s.setBytes bs).tickRest = s.tickRest := rfl
@[simp] theorem State.setBytes_slew (s : State) (bs : List (Nat × Byte)) : (s.setBytes bs).slew = s.slew := rfl
@[simp] theorem State.setBytes_poison (s : State) (bs : List (Nat × Byte)) : (s.setBytes bs).poison = s.poison := rfl
@[simp] theorem State.setBytes_teams (s : State) (bs : List (Nat × Byte)) : (s.setBytes bs).teams = s.teams := rfl
@[simp] theorem State.setBytes_groups (s : State) (bs : List (Nat × Byte)) : (s.setBytes bs).groups = s.groups := rfl
@[simp] theorem State.setBytes_grids (s : State) (bs : List (Nat × Byte)) : (s.setBytes bs).grids = s.grids := rfl
@[simp] theorem State.setBytes_tlb (s : State) (bs : List (Nat × Byte)) : (s.setBytes bs).tlb = s.tlb := rfl
@[simp] theorem State.setBytes_owners (s : State) (bs : List (Nat × Byte)) : (s.setBytes bs).owners = s.owners := rfl
@[simp] theorem State.setBytes_worlds (s : State) (bs : List (Nat × Byte)) : (s.setBytes bs).worlds = s.worlds := rfl
@[simp] theorem State.setBytes_tiles (s : State) (bs : List (Nat × Byte)) : (s.setBytes bs).tiles = s.tiles := rfl
@[simp] theorem State.setBytes_seqs (s : State) (bs : List (Nat × Byte)) : (s.setBytes bs).seqs = s.seqs := rfl
@[simp] theorem State.setBytes_pipes (s : State) (bs : List (Nat × Byte)) : (s.setBytes bs).pipes = s.pipes := rfl
@[simp] theorem State.setBytes_redbuf (s : State) (bs : List (Nat × Byte)) : (s.setBytes bs).redbuf = s.redbuf := rfl
@[simp] theorem State.setBytes_channels (s : State) (bs : List (Nat × Byte)) : (s.setBytes bs).channels = s.channels := rfl
@[simp] theorem State.setBytes_templates (s : State) (bs : List (Nat × Byte)) : (s.setBytes bs).templates = s.templates := rfl
@[simp] theorem State.setBytes_posts (s : State) (bs : List (Nat × Byte)) : (s.setBytes bs).posts = s.posts := rfl
@[simp] theorem State.setBytes_remotes (s : State) (bs : List (Nat × Byte)) : (s.setBytes bs).remotes = s.remotes := rfl
@[simp] theorem State.setBytes_routes (s : State) (bs : List (Nat × Byte)) : (s.setBytes bs).routes = s.routes := rfl
@[simp] theorem State.setBytes_links (s : State) (bs : List (Nat × Byte)) : (s.setBytes bs).links = s.links := rfl
@[simp] theorem State.setBytes_fabricHold (s : State) (bs : List (Nat × Byte)) : (s.setBytes bs).fabricHold = s.fabricHold := rfl
@[simp] theorem State.setBytes_quiesce (s : State) (bs : List (Nat × Byte)) : (s.setBytes bs).quiesce = s.quiesce := rfl
@[simp] theorem State.setBytes_releases (s : State) (bs : List (Nat × Byte)) : (s.setBytes bs).releases = s.releases := rfl
@[simp] theorem State.setBytes_stileWaits (s : State) (bs : List (Nat × Byte)) : (s.setBytes bs).stileWaits = s.stileWaits := rfl
@[simp] theorem State.setBytes_partid (s : State) (bs : List (Nat × Byte)) : (s.setBytes bs).partid = s.partid := rfl
@[simp] theorem State.setBytes_queues (s : State) (bs : List (Nat × Byte)) : (s.setBytes bs).queues = s.queues := rfl
@[simp] theorem State.setBytes_launches (s : State) (bs : List (Nat × Byte)) : (s.setBytes bs).launches = s.launches := rfl
@[simp] theorem State.setBytes_replies (s : State) (bs : List (Nat × Byte)) : (s.setBytes bs).replies = s.replies := rfl
@[simp] theorem State.setBytes_retired (s : State) (bs : List (Nat × Byte)) : (s.setBytes bs).retired = s.retired := rfl
@[simp] theorem State.setBytes_tenants (s : State) (bs : List (Nat × Byte)) : (s.setBytes bs).tenants = s.tenants := rfl
@[simp] theorem State.setBytes_escBase (s : State) (bs : List (Nat × Byte)) : (s.setBytes bs).escBase = s.escBase := rfl
@[simp] theorem State.setBytes_escHead (s : State) (bs : List (Nat × Byte)) : (s.setBytes bs).escHead = s.escHead := rfl
@[simp] theorem State.setBytes_escTail (s : State) (bs : List (Nat × Byte)) : (s.setBytes bs).escTail = s.escTail := rfl
@[simp] theorem State.setBytes_keys (s : State) (bs : List (Nat × Byte)) : (s.setBytes bs).keys = s.keys := rfl
@[simp] theorem State.setBytes_nextKey (s : State) (bs : List (Nat × Byte)) : (s.setBytes bs).nextKey = s.nextKey := rfl
@[simp] theorem State.setBytes_versions (s : State) (bs : List (Nat × Byte)) : (s.setBytes bs).versions = s.versions := rfl
@[simp] theorem State.setBytes_exports (s : State) (bs : List (Nat × Byte)) : (s.setBytes bs).exports = s.exports := rfl
@[simp] theorem State.setBytes_tampers (s : State) (bs : List (Nat × Byte)) : (s.setBytes bs).tampers = s.tampers := rfl
@[simp] theorem State.setBytes_boot (s : State) (bs : List (Nat × Byte)) : (s.setBytes bs).boot = s.boot := rfl
@[simp] theorem State.setBytes_flash (s : State) (bs : List (Nat × Byte)) : (s.setBytes bs).flash = s.flash := rfl
@[simp] theorem State.setBytes_dbgs (s : State) (bs : List (Nat × Byte)) : (s.setBytes bs).dbgs = s.dbgs := rfl
@[simp] theorem State.setBytes_heldWrites (s : State) (bs : List (Nat × Byte)) : (s.setBytes bs).heldWrites = s.heldWrites := rfl
@[simp] theorem State.setBytes_undo (s : State) (bs : List (Nat × Byte)) : (s.setBytes bs).undo = s.undo := rfl
@[simp] theorem State.setBytes_replays (s : State) (bs : List (Nat × Byte)) : (s.setBytes bs).replays = s.replays := rfl
@[simp] theorem State.setBytes_rollbacks (s : State) (bs : List (Nat × Byte)) : (s.setBytes bs).rollbacks = s.rollbacks := rfl
@[simp] theorem State.setBytes_held (s : State) (bs : List (Nat × Byte)) : (s.setBytes bs).held = s.held := rfl
@[simp] theorem State.setBytes_history (s : State) (bs : List (Nat × Byte)) : (s.setBytes bs).history = s.history := rfl
@[simp] theorem State.setBytes_tests (s : State) (bs : List (Nat × Byte)) : (s.setBytes bs).tests = s.tests := rfl
@[simp] theorem State.setBytes_lifetime (s : State) (bs : List (Nat × Byte)) : (s.setBytes bs).lifetime = s.lifetime := rfl
@[simp] theorem State.setBytes_flushed (s : State) (bs : List (Nat × Byte)) : (s.setBytes bs).flushed = s.flushed := rfl
@[simp] theorem State.setBytes_errors (s : State) (bs : List (Nat × Byte)) : (s.setBytes bs).errors = s.errors := rfl
@[simp] theorem State.setBytes_times (s : State) (bs : List (Nat × Byte)) : (s.setBytes bs).times = s.times := rfl
@[simp] theorem State.setBytes_telemetry (s : State) (bs : List (Nat × Byte)) : (s.setBytes bs).telemetry = s.telemetry := rfl
@[simp] theorem State.setBytes_shown (s : State) (bs : List (Nat × Byte)) : (s.setBytes bs).shown = s.shown := rfl
@[simp] theorem State.setBytes_sampled (s : State) (bs : List (Nat × Byte)) : (s.setBytes bs).sampled = s.sampled := rfl
@[simp] theorem State.setBytes_lastOver (s : State) (bs : List (Nat × Byte)) : (s.setBytes bs).lastOver = s.lastOver := rfl
@[simp] theorem State.setBytes_seizing (s : State) (bs : List (Nat × Byte)) : (s.setBytes bs).seizing = s.seizing := rfl
@[simp] theorem State.setBytes_records (s : State) (bs : List (Nat × Byte)) : (s.setBytes bs).records = s.records := rfl
@[simp] theorem State.setBytes_roundDue (s : State) (bs : List (Nat × Byte)) : (s.setBytes bs).roundDue = s.roundDue := rfl
@[simp] theorem State.setBytes_ports (s : State) (bs : List (Nat × Byte)) : (s.setBytes bs).ports = s.ports := rfl
@[simp] theorem State.setBytes_nextId (s : State) (bs : List (Nat × Byte)) : (s.setBytes bs).nextId = s.nextId := rfl

@[simp] theorem State.byte_setByte (s : State) (k : Nat) (b : Byte) : (s.setByte k b).byte k = b := by
  simp [State.byte, State.setByte]
theorem State.byte_setByte_other (s : State) {k j : Nat} (b : Byte) (h : j ≠ k) : (s.setByte k b).byte j = s.byte j := by
  simp [State.byte, State.setByte, Store.get_set_other _ _ _ h]
/-- Bytes that a write does not name keep their values. -/
theorem State.byte_setBytes_other (s : State) (bs : List (Nat × Byte)) (j : Nat) (h : ∀ b ∈ bs, b.1 ≠ j) :
    (s.setBytes bs).byte j = s.byte j := Store.get_setAll_other _ _ _ _ h


/-! ### A scalar register -/

@[simp] theorem Team.setReg_life (t : Team) (i : BitVec 6) (x : Word) : (t.setReg i x).life = t.life := by unfold Team.setReg; split <;> rfl
@[simp] theorem Team.setReg_pc (t : Team) (i : BitVec 6) (x : Word) : (t.setReg i x).pc = t.pc := by unfold Team.setReg; split <;> rfl
@[simp] theorem Team.setReg_lcptr (t : Team) (i : BitVec 6) (x : Word) : (t.setReg i x).lcptr = t.lcptr := by unfold Team.setReg; split <;> rfl
@[simp] theorem Team.setReg_lidx (t : Team) (i : BitVec 6) (x : Word) : (t.setReg i x).lidx = t.lidx := by unfold Team.setReg; split <;> rfl
@[simp] theorem Team.setReg_lhdr (t : Team) (i : BitVec 6) (x : Word) : (t.setReg i x).lhdr = t.lhdr := by unfold Team.setReg; split <;> rfl
@[simp] theorem Team.setReg_pstat (t : Team) (i : BitVec 6) (x : Word) : (t.setReg i x).pstat = t.pstat := by unfold Team.setReg; split <;> rfl
@[simp] theorem Team.setReg_v (t : Team) (i : BitVec 6) (x : Word) : (t.setReg i x).v = t.v := by unfold Team.setReg; split <;> rfl
@[simp] theorem Team.setReg_m (t : Team) (i : BitVec 6) (x : Word) : (t.setReg i x).m = t.m := by unfold Team.setReg; split <;> rfl
@[simp] theorem Team.setReg_killed (t : Team) (i : BitVec 6) (x : Word) : (t.setReg i x).killed = t.killed := by unfold Team.setReg; split <;> rfl
@[simp] theorem Team.setReg_tok (t : Team) (i : BitVec 6) (x : Word) : (t.setReg i x).tok = t.tok := by unfold Team.setReg; split <;> rfl
@[simp] theorem Team.setReg_pend (t : Team) (i : BitVec 6) (x : Word) : (t.setReg i x).pend = t.pend := by unfold Team.setReg; split <;> rfl
@[simp] theorem Team.setReg_q (t : Team) (i : BitVec 6) (x : Word) : (t.setReg i x).q = t.q := by unfold Team.setReg; split <;> rfl
@[simp] theorem Team.setReg_fmt (t : Team) (i : BitVec 6) (x : Word) : (t.setReg i x).fmt = t.fmt := by unfold Team.setReg; split <;> rfl
@[simp] theorem Team.setReg_srseed (t : Team) (i : BitVec 6) (x : Word) : (t.setReg i x).srseed = t.srseed := by unfold Team.setReg; split <;> rfl
@[simp] theorem Team.setReg_srctr (t : Team) (i : BitVec 6) (x : Word) : (t.setReg i x).srctr = t.srctr := by unfold Team.setReg; split <;> rfl
@[simp] theorem Team.setReg_histbase (t : Team) (i : BitVec 6) (x : Word) : (t.setReg i x).histbase = t.histbase := by unfold Team.setReg; split <;> rfl
@[simp] theorem Team.setReg_yieldpc (t : Team) (i : BitVec 6) (x : Word) : (t.setReg i x).yieldpc = t.yieldpc := by unfold Team.setReg; split <;> rfl
@[simp] theorem Team.setReg_trapcause (t : Team) (i : BitVec 6) (x : Word) : (t.setReg i x).trapcause = t.trapcause := by unfold Team.setReg; split <;> rfl
@[simp] theorem Team.setReg_trappc (t : Team) (i : BitVec 6) (x : Word) : (t.setReg i x).trappc = t.trappc := by unfold Team.setReg; split <;> rfl
@[simp] theorem Team.setReg_trapseq (t : Team) (i : BitVec 6) (x : Word) : (t.setReg i x).trapseq = t.trapseq := by unfold Team.setReg; split <;> rfl
@[simp] theorem Team.setReg_traplidx (t : Team) (i : BitVec 6) (x : Word) : (t.setReg i x).traplidx = t.traplidx := by unfold Team.setReg; split <;> rfl
@[simp] theorem Team.setReg_trapval (t : Team) (i : BitVec 6) (x : Word) : (t.setReg i x).trapval = t.trapval := by unfold Team.setReg; split <;> rfl
@[simp] theorem Team.setReg_trapvec (t : Team) (i : BitVec 6) (x : Word) : (t.setReg i x).trapvec = t.trapvec := by unfold Team.setReg; split <;> rfl
@[simp] theorem Team.setReg_trapcur (t : Team) (i : BitVec 6) (x : Word) : (t.setReg i x).trapcur = t.trapcur := by unfold Team.setReg; split <;> rfl
@[simp] theorem Team.setReg_frame (t : Team) (i : BitVec 6) (x : Word) : (t.setReg i x).frame = t.frame := by unfold Team.setReg; split <;> rfl
@[simp] theorem Team.setReg_seqctr (t : Team) (i : BitVec 6) (x : Word) : (t.setReg i x).seqctr = t.seqctr := by unfold Team.setReg; split <;> rfl
@[simp] theorem Team.setReg_latch (t : Team) (i : BitVec 6) (x : Word) : (t.setReg i x).latch = t.latch := by unfold Team.setReg; split <;> rfl
@[simp] theorem Team.setReg_laneq (t : Team) (i : BitVec 6) (x : Word) : (t.setReg i x).laneq = t.laneq := by unfold Team.setReg; split <;> rfl
@[simp] theorem Team.setReg_laneFree (t : Team) (i : BitVec 6) (x : Word) : (t.setReg i x).laneFree = t.laneFree := by unfold Team.setReg; split <;> rfl
@[simp] theorem Team.setReg_sdq (t : Team) (i : BitVec 6) (x : Word) : (t.setReg i x).sdq = t.sdq := by unfold Team.setReg; split <;> rfl
@[simp] theorem Team.setReg_nextOp (t : Team) (i : BitVec 6) (x : Word) : (t.setReg i x).nextOp = t.nextOp := by unfold Team.setReg; split <;> rfl
@[simp] theorem Team.setReg_trapReq (t : Team) (i : BitVec 6) (x : Word) : (t.setReg i x).trapReq = t.trapReq := by unfold Team.setReg; split <;> rfl
@[simp] theorem Team.setReg_park (t : Team) (i : BitVec 6) (x : Word) : (t.setReg i x).park = t.park := by unfold Team.setReg; split <;> rfl
@[simp] theorem Team.setReg_barWait (t : Team) (i : BitVec 6) (x : Word) : (t.setReg i x).barWait = t.barWait := by unfold Team.setReg; split <;> rfl
@[simp] theorem Team.setReg_came (t : Team) (i : BitVec 6) (x : Word) : (t.setReg i x).came = t.came := by unfold Team.setReg; split <;> rfl
@[simp] theorem Team.setReg_esc (t : Team) (i : BitVec 6) (x : Word) : (t.setReg i x).esc = t.esc := by unfold Team.setReg; split <;> rfl
@[simp] theorem Team.setReg_escDone (t : Team) (i : BitVec 6) (x : Word) : (t.setReg i x).escDone = t.escDone := by unfold Team.setReg; split <;> rfl
@[simp] theorem Team.setReg_escTrap (t : Team) (i : BitVec 6) (x : Word) : (t.setReg i x).escTrap = t.escTrap := by unfold Team.setReg; split <;> rfl
@[simp] theorem Team.setReg_async (t : Team) (i : BitVec 6) (x : Word) : (t.setReg i x).async = t.async := by unfold Team.setReg; split <;> rfl
@[simp] theorem Team.setReg_saveReq (t : Team) (i : BitVec 6) (x : Word) : (t.setReg i x).saveReq = t.saveReq := by unfold Team.setReg; split <;> rfl
@[simp] theorem Team.setReg_deadline (t : Team) (i : BitVec 6) (x : Word) : (t.setReg i x).deadline = t.deadline := by unfold Team.setReg; split <;> rfl
@[simp] theorem Team.setReg_haltReq (t : Team) (i : BitVec 6) (x : Word) : (t.setReg i x).haltReq = t.haltReq := by unfold Team.setReg; split <;> rfl
@[simp] theorem Team.setReg_halted (t : Team) (i : BitVec 6) (x : Word) : (t.setReg i x).halted = t.halted := by unfold Team.setReg; split <;> rfl
@[simp] theorem Team.setReg_stepOnce (t : Team) (i : BitVec 6) (x : Word) : (t.setReg i x).stepOnce = t.stepOnce := by unfold Team.setReg; split <;> rfl
@[simp] theorem Team.setReg_saveKind (t : Team) (i : BitVec 6) (x : Word) : (t.setReg i x).saveKind = t.saveKind := by unfold Team.setReg; split <;> rfl
@[simp] theorem Team.setReg_resumeD (t : Team) (i : BitVec 6) (x : Word) : (t.setReg i x).resumeD = t.resumeD := by unfold Team.setReg; split <;> rfl
@[simp] theorem Team.setReg_saveStopped (t : Team) (i : BitVec 6) (x : Word) : (t.setReg i x).saveStopped = t.saveStopped := by unfold Team.setReg; split <;> rfl
@[simp] theorem Team.setReg_drainedAt (t : Team) (i : BitVec 6) (x : Word) : (t.setReg i x).drainedAt = t.drainedAt := by unfold Team.setReg; split <;> rfl
@[simp] theorem Team.setReg_bpSkip (t : Team) (i : BitVec 6) (x : Word) : (t.setReg i x).bpSkip = t.bpSkip := by unfold Team.setReg; split <;> rfl
@[simp] theorem Team.setReg_bpHalt (t : Team) (i : BitVec 6) (x : Word) : (t.setReg i x).bpHalt = t.bpHalt := by unfold Team.setReg; split <;> rfl
@[simp] theorem Team.setReg_brkHalt (t : Team) (i : BitVec 6) (x : Word) : (t.setReg i x).brkHalt = t.brkHalt := by unfold Team.setReg; split <;> rfl
@[simp] theorem Team.setReg_lastRun (t : Team) (i : BitVec 6) (x : Word) : (t.setReg i x).lastRun = t.lastRun := by unfold Team.setReg; split <;> rfl
@[simp] theorem Team.setReg_ended (t : Team) (i : BitVec 6) (x : Word) : (t.setReg i x).ended = t.ended := by unfold Team.setReg; split <;> rfl
@[simp] theorem Team.setReg_restarted (t : Team) (i : BitVec 6) (x : Word) : (t.setReg i x).restarted = t.restarted := by unfold Team.setReg; split <;> rfl
@[simp] theorem Team.setReg_counting (t : Team) (i : BitVec 6) (x : Word) : (t.setReg i x).counting = t.counting := by unfold Team.setReg; split <;> rfl
@[simp] theorem Team.setReg_lastIssue (t : Team) (i : BitVec 6) (x : Word) : (t.setReg i x).lastIssue = t.lastIssue := by unfold Team.setReg; split <;> rfl
@[simp] theorem Team.setReg_lastPc (t : Team) (i : BitVec 6) (x : Word) : (t.setReg i x).lastPc = t.lastPc := by unfold Team.setReg; split <;> rfl
@[simp] theorem Team.setReg_crewCmds (t : Team) (i : BitVec 6) (x : Word) : (t.setReg i x).crewCmds = t.crewCmds := by unfold Team.setReg; split <;> rfl
@[simp] theorem Team.setReg_sack (t : Team) (i : BitVec 6) (x : Word) : (t.setReg i x).sack = t.sack := by unfold Team.setReg; split <;> rfl
@[simp] theorem Team.setReg_core (t : Team) (i : BitVec 6) (x : Word) : (t.setReg i x).core = t.core := by unfold Team.setReg; split <;> rfl
@[simp] theorem Team.setReg_quarter (t : Team) (i : BitVec 6) (x : Word) : (t.setReg i x).quarter = t.quarter := by unfold Team.setReg; split <;> rfl
@[simp] theorem Team.setReg_slot (t : Team) (i : BitVec 6) (x : Word) : (t.setReg i x).slot = t.slot := by unfold Team.setReg; split <;> rfl
@[simp] theorem Team.setReg_group (t : Team) (i : BitVec 6) (x : Word) : (t.setReg i x).group = t.group := by unfold Team.setReg; split <;> rfl
@[simp] theorem Team.setReg_index (t : Team) (i : BitVec 6) (x : Word) : (t.setReg i x).index = t.index := by unfold Team.setReg; split <;> rfl
@[simp] theorem Team.setReg_nwarp (t : Team) (i : BitVec 6) (x : Word) : (t.setReg i x).nwarp = t.nwarp := by unfold Team.setReg; split <;> rfl
@[simp] theorem Team.setReg_nvreg (t : Team) (i : BitVec 6) (x : Word) : (t.setReg i x).nvreg = t.nvreg := by unfold Team.setReg; split <;> rfl
@[simp] theorem Team.setReg_crewed (t : Team) (i : BitVec 6) (x : Word) : (t.setReg i x).crewed = t.crewed := by unfold Team.setReg; split <;> rfl
@[simp] theorem Team.setReg_crew (t : Team) (i : BitVec 6) (x : Word) : (t.setReg i x).crew = t.crew := by unfold Team.setReg; split <;> rfl
@[simp] theorem Team.setReg_origin (t : Team) (i : BitVec 6) (x : Word) : (t.setReg i x).origin = t.origin := by unfold Team.setReg; split <;> rfl
@[simp] theorem Team.setReg_live (t : Team) (i : BitVec 6) (x : Word) : (t.setReg i x).live = t.live := by unfold Team.setReg; split <;> rfl
@[simp] theorem Team.setReg_stale (t : Team) (i : BitVec 6) (x : Word) : (t.setReg i x).stale = t.stale := by unfold Team.setReg; split <;> rfl
@[simp] theorem Team.setReg_going (t : Team) (i : BitVec 6) (x : Word) : (t.setReg i x).going = t.going := by unfold Team.setReg; split <;> rfl
@[simp] theorem Team.setReg_replace (t : Team) (i : BitVec 6) (x : Word) : (t.setReg i x).replace = t.replace := by unfold Team.setReg; split <;> rfl
@[simp] theorem Team.setReg_flush (t : Team) (i : BitVec 6) (x : Word) : (t.setReg i x).flush = t.flush := by unfold Team.setReg; split <;> rfl

/-- Register 0 reads 0 (R19). -/
@[simp] theorem Team.reg_zero (t : Team) : t.reg 0#6 = 0 := by simp [Team.reg]
/-- A write to register 0 is discarded (R19). -/
@[simp] theorem Team.setReg_zero (t : Team) (x : Word) : t.setReg 0#6 x = t := by simp [Team.setReg]
/-- A register reads back what was written to it. -/
theorem Team.reg_setReg_same (t : Team) {i : BitVec 6} (x : Word) (h : i ≠ 0#6) : (t.setReg i x).reg i = x := by
  simp [Team.reg, Team.setReg, h]
/-- A write leaves the other registers alone. -/
theorem Team.reg_setReg_other (t : Team) {i j : BitVec 6} (x : Word) (h : j ≠ i) : (t.setReg i x).reg j = t.reg j := by
  unfold Team.setReg
  split
  · rfl
  · have : j.toNat ≠ i.toNat := fun e => h (BitVec.eq_of_toNat_eq e)
    simp [Team.reg, Store.get_set_other _ _ _ this]
/-- Registers depend on the register table alone. -/
theorem Team.reg_of_s {t u : Team} (h : u.s = t.s) (i : BitVec 6) : u.reg i = t.reg i := by simp [Team.reg, h]


/-! ### The next instruction, flags, masks and tokens -/

@[simp] theorem Team.advance_life (t : Team) : (t.advance).life = t.life := rfl
@[simp] theorem Team.advance_lcptr (t : Team) : (t.advance).lcptr = t.lcptr := rfl
@[simp] theorem Team.advance_lidx (t : Team) : (t.advance).lidx = t.lidx := rfl
@[simp] theorem Team.advance_lhdr (t : Team) : (t.advance).lhdr = t.lhdr := rfl
@[simp] theorem Team.advance_s (t : Team) : (t.advance).s = t.s := rfl
@[simp] theorem Team.advance_pstat (t : Team) : (t.advance).pstat = t.pstat := rfl
@[simp] theorem Team.advance_v (t : Team) : (t.advance).v = t.v := rfl
@[simp] theorem Team.advance_m (t : Team) : (t.advance).m = t.m := rfl
@[simp] theorem Team.advance_killed (t : Team) : (t.advance).killed = t.killed := rfl
@[simp] theorem Team.advance_tok (t : Team) : (t.advance).tok = t.tok := rfl
@[simp] theorem Team.advance_pend (t : Team) : (t.advance).pend = t.pend := rfl
@[simp] theorem Team.advance_q (t : Team) : (t.advance).q = t.q := rfl
@[simp] theorem Team.advance_fmt (t : Team) : (t.advance).fmt = t.fmt := rfl
@[simp] theorem Team.advance_srseed (t : Team) : (t.advance).srseed = t.srseed := rfl
@[simp] theorem Team.advance_srctr (t : Team) : (t.advance).srctr = t.srctr := rfl
@[simp] theorem Team.advance_histbase (t : Team) : (t.advance).histbase = t.histbase := rfl
@[simp] theorem Team.advance_yieldpc (t : Team) : (t.advance).yieldpc = t.yieldpc := rfl
@[simp] theorem Team.advance_trapcause (t : Team) : (t.advance).trapcause = t.trapcause := rfl
@[simp] theorem Team.advance_trappc (t : Team) : (t.advance).trappc = t.trappc := rfl
@[simp] theorem Team.advance_trapseq (t : Team) : (t.advance).trapseq = t.trapseq := rfl
@[simp] theorem Team.advance_traplidx (t : Team) : (t.advance).traplidx = t.traplidx := rfl
@[simp] theorem Team.advance_trapval (t : Team) : (t.advance).trapval = t.trapval := rfl
@[simp] theorem Team.advance_trapvec (t : Team) : (t.advance).trapvec = t.trapvec := rfl
@[simp] theorem Team.advance_trapcur (t : Team) : (t.advance).trapcur = t.trapcur := rfl
@[simp] theorem Team.advance_frame (t : Team) : (t.advance).frame = t.frame := rfl
@[simp] theorem Team.advance_seqctr (t : Team) : (t.advance).seqctr = t.seqctr := rfl
@[simp] theorem Team.advance_latch (t : Team) : (t.advance).latch = t.latch := rfl
@[simp] theorem Team.advance_laneq (t : Team) : (t.advance).laneq = t.laneq := rfl
@[simp] theorem Team.advance_laneFree (t : Team) : (t.advance).laneFree = t.laneFree := rfl
@[simp] theorem Team.advance_sdq (t : Team) : (t.advance).sdq = t.sdq := rfl
@[simp] theorem Team.advance_nextOp (t : Team) : (t.advance).nextOp = t.nextOp := rfl
@[simp] theorem Team.advance_trapReq (t : Team) : (t.advance).trapReq = t.trapReq := rfl
@[simp] theorem Team.advance_park (t : Team) : (t.advance).park = t.park := rfl
@[simp] theorem Team.advance_barWait (t : Team) : (t.advance).barWait = t.barWait := rfl
@[simp] theorem Team.advance_came (t : Team) : (t.advance).came = t.came := rfl
@[simp] theorem Team.advance_esc (t : Team) : (t.advance).esc = t.esc := rfl
@[simp] theorem Team.advance_escDone (t : Team) : (t.advance).escDone = t.escDone := rfl
@[simp] theorem Team.advance_escTrap (t : Team) : (t.advance).escTrap = t.escTrap := rfl
@[simp] theorem Team.advance_async (t : Team) : (t.advance).async = t.async := rfl
@[simp] theorem Team.advance_saveReq (t : Team) : (t.advance).saveReq = t.saveReq := rfl
@[simp] theorem Team.advance_deadline (t : Team) : (t.advance).deadline = t.deadline := rfl
@[simp] theorem Team.advance_haltReq (t : Team) : (t.advance).haltReq = t.haltReq := rfl
@[simp] theorem Team.advance_halted (t : Team) : (t.advance).halted = t.halted := rfl
@[simp] theorem Team.advance_stepOnce (t : Team) : (t.advance).stepOnce = t.stepOnce := rfl
@[simp] theorem Team.advance_saveKind (t : Team) : (t.advance).saveKind = t.saveKind := rfl
@[simp] theorem Team.advance_resumeD (t : Team) : (t.advance).resumeD = t.resumeD := rfl
@[simp] theorem Team.advance_saveStopped (t : Team) : (t.advance).saveStopped = t.saveStopped := rfl
@[simp] theorem Team.advance_drainedAt (t : Team) : (t.advance).drainedAt = t.drainedAt := rfl
@[simp] theorem Team.advance_bpSkip (t : Team) : (t.advance).bpSkip = t.bpSkip := rfl
@[simp] theorem Team.advance_bpHalt (t : Team) : (t.advance).bpHalt = t.bpHalt := rfl
@[simp] theorem Team.advance_brkHalt (t : Team) : (t.advance).brkHalt = t.brkHalt := rfl
@[simp] theorem Team.advance_lastRun (t : Team) : (t.advance).lastRun = t.lastRun := rfl
@[simp] theorem Team.advance_ended (t : Team) : (t.advance).ended = t.ended := rfl
@[simp] theorem Team.advance_restarted (t : Team) : (t.advance).restarted = t.restarted := rfl
@[simp] theorem Team.advance_counting (t : Team) : (t.advance).counting = t.counting := rfl
@[simp] theorem Team.advance_lastIssue (t : Team) : (t.advance).lastIssue = t.lastIssue := rfl
@[simp] theorem Team.advance_lastPc (t : Team) : (t.advance).lastPc = t.lastPc := rfl
@[simp] theorem Team.advance_crewCmds (t : Team) : (t.advance).crewCmds = t.crewCmds := rfl
@[simp] theorem Team.advance_sack (t : Team) : (t.advance).sack = t.sack := rfl
@[simp] theorem Team.advance_core (t : Team) : (t.advance).core = t.core := rfl
@[simp] theorem Team.advance_quarter (t : Team) : (t.advance).quarter = t.quarter := rfl
@[simp] theorem Team.advance_slot (t : Team) : (t.advance).slot = t.slot := rfl
@[simp] theorem Team.advance_group (t : Team) : (t.advance).group = t.group := rfl
@[simp] theorem Team.advance_index (t : Team) : (t.advance).index = t.index := rfl
@[simp] theorem Team.advance_nwarp (t : Team) : (t.advance).nwarp = t.nwarp := rfl
@[simp] theorem Team.advance_nvreg (t : Team) : (t.advance).nvreg = t.nvreg := rfl
@[simp] theorem Team.advance_crewed (t : Team) : (t.advance).crewed = t.crewed := rfl
@[simp] theorem Team.advance_crew (t : Team) : (t.advance).crew = t.crew := rfl
@[simp] theorem Team.advance_origin (t : Team) : (t.advance).origin = t.origin := rfl
@[simp] theorem Team.advance_live (t : Team) : (t.advance).live = t.live := rfl
@[simp] theorem Team.advance_stale (t : Team) : (t.advance).stale = t.stale := rfl
@[simp] theorem Team.advance_going (t : Team) : (t.advance).going = t.going := rfl
@[simp] theorem Team.advance_replace (t : Team) : (t.advance).replace = t.replace := rfl
@[simp] theorem Team.advance_flush (t : Team) : (t.advance).flush = t.flush := rfl
@[simp] theorem Team.advance_pc (t : Team) : t.advance.pc = t.pc + 4#64 := rfl
@[simp] theorem Team.reg_advance (t : Team) (i : BitVec 6) : t.advance.reg i = t.reg i := rfl
@[simp] theorem Team.setMask_life (t : Team) (n : Nat) (x : Mask) : (t.setMask n x).life = t.life := by unfold Team.setMask; split <;> rfl
@[simp] theorem Team.setMask_pc (t : Team) (n : Nat) (x : Mask) : (t.setMask n x).pc = t.pc := by unfold Team.setMask; split <;> rfl
@[simp] theorem Team.setMask_lcptr (t : Team) (n : Nat) (x : Mask) : (t.setMask n x).lcptr = t.lcptr := by unfold Team.setMask; split <;> rfl
@[simp] theorem Team.setMask_lidx (t : Team) (n : Nat) (x : Mask) : (t.setMask n x).lidx = t.lidx := by unfold Team.setMask; split <;> rfl
@[simp] theorem Team.setMask_lhdr (t : Team) (n : Nat) (x : Mask) : (t.setMask n x).lhdr = t.lhdr := by unfold Team.setMask; split <;> rfl
@[simp] theorem Team.setMask_s (t : Team) (n : Nat) (x : Mask) : (t.setMask n x).s = t.s := by unfold Team.setMask; split <;> rfl
@[simp] theorem Team.setMask_pstat (t : Team) (n : Nat) (x : Mask) : (t.setMask n x).pstat = t.pstat := by unfold Team.setMask; split <;> rfl
@[simp] theorem Team.setMask_v (t : Team) (n : Nat) (x : Mask) : (t.setMask n x).v = t.v := by unfold Team.setMask; split <;> rfl
@[simp] theorem Team.setMask_killed (t : Team) (n : Nat) (x : Mask) : (t.setMask n x).killed = t.killed := by unfold Team.setMask; split <;> rfl
@[simp] theorem Team.setMask_tok (t : Team) (n : Nat) (x : Mask) : (t.setMask n x).tok = t.tok := by unfold Team.setMask; split <;> rfl
@[simp] theorem Team.setMask_pend (t : Team) (n : Nat) (x : Mask) : (t.setMask n x).pend = t.pend := by unfold Team.setMask; split <;> rfl
@[simp] theorem Team.setMask_q (t : Team) (n : Nat) (x : Mask) : (t.setMask n x).q = t.q := by unfold Team.setMask; split <;> rfl
@[simp] theorem Team.setMask_fmt (t : Team) (n : Nat) (x : Mask) : (t.setMask n x).fmt = t.fmt := by unfold Team.setMask; split <;> rfl
@[simp] theorem Team.setMask_srseed (t : Team) (n : Nat) (x : Mask) : (t.setMask n x).srseed = t.srseed := by unfold Team.setMask; split <;> rfl
@[simp] theorem Team.setMask_srctr (t : Team) (n : Nat) (x : Mask) : (t.setMask n x).srctr = t.srctr := by unfold Team.setMask; split <;> rfl
@[simp] theorem Team.setMask_histbase (t : Team) (n : Nat) (x : Mask) : (t.setMask n x).histbase = t.histbase := by unfold Team.setMask; split <;> rfl
@[simp] theorem Team.setMask_yieldpc (t : Team) (n : Nat) (x : Mask) : (t.setMask n x).yieldpc = t.yieldpc := by unfold Team.setMask; split <;> rfl
@[simp] theorem Team.setMask_trapcause (t : Team) (n : Nat) (x : Mask) : (t.setMask n x).trapcause = t.trapcause := by unfold Team.setMask; split <;> rfl
@[simp] theorem Team.setMask_trappc (t : Team) (n : Nat) (x : Mask) : (t.setMask n x).trappc = t.trappc := by unfold Team.setMask; split <;> rfl
@[simp] theorem Team.setMask_trapseq (t : Team) (n : Nat) (x : Mask) : (t.setMask n x).trapseq = t.trapseq := by unfold Team.setMask; split <;> rfl
@[simp] theorem Team.setMask_traplidx (t : Team) (n : Nat) (x : Mask) : (t.setMask n x).traplidx = t.traplidx := by unfold Team.setMask; split <;> rfl
@[simp] theorem Team.setMask_trapval (t : Team) (n : Nat) (x : Mask) : (t.setMask n x).trapval = t.trapval := by unfold Team.setMask; split <;> rfl
@[simp] theorem Team.setMask_trapvec (t : Team) (n : Nat) (x : Mask) : (t.setMask n x).trapvec = t.trapvec := by unfold Team.setMask; split <;> rfl
@[simp] theorem Team.setMask_trapcur (t : Team) (n : Nat) (x : Mask) : (t.setMask n x).trapcur = t.trapcur := by unfold Team.setMask; split <;> rfl
@[simp] theorem Team.setMask_frame (t : Team) (n : Nat) (x : Mask) : (t.setMask n x).frame = t.frame := by unfold Team.setMask; split <;> rfl
@[simp] theorem Team.setMask_seqctr (t : Team) (n : Nat) (x : Mask) : (t.setMask n x).seqctr = t.seqctr := by unfold Team.setMask; split <;> rfl
@[simp] theorem Team.setMask_latch (t : Team) (n : Nat) (x : Mask) : (t.setMask n x).latch = t.latch := by unfold Team.setMask; split <;> rfl
@[simp] theorem Team.setMask_laneq (t : Team) (n : Nat) (x : Mask) : (t.setMask n x).laneq = t.laneq := by unfold Team.setMask; split <;> rfl
@[simp] theorem Team.setMask_laneFree (t : Team) (n : Nat) (x : Mask) : (t.setMask n x).laneFree = t.laneFree := by unfold Team.setMask; split <;> rfl
@[simp] theorem Team.setMask_sdq (t : Team) (n : Nat) (x : Mask) : (t.setMask n x).sdq = t.sdq := by unfold Team.setMask; split <;> rfl
@[simp] theorem Team.setMask_nextOp (t : Team) (n : Nat) (x : Mask) : (t.setMask n x).nextOp = t.nextOp := by unfold Team.setMask; split <;> rfl
@[simp] theorem Team.setMask_trapReq (t : Team) (n : Nat) (x : Mask) : (t.setMask n x).trapReq = t.trapReq := by unfold Team.setMask; split <;> rfl
@[simp] theorem Team.setMask_park (t : Team) (n : Nat) (x : Mask) : (t.setMask n x).park = t.park := by unfold Team.setMask; split <;> rfl
@[simp] theorem Team.setMask_barWait (t : Team) (n : Nat) (x : Mask) : (t.setMask n x).barWait = t.barWait := by unfold Team.setMask; split <;> rfl
@[simp] theorem Team.setMask_came (t : Team) (n : Nat) (x : Mask) : (t.setMask n x).came = t.came := by unfold Team.setMask; split <;> rfl
@[simp] theorem Team.setMask_esc (t : Team) (n : Nat) (x : Mask) : (t.setMask n x).esc = t.esc := by unfold Team.setMask; split <;> rfl
@[simp] theorem Team.setMask_escDone (t : Team) (n : Nat) (x : Mask) : (t.setMask n x).escDone = t.escDone := by unfold Team.setMask; split <;> rfl
@[simp] theorem Team.setMask_escTrap (t : Team) (n : Nat) (x : Mask) : (t.setMask n x).escTrap = t.escTrap := by unfold Team.setMask; split <;> rfl
@[simp] theorem Team.setMask_async (t : Team) (n : Nat) (x : Mask) : (t.setMask n x).async = t.async := by unfold Team.setMask; split <;> rfl
@[simp] theorem Team.setMask_saveReq (t : Team) (n : Nat) (x : Mask) : (t.setMask n x).saveReq = t.saveReq := by unfold Team.setMask; split <;> rfl
@[simp] theorem Team.setMask_deadline (t : Team) (n : Nat) (x : Mask) : (t.setMask n x).deadline = t.deadline := by unfold Team.setMask; split <;> rfl
@[simp] theorem Team.setMask_haltReq (t : Team) (n : Nat) (x : Mask) : (t.setMask n x).haltReq = t.haltReq := by unfold Team.setMask; split <;> rfl
@[simp] theorem Team.setMask_halted (t : Team) (n : Nat) (x : Mask) : (t.setMask n x).halted = t.halted := by unfold Team.setMask; split <;> rfl
@[simp] theorem Team.setMask_stepOnce (t : Team) (n : Nat) (x : Mask) : (t.setMask n x).stepOnce = t.stepOnce := by unfold Team.setMask; split <;> rfl
@[simp] theorem Team.setMask_saveKind (t : Team) (n : Nat) (x : Mask) : (t.setMask n x).saveKind = t.saveKind := by unfold Team.setMask; split <;> rfl
@[simp] theorem Team.setMask_resumeD (t : Team) (n : Nat) (x : Mask) : (t.setMask n x).resumeD = t.resumeD := by unfold Team.setMask; split <;> rfl
@[simp] theorem Team.setMask_saveStopped (t : Team) (n : Nat) (x : Mask) : (t.setMask n x).saveStopped = t.saveStopped := by unfold Team.setMask; split <;> rfl
@[simp] theorem Team.setMask_drainedAt (t : Team) (n : Nat) (x : Mask) : (t.setMask n x).drainedAt = t.drainedAt := by unfold Team.setMask; split <;> rfl
@[simp] theorem Team.setMask_bpSkip (t : Team) (n : Nat) (x : Mask) : (t.setMask n x).bpSkip = t.bpSkip := by unfold Team.setMask; split <;> rfl
@[simp] theorem Team.setMask_bpHalt (t : Team) (n : Nat) (x : Mask) : (t.setMask n x).bpHalt = t.bpHalt := by unfold Team.setMask; split <;> rfl
@[simp] theorem Team.setMask_brkHalt (t : Team) (n : Nat) (x : Mask) : (t.setMask n x).brkHalt = t.brkHalt := by unfold Team.setMask; split <;> rfl
@[simp] theorem Team.setMask_lastRun (t : Team) (n : Nat) (x : Mask) : (t.setMask n x).lastRun = t.lastRun := by unfold Team.setMask; split <;> rfl
@[simp] theorem Team.setMask_ended (t : Team) (n : Nat) (x : Mask) : (t.setMask n x).ended = t.ended := by unfold Team.setMask; split <;> rfl
@[simp] theorem Team.setMask_restarted (t : Team) (n : Nat) (x : Mask) : (t.setMask n x).restarted = t.restarted := by unfold Team.setMask; split <;> rfl
@[simp] theorem Team.setMask_counting (t : Team) (n : Nat) (x : Mask) : (t.setMask n x).counting = t.counting := by unfold Team.setMask; split <;> rfl
@[simp] theorem Team.setMask_lastIssue (t : Team) (n : Nat) (x : Mask) : (t.setMask n x).lastIssue = t.lastIssue := by unfold Team.setMask; split <;> rfl
@[simp] theorem Team.setMask_lastPc (t : Team) (n : Nat) (x : Mask) : (t.setMask n x).lastPc = t.lastPc := by unfold Team.setMask; split <;> rfl
@[simp] theorem Team.setMask_crewCmds (t : Team) (n : Nat) (x : Mask) : (t.setMask n x).crewCmds = t.crewCmds := by unfold Team.setMask; split <;> rfl
@[simp] theorem Team.setMask_sack (t : Team) (n : Nat) (x : Mask) : (t.setMask n x).sack = t.sack := by unfold Team.setMask; split <;> rfl
@[simp] theorem Team.setMask_core (t : Team) (n : Nat) (x : Mask) : (t.setMask n x).core = t.core := by unfold Team.setMask; split <;> rfl
@[simp] theorem Team.setMask_quarter (t : Team) (n : Nat) (x : Mask) : (t.setMask n x).quarter = t.quarter := by unfold Team.setMask; split <;> rfl
@[simp] theorem Team.setMask_slot (t : Team) (n : Nat) (x : Mask) : (t.setMask n x).slot = t.slot := by unfold Team.setMask; split <;> rfl
@[simp] theorem Team.setMask_group (t : Team) (n : Nat) (x : Mask) : (t.setMask n x).group = t.group := by unfold Team.setMask; split <;> rfl
@[simp] theorem Team.setMask_index (t : Team) (n : Nat) (x : Mask) : (t.setMask n x).index = t.index := by unfold Team.setMask; split <;> rfl
@[simp] theorem Team.setMask_nwarp (t : Team) (n : Nat) (x : Mask) : (t.setMask n x).nwarp = t.nwarp := by unfold Team.setMask; split <;> rfl
@[simp] theorem Team.setMask_nvreg (t : Team) (n : Nat) (x : Mask) : (t.setMask n x).nvreg = t.nvreg := by unfold Team.setMask; split <;> rfl
@[simp] theorem Team.setMask_crewed (t : Team) (n : Nat) (x : Mask) : (t.setMask n x).crewed = t.crewed := by unfold Team.setMask; split <;> rfl
@[simp] theorem Team.setMask_crew (t : Team) (n : Nat) (x : Mask) : (t.setMask n x).crew = t.crew := by unfold Team.setMask; split <;> rfl
@[simp] theorem Team.setMask_origin (t : Team) (n : Nat) (x : Mask) : (t.setMask n x).origin = t.origin := by unfold Team.setMask; split <;> rfl
@[simp] theorem Team.setMask_live (t : Team) (n : Nat) (x : Mask) : (t.setMask n x).live = t.live := by unfold Team.setMask; split <;> rfl
@[simp] theorem Team.setMask_stale (t : Team) (n : Nat) (x : Mask) : (t.setMask n x).stale = t.stale := by unfold Team.setMask; split <;> rfl
@[simp] theorem Team.setMask_going (t : Team) (n : Nat) (x : Mask) : (t.setMask n x).going = t.going := by unfold Team.setMask; split <;> rfl
@[simp] theorem Team.setMask_replace (t : Team) (n : Nat) (x : Mask) : (t.setMask n x).replace = t.replace := by unfold Team.setMask; split <;> rfl
@[simp] theorem Team.setMask_flush (t : Team) (n : Nat) (x : Mask) : (t.setMask n x).flush = t.flush := by unfold Team.setMask; split <;> rfl

/-- A mask other than m0 reads back the bits below 32W that were written to it (R27). -/
theorem Team.mask_setMask_same (t : Team) {n : Nat} (x : Mask) (h : n ≠ 0) :
    (t.setMask n x).mask n = x &&& BitVec.ofNat 1024 (2 ^ t.lanes - 1) := by
  simp [Team.mask, Team.setMask, h]
theorem Team.mask_setMask_other (t : Team) {n j : Nat} (x : Mask) (h : j ≠ n) : (t.setMask n x).mask j = t.mask j := by
  by_cases hj : j = 0
  · unfold Team.setMask; split <;> simp [Team.mask, hj, Team.m0]
  · unfold Team.setMask; split <;> simp [Team.mask, hj, Store.get_set_other _ _ _ h]

@[simp] theorem Team.setToken_life (t : Team) (k : Nat) (x : Token) : (t.setToken k x).life = t.life := rfl
@[simp] theorem Team.setToken_pc (t : Team) (k : Nat) (x : Token) : (t.setToken k x).pc = t.pc := rfl
@[simp] theorem Team.setToken_lcptr (t : Team) (k : Nat) (x : Token) : (t.setToken k x).lcptr = t.lcptr := rfl
@[simp] theorem Team.setToken_lidx (t : Team) (k : Nat) (x : Token) : (t.setToken k x).lidx = t.lidx := rfl
@[simp] theorem Team.setToken_lhdr (t : Team) (k : Nat) (x : Token) : (t.setToken k x).lhdr = t.lhdr := rfl
@[simp] theorem Team.setToken_s (t : Team) (k : Nat) (x : Token) : (t.setToken k x).s = t.s := rfl
@[simp] theorem Team.setToken_pstat (t : Team) (k : Nat) (x : Token) : (t.setToken k x).pstat = t.pstat := rfl
@[simp] theorem Team.setToken_v (t : Team) (k : Nat) (x : Token) : (t.setToken k x).v = t.v := rfl
@[simp] theorem Team.setToken_m (t : Team) (k : Nat) (x : Token) : (t.setToken k x).m = t.m := rfl
@[simp] theorem Team.setToken_killed (t : Team) (k : Nat) (x : Token) : (t.setToken k x).killed = t.killed := rfl
@[simp] theorem Team.setToken_pend (t : Team) (k : Nat) (x : Token) : (t.setToken k x).pend = t.pend := rfl
@[simp] theorem Team.setToken_q (t : Team) (k : Nat) (x : Token) : (t.setToken k x).q = t.q := rfl
@[simp] theorem Team.setToken_fmt (t : Team) (k : Nat) (x : Token) : (t.setToken k x).fmt = t.fmt := rfl
@[simp] theorem Team.setToken_srseed (t : Team) (k : Nat) (x : Token) : (t.setToken k x).srseed = t.srseed := rfl
@[simp] theorem Team.setToken_srctr (t : Team) (k : Nat) (x : Token) : (t.setToken k x).srctr = t.srctr := rfl
@[simp] theorem Team.setToken_histbase (t : Team) (k : Nat) (x : Token) : (t.setToken k x).histbase = t.histbase := rfl
@[simp] theorem Team.setToken_yieldpc (t : Team) (k : Nat) (x : Token) : (t.setToken k x).yieldpc = t.yieldpc := rfl
@[simp] theorem Team.setToken_trapcause (t : Team) (k : Nat) (x : Token) : (t.setToken k x).trapcause = t.trapcause := rfl
@[simp] theorem Team.setToken_trappc (t : Team) (k : Nat) (x : Token) : (t.setToken k x).trappc = t.trappc := rfl
@[simp] theorem Team.setToken_trapseq (t : Team) (k : Nat) (x : Token) : (t.setToken k x).trapseq = t.trapseq := rfl
@[simp] theorem Team.setToken_traplidx (t : Team) (k : Nat) (x : Token) : (t.setToken k x).traplidx = t.traplidx := rfl
@[simp] theorem Team.setToken_trapval (t : Team) (k : Nat) (x : Token) : (t.setToken k x).trapval = t.trapval := rfl
@[simp] theorem Team.setToken_trapvec (t : Team) (k : Nat) (x : Token) : (t.setToken k x).trapvec = t.trapvec := rfl
@[simp] theorem Team.setToken_trapcur (t : Team) (k : Nat) (x : Token) : (t.setToken k x).trapcur = t.trapcur := rfl
@[simp] theorem Team.setToken_frame (t : Team) (k : Nat) (x : Token) : (t.setToken k x).frame = t.frame := rfl
@[simp] theorem Team.setToken_seqctr (t : Team) (k : Nat) (x : Token) : (t.setToken k x).seqctr = t.seqctr := rfl
@[simp] theorem Team.setToken_latch (t : Team) (k : Nat) (x : Token) : (t.setToken k x).latch = t.latch := rfl
@[simp] theorem Team.setToken_laneq (t : Team) (k : Nat) (x : Token) : (t.setToken k x).laneq = t.laneq := rfl
@[simp] theorem Team.setToken_laneFree (t : Team) (k : Nat) (x : Token) : (t.setToken k x).laneFree = t.laneFree := rfl
@[simp] theorem Team.setToken_sdq (t : Team) (k : Nat) (x : Token) : (t.setToken k x).sdq = t.sdq := rfl
@[simp] theorem Team.setToken_nextOp (t : Team) (k : Nat) (x : Token) : (t.setToken k x).nextOp = t.nextOp := rfl
@[simp] theorem Team.setToken_trapReq (t : Team) (k : Nat) (x : Token) : (t.setToken k x).trapReq = t.trapReq := rfl
@[simp] theorem Team.setToken_park (t : Team) (k : Nat) (x : Token) : (t.setToken k x).park = t.park := rfl
@[simp] theorem Team.setToken_barWait (t : Team) (k : Nat) (x : Token) : (t.setToken k x).barWait = t.barWait := rfl
@[simp] theorem Team.setToken_came (t : Team) (k : Nat) (x : Token) : (t.setToken k x).came = t.came := rfl
@[simp] theorem Team.setToken_esc (t : Team) (k : Nat) (x : Token) : (t.setToken k x).esc = t.esc := rfl
@[simp] theorem Team.setToken_escDone (t : Team) (k : Nat) (x : Token) : (t.setToken k x).escDone = t.escDone := rfl
@[simp] theorem Team.setToken_escTrap (t : Team) (k : Nat) (x : Token) : (t.setToken k x).escTrap = t.escTrap := rfl
@[simp] theorem Team.setToken_async (t : Team) (k : Nat) (x : Token) : (t.setToken k x).async = t.async := rfl
@[simp] theorem Team.setToken_saveReq (t : Team) (k : Nat) (x : Token) : (t.setToken k x).saveReq = t.saveReq := rfl
@[simp] theorem Team.setToken_deadline (t : Team) (k : Nat) (x : Token) : (t.setToken k x).deadline = t.deadline := rfl
@[simp] theorem Team.setToken_haltReq (t : Team) (k : Nat) (x : Token) : (t.setToken k x).haltReq = t.haltReq := rfl
@[simp] theorem Team.setToken_halted (t : Team) (k : Nat) (x : Token) : (t.setToken k x).halted = t.halted := rfl
@[simp] theorem Team.setToken_stepOnce (t : Team) (k : Nat) (x : Token) : (t.setToken k x).stepOnce = t.stepOnce := rfl
@[simp] theorem Team.setToken_saveKind (t : Team) (k : Nat) (x : Token) : (t.setToken k x).saveKind = t.saveKind := rfl
@[simp] theorem Team.setToken_resumeD (t : Team) (k : Nat) (x : Token) : (t.setToken k x).resumeD = t.resumeD := rfl
@[simp] theorem Team.setToken_saveStopped (t : Team) (k : Nat) (x : Token) : (t.setToken k x).saveStopped = t.saveStopped := rfl
@[simp] theorem Team.setToken_drainedAt (t : Team) (k : Nat) (x : Token) : (t.setToken k x).drainedAt = t.drainedAt := rfl
@[simp] theorem Team.setToken_bpSkip (t : Team) (k : Nat) (x : Token) : (t.setToken k x).bpSkip = t.bpSkip := rfl
@[simp] theorem Team.setToken_bpHalt (t : Team) (k : Nat) (x : Token) : (t.setToken k x).bpHalt = t.bpHalt := rfl
@[simp] theorem Team.setToken_brkHalt (t : Team) (k : Nat) (x : Token) : (t.setToken k x).brkHalt = t.brkHalt := rfl
@[simp] theorem Team.setToken_lastRun (t : Team) (k : Nat) (x : Token) : (t.setToken k x).lastRun = t.lastRun := rfl
@[simp] theorem Team.setToken_ended (t : Team) (k : Nat) (x : Token) : (t.setToken k x).ended = t.ended := rfl
@[simp] theorem Team.setToken_restarted (t : Team) (k : Nat) (x : Token) : (t.setToken k x).restarted = t.restarted := rfl
@[simp] theorem Team.setToken_counting (t : Team) (k : Nat) (x : Token) : (t.setToken k x).counting = t.counting := rfl
@[simp] theorem Team.setToken_lastIssue (t : Team) (k : Nat) (x : Token) : (t.setToken k x).lastIssue = t.lastIssue := rfl
@[simp] theorem Team.setToken_lastPc (t : Team) (k : Nat) (x : Token) : (t.setToken k x).lastPc = t.lastPc := rfl
@[simp] theorem Team.setToken_crewCmds (t : Team) (k : Nat) (x : Token) : (t.setToken k x).crewCmds = t.crewCmds := rfl
@[simp] theorem Team.setToken_sack (t : Team) (k : Nat) (x : Token) : (t.setToken k x).sack = t.sack := rfl
@[simp] theorem Team.setToken_core (t : Team) (k : Nat) (x : Token) : (t.setToken k x).core = t.core := rfl
@[simp] theorem Team.setToken_quarter (t : Team) (k : Nat) (x : Token) : (t.setToken k x).quarter = t.quarter := rfl
@[simp] theorem Team.setToken_slot (t : Team) (k : Nat) (x : Token) : (t.setToken k x).slot = t.slot := rfl
@[simp] theorem Team.setToken_group (t : Team) (k : Nat) (x : Token) : (t.setToken k x).group = t.group := rfl
@[simp] theorem Team.setToken_index (t : Team) (k : Nat) (x : Token) : (t.setToken k x).index = t.index := rfl
@[simp] theorem Team.setToken_nwarp (t : Team) (k : Nat) (x : Token) : (t.setToken k x).nwarp = t.nwarp := rfl
@[simp] theorem Team.setToken_nvreg (t : Team) (k : Nat) (x : Token) : (t.setToken k x).nvreg = t.nvreg := rfl
@[simp] theorem Team.setToken_crewed (t : Team) (k : Nat) (x : Token) : (t.setToken k x).crewed = t.crewed := rfl
@[simp] theorem Team.setToken_crew (t : Team) (k : Nat) (x : Token) : (t.setToken k x).crew = t.crew := rfl
@[simp] theorem Team.setToken_origin (t : Team) (k : Nat) (x : Token) : (t.setToken k x).origin = t.origin := rfl
@[simp] theorem Team.setToken_live (t : Team) (k : Nat) (x : Token) : (t.setToken k x).live = t.live := rfl
@[simp] theorem Team.setToken_stale (t : Team) (k : Nat) (x : Token) : (t.setToken k x).stale = t.stale := rfl
@[simp] theorem Team.setToken_going (t : Team) (k : Nat) (x : Token) : (t.setToken k x).going = t.going := rfl
@[simp] theorem Team.setToken_replace (t : Team) (k : Nat) (x : Token) : (t.setToken k x).replace = t.replace := rfl
@[simp] theorem Team.setToken_flush (t : Team) (k : Nat) (x : Token) : (t.setToken k x).flush = t.flush := rfl

@[simp] theorem Team.token_setToken (t : Team) (k : Nat) (x : Token) : (t.setToken k x).token k = x := by
  simp [Team.token, Team.setToken]
theorem Team.token_setToken_other (t : Team) {k j : Nat} (x : Token) (h : j ≠ k) :
    (t.setToken k x).token j = t.token j := by
  simp [Team.token, Team.setToken, Store.get_set_other _ _ _ h]

end Sys2Proof.Machine
end

