-- ==== Sys2Proof/Safety.lean ====
section
/-!
DEFINITION. Safety.lean: what every state of a run satisfies: memory, the translation buffers, the teams and the groups are
tables in their canonical form, so that equal contents are equal data.
-/

namespace Sys2Proof

/-- The invariant of a run. -/
structure Canonical (s : Machine.State) : Prop where
  mem    : Machine.Memory.wf s.mem
  tlb    : Machine.Store.wf ({} : Machine.TlbEntry) s.tlb = true
  teams  : Machine.Store.wf ({} : Machine.Team) s.teams = true
  groups : Machine.Store.wf ({} : Machine.Group) s.groups = true

end Sys2Proof
end

