-- ==== Sys2Proof/Certificates/Slice0/Obligations.lean ====
section
/-!
DEFINITION. Certificates/Slice0/Obligations.lean: the statements about the model, with the few words that they are written
in. Numbers are those of OBLIGATIONS.json.
-/

namespace Sys2Proof.Machine

/-! ### Words of the statements -/

/-- The team with x written to scalar register d (s0 discards it) and n bytes of code behind it. -/
def Team.wrote (t : Team) (d : BitVec 6) (x n : Word) : Team :=
  { t with s := if d = 0#6 then t.s else Store.set 0 t.s d.toNat x, pc := t.pc + n }

/-- The instruction answers the state in which the executing team alone has changed, to u. -/
def Gives (i : Instr) (s : State) (u : Team) : Prop := exec i s = .next (s.setTeam u)

/-- The value lies outside the 64-bit signed range. -/
def overflows (x : Int) : Bool := decide (x < -2 ^ 63) || decide (2 ^ 63 ≤ x)

end Sys2Proof.Machine

open Sys2Proof Sys2Proof.Machine

/-! ### Scalar arithmetic -/

/-- R19: s0 reads as 0 and discards what is written to it; every other register holds what was last written to it. -/
def Obligations.ScalarRegisterFile : Prop :=
  ∀ (t : Team) (d e : BitVec 6) (x : Word),
    (t.setReg d x).reg e = if e = 0#6 then 0#64 else if e = d then x else t.reg e

/-- R169: the register forms that write no flag, as arithmetic on 64-bit words. Nothing but the register and the pc
changes. -/
def Sys2Proof.Claims.AluResults : Prop :=
  ∀ (s : State) (d a b : BitVec 6) (c : BitVec 4),
    let x := s.team.reg a
    let y := s.team.reg b
    Gives (.imul d a b) s (s.team.wrote d (BitVec.ofInt 64 (x.toInt * y.toInt)) 4)
    ∧ Gives (.imulh d a b) s
        (s.team.wrote d ((x.signExtend 128 * y.signExtend 128).extractLsb' 64 64) 4)
    ∧ Gives (.imulhu d a b) s
        (s.team.wrote d ((x.zeroExtend 128 * y.zeroExtend 128).extractLsb' 64 64) 4)
    ∧ Gives (.and d a b) s (s.team.wrote d (x &&& y) 4)
    ∧ Gives (.or d a b) s (s.team.wrote d (x ||| y) 4)
    ∧ Gives (.xor d a b) s (s.team.wrote d (x ^^^ y) 4)
    ∧ Gives (.shl d a b) s (s.team.wrote d (x <<< (y &&& 63#64)) 4)
    ∧ Gives (.shr d a b) s (s.team.wrote d (x >>> (y &&& 63#64)) 4)
    ∧ Gives (.sar d a b) s (s.team.wrote d (BitVec.ofInt 64 (x.toInt / 2 ^ (y &&& 63#64).toNat)) 4)
    ∧ Gives (.imin d a b) s (s.team.wrote d (BitVec.ofInt 64 (min x.toInt y.toInt)) 4)
    ∧ Gives (.imax d a b) s (s.team.wrote d (BitVec.ofInt 64 (max x.toInt y.toInt)) 4)
    ∧ Gives (.iminu d a b) s (s.team.wrote d (BitVec.ofNat 64 (min x.toNat y.toNat)) 4)
    ∧ Gives (.imaxu d a b) s (s.team.wrote d (BitVec.ofNat 64 (max x.toNat y.toNat)) 4)
    ∧ Gives (.sxt8 d a) s (s.team.wrote d ((x.extractLsb' 0 8).signExtend 64) 4)
    ∧ Gives (.sxt16 d a) s (s.team.wrote d ((x.extractLsb' 0 16).signExtend 64) 4)
    ∧ Gives (.sxt32 d a) s (s.team.wrote d ((x.extractLsb' 0 32).signExtend 64) 4)
    ∧ Gives (.selCc d a b c) s (s.team.wrote d (if condHolds c s.team.pstat then x else y) 4)

/-- R170: the quotients and remainders, with the results for a zero divisor and for the overflowing quotient; in checking
mode a zero divisor traps DIVFAULT with the dividend in TRAPVAL. -/
def Obligations.DivisionResults : Prop :=
  ∀ (s : State) (d a b : BitVec 6),
    let x := s.team.reg a
    let y := s.team.reg b
    (s.team.pstat.chk = true → y = 0#64 → ∀ i ∈ [Instr.idiv d a b, .irem d a b, .idivu d a b, .iremu d a b],
        exec i s = .next (s.trap 0x14 x))
    ∧ (s.team.pstat.chk = false ∨ y ≠ 0#64 →
      Gives (.idiv d a b) s (s.team.wrote d (if y = 0#64 then -1#64 else BitVec.ofInt 64 (x.toInt.tdiv y.toInt)) 4)
      ∧ Gives (.irem d a b) s (s.team.wrote d (if y = 0#64 then x else BitVec.ofInt 64 (x.toInt.tmod y.toInt)) 4)
      ∧ Gives (.idivu d a b) s (s.team.wrote d (if y = 0#64 then 0xFFFF_FFFF_FFFF_FFFF#64 else x / y) 4)
      ∧ Gives (.iremu d a b) s (s.team.wrote d (if y = 0#64 then x else x % y) 4)
      ∧ (x = BitVec.intMin 64 → y = -1#64 →
          Gives (.idiv d a b) s (s.team.wrote d (BitVec.intMin 64) 4) ∧ Gives (.irem d a b) s (s.team.wrote d 0#64 4)))

/-- R167: the flags of the five instructions that add and subtract, from the exact sum and difference. -/
def Sys2Proof.Claims.FlagResults : Prop :=
  ∀ (s : State) (d a b : BitVec 6) (i : BitVec 14),
    let x := s.team.reg a
    let y := s.team.reg b
    let k : Word := i.signExtend 64
    let sum (p q : Word) : Pstat := { s.team.pstat with
      n := (p + q).getLsbD 63, z := decide (p + q = 0#64), c := decide (2 ^ 64 ≤ p.toNat + q.toNat),
      v := overflows (p.toInt + q.toInt) }
    let diff (p q : Word) : Pstat := { s.team.pstat with
      n := (p - q).getLsbD 63, z := decide (p = q), c := decide (q.toNat ≤ p.toNat),
      v := overflows (p.toInt - q.toInt) }
    Gives (.iadd d a b) s { s.team.wrote d (x + y) 4 with pstat := sum x y }
    ∧ Gives (.isub d a b) s { s.team.wrote d (x - y) 4 with pstat := diff x y }
    ∧ Gives (.cmp a b) s { s.team with pc := s.team.pc + 4, pstat := diff x y }
    ∧ Gives (.iaddi d a i) s { s.team.wrote d (x + k) 4 with pstat := sum x k }
    ∧ Gives (.cmpi a i) s { s.team with pc := s.team.pc + 4, pstat := diff x k }

/-- R149: what each condition code tests. -/
def Sys2Proof.Claims.ConditionCodes : Prop :=
  ∀ p : Pstat,
    condHolds 0 p = true ∧ condHolds 1 p = p.z ∧ condHolds 2 p = !p.z ∧ condHolds 3 p = decide (p.n ≠ p.v)
    ∧ condHolds 4 p = decide (p.n = p.v) ∧ condHolds 5 p = decide (p.z = false ∧ p.n = p.v)
    ∧ condHolds 6 p = decide (p.z = true ∨ p.n ≠ p.v) ∧ condHolds 7 p = !p.c ∧ condHolds 8 p = p.c
    ∧ condHolds 9 p = decide (p.c = true ∧ p.z = false) ∧ condHolds 10 p = decide (p.c = false ∨ p.z = true)
    ∧ condHolds 11 p = p.v ∧ condHolds 12 p = p.p ∧ condHolds 13 p = p.mz ∧ condHolds 14 p = !p.mz
    ∧ condHolds 15 p = p.ma

/-- R149, R167: the flags of sums and differences, and what each condition code makes of the flags; C after `isub` and `cmp`
is 1 exactly when a ≥ b, unsigned. -/
def Obligations.FlagResults : Prop := Claims.FlagResults ∧ Claims.ConditionCodes

/-- R171: the immediate forms that write no flag. -/
def Sys2Proof.Claims.ImmediateResults : Prop :=
  ∀ (s : State) (d a n : BitVec 6) (i : BitVec 14),
    let x := s.team.reg a
    let k : Word := i.signExtend 64
    Gives (.imuli d a i) s (s.team.wrote d (BitVec.ofInt 64 (x.toInt * i.toInt)) 4)
    ∧ Gives (.andi d a i) s (s.team.wrote d (x &&& k) 4)
    ∧ Gives (.ori d a i) s (s.team.wrote d (x ||| k) 4)
    ∧ Gives (.xori d a i) s (s.team.wrote d (x ^^^ k) 4)
    ∧ Gives (.shli d a n) s (s.team.wrote d (BitVec.ofNat 64 (x.toNat * 2 ^ n.toNat)) 4)
    ∧ Gives (.shri d a n) s (s.team.wrote d (BitVec.ofNat 64 (x.toNat / 2 ^ n.toNat)) 4)
    ∧ Gives (.sari d a n) s (s.team.wrote d (BitVec.ofInt 64 (x.toInt / 2 ^ n.toNat)) 4)

/-- R169, R171: the register and immediate forms that write no flag. -/
def Obligations.AluResults : Prop := Claims.AluResults ∧ Claims.ImmediateResults

/-! ### Control transfers -/

namespace Sys2Proof.Machine

/-- The team goes on at a target; it is known where the transfer came from, for the test of R146 there. -/
def Team.goTo (t : Team) (src target : Word) : Team := { t with pc := target, came := some src }

end Sys2Proof.Machine

/-- R172: the six transfers, and the trap of a register target that is not a multiple of 4, before anything is written. -/
def Obligations.Transfers : Prop :=
  ∀ (s : State) (c : BitVec 4) (k : BitVec 22) (a d : BitVec 6) (i : BitVec 14),
    let t := s.team
    let x := t.reg a
    Gives (.brCc c k) s
        (if condHolds c t.pstat then t.goTo t.pc (t.pc + BitVec.ofInt 64 (4 * k.toInt)) else { t with pc := t.pc + 4 })
    ∧ Gives (.call k) s ((t.wrote 1#6 (t.pc + 4) 0).goTo t.pc (t.pc + BitVec.ofInt 64 (4 * k.toInt)))
    ∧ Gives (.dbnz d i) s
        (if t.reg d = 1#64 then t.wrote d 0#64 4
         else (t.wrote d (t.reg d - 1#64) 0).goTo t.pc (t.pc + BitVec.ofInt 64 (4 * i.toInt)))
    ∧ (x.toNat % 4 = 0 →
        Gives (.jr a) s (t.goTo t.pc x) ∧ Gives (.callr a) s ((t.wrote 1#6 (t.pc + 4) 0).goTo t.pc x))
    ∧ ((t.reg 1#6).toNat % 4 = 0 → Gives .ret s (t.goTo t.pc (t.reg 1#6)))
    ∧ (x.toNat % 4 ≠ 0 →
        exec (.jr a) s = .next (s.trap 0x08 x) ∧ exec (.callr a) s = .next (s.trap 0x08 x))
    ∧ ((t.reg 1#6).toNat % 4 ≠ 0 → exec .ret s = .next (s.trap 0x08 (t.reg 1#6)))

/-- R142, R145: an `ext` and the instruction after it, fetched as R168 says, act as one, with the 40-bit immediate. -/
def Sys2Proof.Claims.PrefixedInstructions : Prop :=
  ∀ (s : State) (hi : BitVec 26) (d a : BitVec 6) (lo : BitVec 14) (j : Instr),
    let t := s.team
    let x := t.reg a
    let imm : Word := BitVec.ofInt 64 (hi.toInt * 2 ^ 14 + lo.toNat)
    s.fetchAt t (t.pc + 4#64).toNat 4 = .word (encode j) →
    (j = .iaddi d a lo → Gives (.ext hi) s
      { t.wrote d (x + imm) 8 with pstat := { t.pstat with
          n := (x + imm).getLsbD 63, z := decide (x + imm = 0#64), c := decide (2 ^ 64 ≤ x.toNat + imm.toNat),
          v := overflows (x.toInt + imm.toInt) } })
    ∧ (j = .imuli d a lo → Gives (.ext hi) s (t.wrote d (x * imm) 8))
    ∧ (j = .andi d a lo → Gives (.ext hi) s (t.wrote d (x &&& imm) 8))
    ∧ (j = .ori d a lo → Gives (.ext hi) s (t.wrote d (x ||| imm) 8))
    ∧ (j = .xori d a lo → Gives (.ext hi) s (t.wrote d (x ^^^ imm) 8))
    ∧ (j = .cmpi a lo → Gives (.ext hi) s
      { t with pc := t.pc + 8, pstat := { t.pstat with
          n := (x - imm).getLsbD 63, z := decide (x = imm), c := decide (imm.toNat ≤ x.toNat),
          v := overflows (x.toInt - imm.toInt) } })

/-- R146: an `ext` before a word that takes none traps PREFIX, with TRAPVAL 0. -/
def Sys2Proof.Claims.PrefixRefused : Prop :=
  ∀ (s : State) (hi : BitVec 26) (w : Nat),
    let t := s.team
    s.fetchAt t (t.pc + 4#64).toNat 4 = .word w → w / 2 ^ 26 % 64 ∉ [1, 2, 3, 4, 5, 9] →
    exec (.ext hi) s = .next (s.trap 0x02 0)

/-- R142, R145, R146: the prefix. -/
def Obligations.Prefixes : Prop := Claims.PrefixedInstructions ∧ Claims.PrefixRefused

/-! ### Traps and returns -/

namespace Sys2Proof.Machine

/-- A trap of the team can enter its handler at once: INH is 0, nothing is queued, no register write is outstanding, no
crewed command is orphaned, and the debug unit of the core observes nothing. -/
def State.canEnter (s : State) : Prop :=
  s.team.pstat.inh = false ∧ s.team.laneq = [] ∧ s.team.regPending = false ∧ s.orphans s.team = []
    ∧ s.traces s.team.core s.team.pstat.tag 3 = false ∧ (s.dbg s.team.core).run = false

/-- The team in its handler (R304, R305), for a trap with these values at this point. -/
def Team.inHandler (t : Team) (handler : Word) (r : TrapReq) : Team :=
  { t with
    trapcause := BitVec.ofNat 64 (r.cause % 256 + if r.sw then 256 else 0), trappc := r.pc,
    trapseq := r.seq.zeroExtend 64, traplidx := r.lidx, trapval := r.val, trapvec := r.vec, trapcur := 0,
    srctr := r.srctr, seqctr := r.seq,
    frame := some { pl := t.pstat.pl, inh := t.pstat.inh, stp := t.pstat.stp, n := t.pstat.n, z := t.pstat.z,
                    c := t.pstat.c, v := t.pstat.v, mz := t.pstat.mz, ma := t.pstat.ma, srctr := r.srctr, tok := t.tok,
                    vec := r.vec, cur := 0 },
    pstat := { t.pstat with pl := 1#2, inh := true, stp := false }, tok := [],
    pend := t.pend.map fun p => { p with inFrame := true },
    pc := handler, lidx := none, lhdr := none, came := none, trapReq := none, bpSkip := none, bpHalt := false,
    brkHalt := false, lastRun := none, flush := none, park := none, going := none, replace := none }

/-- A trap at the scalar instruction at pc. -/
def Team.here (t : Team) (cause : Nat) (sw : Bool) (val : Word) : TrapReq :=
  { cause := cause, sw := sw, val := val, pc := t.pc, seq := t.seqctr, srctr := t.srctr }

end Sys2Proof.Machine

/-- R304: a trap with INH = 0 enters the handler when every earlier lane instruction has issued and every register write
has been delivered, and is held until then. -/
def Sys2Proof.Claims.TrapEntry : Prop :=
  ∀ (s : State) (r : TrapReq),
    (s.canEnter → s.raise r = s.setTeam (s.team.inHandler (s.groupAt s.team.group).handler r))
    ∧ (s.team.pstat.inh = false → s.orphans s.team = [] → s.team.laneq ≠ [] ∨ s.team.regPending = true →
        s.raise r = s.setTeam { s.team with trapReq := some r })

/-- R307: a trap with INH = 1 does not enter the handler; the team stops, with its trap registers and frame intact, and the
cause, SW and TRAPVAL go to management. -/
def Sys2Proof.Claims.TrapEscalates : Prop :=
  ∀ (s : State) (r : TrapReq), s.team.pstat.inh = true → s.team.laneq = [] →
    ∃ u, s.raise r = s.setTeam u ∧ u.esc = some r.cause ∧ u.escTrap = some r ∧ u.frame = s.team.frame
      ∧ u.pstat = s.team.pstat ∧ u.pc = s.team.pc ∧ u.trapcause = s.team.trapcause ∧ u.trappc = s.team.trappc
      ∧ u.trapval = s.team.trapval ∧ u.tok = s.team.tok ∧ u.runs = false

/-- R304, R305, R307: the entry to the handler, and the escalation of a trap inside one. -/
def Obligations.TrapEntry : Prop := Claims.TrapEntry ∧ Claims.TrapEscalates

/-- R152, R196, R197: `brk`, `trap` and an unassigned word trap at their own address, when no debugger takes the `brk`. -/
def Obligations.TrapInstructions : Prop :=
  ∀ (s : State) (a b : BitVec 6) (w : BitVec 32), s.canEnter →
    let t := s.team
    let h := (s.groupAt t.group).handler
    (1 ≤ (t.reg a).toNat → (t.reg a).toNat ≤ 0x14 →
        Gives (.trap a b) s (t.inHandler h (t.here (t.reg a).toNat true (t.reg b))))
    ∧ ((s.dbg t.core).dbg.owner ≠ 0xFE → Gives .brk s (t.inHandler h (t.here 0x0D false 0)))
    ∧ Gives (.unassignedScalarWord w) s (t.inHandler h (t.here 0x01 false (w.zeroExtend 64)))
    ∧ ((t.reg a).toNat = 0 ∨ 0x14 < (t.reg a).toNat →
        Gives (.trap a b) s (t.inHandler h (t.here 0x01 false (BitVec.ofNat 64 (encode (.trap a b))))))

/-- R198, R306: `eret` from a handler whose frame stands, to a point that is no index of an `lrun`. -/
def Sys2Proof.Claims.EretReturns : Prop :=
  ∀ (s : State) (f : Frame),
    let t := s.team
    t.pstat.pl ≠ 0#2 → t.pstat.inh = true → s.orphanToken t = none → t.tokensZero = true → t.frame = some f →
    t.traplidx = 0xFFFFFFFF#32 → s.isExt t (t.trappc - 4#64).toNat = false → t.pstat.p = false →
    s.traces t.core t.pstat.tag 4 = false →
    Gives .eret s { t with
      pstat := { t.pstat with pl := f.pl, inh := f.inh, stp := f.stp, n := f.n, z := f.z, c := f.c, v := f.v,
                              mz := f.mz, ma := f.ma },
      srctr := f.srctr, tok := f.tok, frame := none, seqctr := t.trapseq.extractLsb' 0 32, pc := t.trappc,
      pend := t.pend.map (fun p => { p with inFrame := false }), lidx := none, lhdr := none, came := none }

/-- R198: where `eret` does not return: PRIV at user level, ILLEGAL with INH = 0, held while a live token counts. -/
def Sys2Proof.Claims.EretRefused : Prop :=
  ∀ s : State,
    let t := s.team
    (t.pstat.pl = 0#2 → exec .eret s = .next (s.trap 0x03 0xBC000002#64))
    ∧ (t.pstat.pl ≠ 0#2 → t.pstat.inh = false → exec .eret s = .next (s.trap 0x01 0xBC000002#64))
    ∧ (t.pstat.pl ≠ 0#2 → t.pstat.inh = true → s.orphanToken t = none → t.tokensZero = false →
        exec .eret s = .next s)

/-- R198, R306: the return from a handler, and where it is refused. -/
def Obligations.Eret : Prop := Claims.EretReturns ∧ Claims.EretRefused

/-- R19, R302 to R307: a trap entry and the `eret` after it, with nothing between, give back what the trap interrupted: the
registers, the flags, the masks, the tokens and the pc. -/
def Obligations.TrapThenEret : Prop :=
  ∀ (s : State) (cause : Nat) (val : Word) (s₁ : State), s.canEnter → s.raise (s.team.here cause false val) = s₁ →
    s.traces s.team.core s.team.pstat.tag 4 = false → s₁.orphanToken s₁.team = none →
    s.isExt s₁.team (s.team.pc - 4#64).toNat = false → s.team.pstat.p = false →
    ∃ u, Gives .eret s₁ u ∧ u.pc = s.team.pc ∧ u.pstat = s.team.pstat ∧ u.tok = s.team.tok ∧ u.s = s.team.s
      ∧ u.m = s.team.m ∧ u.v = s.team.v ∧ u.srctr = s.team.srctr ∧ u.seqctr = s.team.seqctr ∧ u.frame = none

/-! ### Scalar floating point -/

namespace Sys2Proof.Machine

/-- The low 32 bits of a register as a binary32 value. -/
def Team.f32v (t : Team) (a : BitVec 6) : FVal := fmtF32.decode ((t.reg a).extractLsb' 0 32).toNat

/-- The rounding mode of a scalar instruction: its RND, with FMT.DR for DYN, and the random bits of lane 0, element 0. -/
def Team.fpMode (t : Team) (r : BitVec 3) : Nat := if r = 7#3 then (t.fmt.extractLsb' 7 3).toNat else r.toNat
def Team.fpRnd (t : Team) (r : BitVec 3) : Rnd :=
  rndMode (t.fpMode r) (srBits t.srseed t.srctr (t.fmt.extractLsb' 14 4).toNat 0 0)

/-- A scalar result x in d, with the advance of SRCTR that a stochastic rounding makes. -/
def Team.fpWrote (t : Team) (d : BitVec 6) (r : BitVec 3) (x : Word) : Team :=
  { t.wrote d x 4 with srctr := if t.fpMode r = 5 then t.srctr + 1 else t.srctr }

end Sys2Proof.Machine

/-- R179, R181: the scalar binary32 results under every rounding mode, SAT 0, with the upper half of D zero. -/
def Sys2Proof.Claims.ScalarFloatResults : Prop :=
  ∀ (s : State) (d a b : BitVec 6) (r : BitVec 3), r ≠ 6#3 →
    let t := s.team
    let m := t.fpRnd r
    let put (v : FVal) : Team := t.fpWrote d r (BitVec.ofNat 64 ((fmtF32.ofVal m false v).code % 2 ^ 32))
    Gives (.faddF32 d a b r) s (put (FVal.add m (t.f32v a) (t.f32v b)))
    ∧ Gives (.fsubF32 d a b r) s (put (FVal.add m (t.f32v a) (t.f32v b).neg))
    ∧ Gives (.fmulF32 d a b r) s (put (FVal.mul (t.f32v a) (t.f32v b)))
    ∧ Gives (.ffmaF32 d a b r) s (put (FVal.fma m (t.f32v a) (t.f32v b) (t.f32v d)))
    ∧ Gives (.cvtF32S32 d a r) s (put (FVal.ofInt ((t.reg a).extractLsb' 0 32).toInt))
    ∧ Gives (.cvtS32F32 d a r) s
        (t.fpWrote d r (BitVec.ofInt 64 ((t.f32v a).toInt m (-2147483648) 2147483647)))

/-- R178, R179, R180: the minimum and maximum, in which ABSENT gives ABSENT, a NaN beside a number is ignored, two NaNs give
the canonical one and -0 lies below +0; and the flags of a comparison. -/
def Sys2Proof.Claims.ScalarFloatCompare : Prop :=
  ∀ (s : State) (d a b : BitVec 6),
    let t := s.team
    let x := t.f32v a
    let y := t.f32v b
    let flags (n z c v : Bool) : Team := { t with pc := t.pc + 4, pstat := { t.pstat with n := n, z := z, c := c, v := v } }
    let takesA (i : Instr) : Prop := Gives i s (t.wrote d ((t.reg a).extractLsb' 0 32 |>.zeroExtend 64) 4)
    let takesB (i : Instr) : Prop := Gives i s (t.wrote d ((t.reg b).extractLsb' 0 32 |>.zeroExtend 64) 4)
    let least := Instr.fminF32 d a b
    let most := Instr.fmaxF32 d a b
    (x = .absent ∨ y = .absent →
      Gives (.fminF32 d a b) s (t.wrote d 0xFFFFFFFF#64 4) ∧ Gives (.fmaxF32 d a b) s (t.wrote d 0xFFFFFFFF#64 4)
      ∧ Gives (.fcmpF32 a b) s (flags false true false true))
    ∧ (x ≠ .absent → y ≠ .absent →
      (x = .nan ∨ y = .nan → Gives (.fcmpF32 a b) s (flags false false false true))
      ∧ (x = .nan → y = .nan → ∀ i ∈ [least, most], Gives i s (t.wrote d 0x7FC00000#64 4))
      ∧ (x = .nan → y ≠ .nan → ∀ i ∈ [least, most], takesB i) ∧ (x ≠ .nan → y = .nan → ∀ i ∈ [least, most], takesA i)
      ∧ (x ≠ .nan → y ≠ .nan →
        (x.lt y → Gives (.fcmpF32 a b) s (flags true false false false) ∧ takesA least ∧ takesB most)
        ∧ (¬ x.lt y → y.lt x → Gives (.fcmpF32 a b) s (flags false false true false) ∧ takesB least ∧ takesA most)
        ∧ (¬ x.lt y → ¬ y.lt x → Gives (.fcmpF32 a b) s (flags false true true false)
            ∧ (x.isNeg = true → y.isNeg = false → takesA least ∧ takesB most)
            ∧ (x.isNeg = false → y.isNeg = true → takesB least ∧ takesA most)
            ∧ (x.isNeg = y.isNeg → ∀ i ∈ [least, most], takesA i ∨ takesB i))))

/-- R179 to R181: scalar binary32. -/
def Obligations.ScalarFloat : Prop := Claims.ScalarFloatResults ∧ Claims.ScalarFloatCompare

/-! ### Lane dispatch, tokens, formats -/

/-- R39, R41, R44, R182: an `lrun` or `lrunr` whose block fits into the queue enqueues every lane word of it in order, each
with its index, its sequence number and the registers that it captures, and goes on at the next instruction. -/
def Obligations.BlockEnqueued : Prop :=
  ∀ (s : State) (i : Instr) (hdr len : Nat) (mf : Bool) (w : Nat → Nat),
    let t := s.team
    ((∃ d : BitVec 26, i = .lrun d ∧ hdr = (s.groupAt t.group).lcbase.toNat + 4 * d.toNat)
      ∨ ∃ a : BitVec 6, i = .lrunr a ∧ hdr = (t.reg a).toNat) →
    s.header t hdr = .block len mf → t.lidx = none → t.laneq.length + len ≤ 64 → 1 ≤ len →
    (s.dbg t.core).bps = [] → t.stepOnce = false →
    (∀ n, n < len → s.fetchAt t (hdr + 12 * (n + 1)) 12 = .word (w n) ∧ s.enqueueFault t (w n) (mf || t.pstat.chk) = none) →
    ∃ (u : Team) (es : List LaneEntry), Gives i s u ∧ u.laneq = t.laneq ++ es ∧ es.length = len ∧ u.pc = t.pc + 4
      ∧ u.seqctr = t.seqctr + BitVec.ofNat 32 len ∧ u.lidx = none ∧ u.s = t.s ∧ u.v = t.v ∧ u.m = t.m ∧ u.tok = t.tok
      ∧ u.pstat = t.pstat ∧ u.lcptr = BitVec.ofNat 64 (hdr + 12 * (len + 1))
      ∧ ∀ n, n < len → ∃ e, es[n]? = some e ∧ e.word = BitVec.ofNat 96 (w n) ∧ e.lidx = n ∧ e.pc = t.pc
          ∧ e.seq = t.seqctr + BitVec.ofNat 32 n ∧ e.x = t.reg (BitVec.ofNat 6 (w n))
              ∧ e.y = t.reg (BitVec.ofNat 6 (w n / 2 ^ 8))
          ∧ e.fmt = t.fmt ∧ e.seed = t.srseed ∧ e.hist = t.histbase ∧ e.chk = t.pstat.chk

/-- R182 to R184, R187, R196: the instructions that watch the lane queue and the tokens, and those that set formats and seeds.
-/
def Obligations.QueueTokensFormats : Prop :=
  ∀ (s : State) (d a b : BitVec 6) (k : BitVec 4) (n : BitVec 6),
    let t := s.team
    let x := t.reg a
    Gives .nop s { t with pc := t.pc + 4 }
    ∧ (t.laneq = [] → Gives .lsync s { t with pc := t.pc + 4 }) ∧ (t.laneq ≠ [] → exec .lsync s = .next s)
    ∧ Gives (.lqcnt d) s (t.wrote d (BitVec.ofNat 64 t.laneq.length) 4)
    ∧ (s.orphanBlocks t k.toNat n.toNat = false → t.queuedPost k.toNat = false → (t.token k.toNat).count ≤ n.toNat →
        Gives (.wait k n) s { t with pc := t.pc + 4 })
    ∧ (s.orphanBlocks t k.toNat n.toNat = false → t.queuedPost k.toNat = true ∨ n.toNat < (t.token k.toNat).count →
        exec (.wait k n) s = .next s)
    ∧ Gives (.tkrd d k) s
        { t.wrote d (BitVec.ofNat 64 ((t.token k.toNat).count + if (t.token k.toNat).cancel then 64 else 0)) 4 with
          tok := Store.set {} t.tok k.toNat { t.token k.toNat with cancel := false } }
    ∧ encode (.tkrd 11 3) = 0x8CB00003
    ∧ Gives (.fmtget d) s (t.wrote d t.fmt 4)
    ∧ Gives (.srseed a b) s { t with pc := t.pc + 4, srseed := t.reg a, srctr := t.reg b }
    ∧ (x.extractLsb' 0 3 ≠ 0#3 → x.extractLsb' 5 2 ≠ 3#2 → x.extractLsb' 7 3 ≤ 5#3 → x.extractLsb' 18 46 = 0#46 →
        Gives (.fmtset a) s { t with pc := t.pc + 4, fmt := x })
    ∧ (x.extractLsb' 0 3 = 0#3 ∨ x.extractLsb' 5 2 = 3#2 ∨ 5#3 < x.extractLsb' 7 3 ∨ x.extractLsb' 18 46 ≠ 0#46 →
        exec (.fmtset a) s = .next (s.trap 0x01 (BitVec.ofNat 64 (encode (.fmtset a)))))

/-! ### Masks and stream slots -/

namespace Sys2Proof.Machine

/-- The instruction writes mask d, bit by bit below 32W, and nothing else but the pc. -/
def WritesMask (i : Instr) (s : State) (d : BitVec 6) (f : Nat → Bool) : Prop :=
  ∃ u, Gives i s u ∧ u = { s.team with m := u.m, pc := s.team.pc + 4 }
    ∧ (∀ l, l < 1024 → (u.mask d.toNat).getLsbD l = (decide (l < 32 * s.team.nwarp) && f l))
    ∧ ∀ n, n ≠ d.toNat → u.mask n = s.team.mask n

end Sys2Proof.Machine

/-- R188: the whole-mask operations, when no queued or outstanding lane instruction holds them (R40). -/
def Sys2Proof.Claims.MaskResults : Prop :=
  ∀ (s : State) (d a b : BitVec 6), 1 ≤ d.toNat → d.toNat < 16 → a.toNat < 16 → b.toNat < 16 →
    s.team.maskHeld [a.toNat, b.toNat] d.toNat = false →
    let t := s.team
    let x := t.mask a.toNat
    let y := t.mask b.toNat
    WritesMask (.mand d a b) s d (fun l => x.getLsbD l && y.getLsbD l)
    ∧ WritesMask (.mor d a b) s d (fun l => x.getLsbD l || y.getLsbD l)
    ∧ WritesMask (.mxor d a b) s d (fun l => x.getLsbD l != y.getLsbD l)
    ∧ WritesMask (.mnot d a) s d (fun l => !x.getLsbD l)

/-- R188: the operations between masks and scalar registers. The bits that count are those of live lanes. -/
def Sys2Proof.Claims.MaskScalarResults : Prop :=
  ∀ (s : State) (d a b m : BitVec 6), m.toNat < 16 →
    let t := s.team
    let x := t.mask m.toNat
    let live := (List.range 1024).filter fun l => x.getLsbD l && t.m0.getLsbD l
    (t.maskHeld [m.toNat] 0 = false →
      Gives (.mcount d m) s (t.wrote d (BitVec.ofNat 64 live.length) 4)
      ∧ Gives (.mfirst d m) s (t.wrote d (match live with | [] => 0xFFFF_FFFF_FFFF_FFFF#64 | l :: _ => BitVec.ofNat 64 l) 4)
      ∧ Gives (.mtest m) s { t with pc := t.pc + 4, pstat := { t.pstat with
          mz := live.isEmpty, ma := (List.range 1024).all fun l => !t.m0.getLsbD l || x.getLsbD l } })
    ∧ (1 ≤ m.toNat → t.maskHeld [] m.toNat = false →
        WritesMask (.mset m a b) s m fun l => decide ((t.reg a).toNat ≤ l) && decide (l < (t.reg b).toNat))

/-- R151, R188: a mask number above 15, and m0 as a destination, trap ILLEGAL. -/
def Sys2Proof.Claims.MaskRefused : Prop :=
  ∀ (s : State) (d a b : BitVec 6),
    let illegal (i : Instr) : Prop := exec i s = .next (s.trap 0x01 (BitVec.ofNat 64 (encode i)))
    let noDest := d = 0#6 ∨ 16 ≤ d.toNat
    (noDest ∨ 16 ≤ a.toNat ∨ 16 ≤ b.toNat → ∀ i ∈ [Instr.mand d a b, .mor d a b, .mxor d a b], illegal i)
    ∧ (noDest ∨ 16 ≤ a.toNat → illegal (.mnot d a)) ∧ (noDest → illegal (.mset d a b))
    ∧ (16 ≤ a.toNat → ∀ i ∈ [Instr.mcount d a, .mfirst d a, .mtest a], illegal i)

/-- R151, R189: a slot or a field that does not exist traps ILLEGAL. -/
def Sys2Proof.Claims.SlotRefused : Prop :=
  ∀ (s : State) (d a b : BitVec 6) (f : BitVec 4), 4 ≤ b.toNat ∨ 5 ≤ f.toNat →
    ∀ i ∈ [Instr.qset a b f, .qget d b f], exec i s = .next (s.trap 0x01 (BitVec.ofNat 64 (encode i)))

/-- R189: the fields of a stream slot, as `qget` reads them and `qset` writes them, each for itself; and the values that `qset`
refuses. -/
def Sys2Proof.Claims.StreamSlotFields : Prop :=
  ∀ (s : State) (d a b : BitVec 6), b.toNat < 4 → s.team.laneNames (16 + b.toNat) = false →
    let t := s.team
    let x := t.reg a
    let q := t.stream b.toNat
    let put (r : Slot) : Team := { t with q := Store.set {} t.q b.toNat r, pc := t.pc + 4 }
    Gives (.qget d b 0) s (t.wrote d q.base 4)
    ∧ Gives (.qget d b 1) s (t.wrote d (BitVec.ofNat 64 (q.kind.toNat * 16 + q.ty.toNat)) 4)
    ∧ Gives (.qget d b 2) s (t.wrote d (BitVec.ofInt 64 q.stride.toInt) 4)
    ∧ Gives (.qget d b 3) s (t.wrote d (BitVec.ofNat 64 q.count.toNat) 4)
    ∧ Gives (.qget d b 4) s (t.wrote d (BitVec.ofNat 64 q.pos.toNat) 4)
    ∧ Gives (.qset a b 0) s (put { q with base := x })
    ∧ (x.toNat < 32 → x.toNat % 16 < 13 →
        Gives (.qset a b 1) s (put { q with kind := x.extractLsb' 4 1, ty := x.extractLsb' 0 4 }))
    ∧ (-2 ^ 31 ≤ x.toInt → x.toInt < 2 ^ 31 → Gives (.qset a b 2) s (put { q with stride := x.extractLsb' 0 32 }))
    ∧ (x.toNat < 2 ^ 32 → Gives (.qset a b 3) s (put { q with count := x.extractLsb' 0 32 })
        ∧ Gives (.qset a b 4) s (put { q with pos := x.extractLsb' 0 32 }))
    ∧ (32 ≤ x.toNat ∨ 13 ≤ x.toNat % 16 →
        exec (.qset a b 1) s = .next (s.trap 0x01 (BitVec.ofNat 64 (encode (.qset a b 1)))))
    ∧ (x.toInt < -2 ^ 31 ∨ 2 ^ 31 ≤ x.toInt →
        exec (.qset a b 2) s = .next (s.trap 0x01 (BitVec.ofNat 64 (encode (.qset a b 2)))))
    ∧ (2 ^ 32 ≤ x.toNat → ∀ f ∈ [3#4, 4#4],
        exec (.qset a b f) s = .next (s.trap 0x01 (BitVec.ofNat 64 (encode (.qset a b f)))))

/-- R188, R189: whole masks and stream slots. -/
def Obligations.MasksAndSlots : Prop :=
  Claims.MaskResults ∧ Claims.MaskScalarResults ∧ Claims.MaskRefused ∧ Claims.StreamSlotFields ∧ Claims.SlotRefused

/-! ### Addresses and scalar memory -/

/-- R87, R88, R92: an S-access checks each of its bytes. It reaches them when each lies in a bank of the team's tag and
world; otherwise OWNER comes before WORLD. -/
def Sys2Proof.Claims.ScratchpadChecks : Prop :=
  ∀ (s : State) (tag : BitVec 16) (world : BitVec 8) (own lane ea n : Nat) (f : Nat → Nat),
    (∀ i, i < n → ea + i < 2 ^ 31 ∧ (((ea + i) / 2 ^ 25 = 63 ∧ f i = own * 2 ^ 25 + (ea + i) % 2 ^ 25)
      ∨ ((ea + i) / 2 ^ 25 < 48 ∧ f i = ea + i))) →
    ((∀ i, i < n → (s.owner 1 (f i / 2 ^ 19)).tag = tag ∧ (s.owner 1 (f i / 2 ^ 19)).world = world) →
      s.checkS tag world own lane ea n = { keys := (List.range n).map fun i => 2 ^ 52 + f i })
    ∧ ((∃ i, i < n ∧ (s.owner 1 (f i / 2 ^ 19)).tag ≠ tag) →
      worst (s.checkS tag world own lane ea n).fails = some ⟨0x06, lane, ea, ea⟩)
    ∧ ((∀ i, i < n → (s.owner 1 (f i / 2 ^ 19)).tag = tag) →
        (∃ i, i < n ∧ (s.owner 1 (f i / 2 ^ 19)).world ≠ world) →
      worst (s.checkS tag world own lane ea n).fails = some ⟨0x07, lane, ea, ea⟩)

/-- R87: an S-access any byte of which lies outside the S-address space is rejected as OWNER at its effective address. -/
def Sys2Proof.Claims.ScratchpadRejects : Prop :=
  ∀ (s : State) (tag : BitVec 16) (world : BitVec 8) (own lane ea n i : Nat), i < n →
    2 ^ 31 ≤ ea + i ∨ (48 ≤ (ea + i) / 2 ^ 25 ∧ (ea + i) / 2 ^ 25 ≤ 62) →
    worst (s.checkS tag world own lane ea n).fails = some ⟨0x06, lane, ea, ea⟩

/-- R87, R88, R92: the checks of an S-access. -/
def Obligations.ScratchpadChecks : Prop := Claims.ScratchpadChecks ∧ Claims.ScratchpadRejects

/-- R90, R91: of the slots of the quarter that match a G-address the lowest translates it; where none does it misses, and a
missing permission or a non-canonical address is TB_PROT. The table must be in its canonical form (see
StepKeepsCanonical). -/
def Obligations.TranslationChoosesLowest : Prop :=
  ∀ (s : State) (gq need va : Nat) (tag : BitVec 16) (world : BitVec 8),
    Store.wf ({} : TlbEntry) s.tlb = true →
    let slot (i : Nat) : TlbEntry := Store.get {} s.tlb (512 * gq + i)
    let canon := va / 2 ^ 56 % 256 = 0 ∨ va / 2 ^ 56 % 256 = 255
    (¬ canon → s.translate gq tag world need va = .error 0x05)
    ∧ (canon → (∀ i, i < 512 → (slot i).hits tag world va = false) → s.translate gq tag world need va = .error 0x04)
    ∧ (∀ i, canon → i < 512 → (slot i).hits tag world va = true → (∀ j, j < i → (slot j).hits tag world va = false) →
        ((slot i).w0.toNat &&& need ≠ need → s.translate gq tag world need va = .error 0x05)
        ∧ ((slot i).w0.toNat &&& need = need →
            region (((slot i).w1.extractLsb' 16 36).toNat * 2 ^ 16 + va % 2 ^ (slot i).shift) ≠ .outside →
            s.translate gq tag world need va
              = .ok (((slot i).w1.extractLsb' 16 36).toNat * 2 ^ 16 + va % 2 ^ (slot i).shift)))

namespace Sys2Proof.Machine

/-- A scalar access of n bytes at ea passes its checks and reaches these bytes, none of which is a register of a device. -/
def State.reaches (s : State) (g : Bool) (need ea n : Nat) (keys : List Nat) : Prop :=
  (s.scalarCheck s.team g need ea n).fails = [] ∧ (s.scalarCheck s.team g need ea n).keys = keys
    ∧ keys.any inWindow = false

/-- Nothing holds an access to these bytes, none is poisoned, and none lies across the fabric. -/
def State.clear (s : State) (keys : List Nat) : Prop :=
  s.scalarWait s.team keys = false ∧ keys.any s.poisoned = false ∧ keys.any s.unreachable = false
    ∧ keys.any onFabric = false

/-- The i-th byte of a register, from the low end. -/
def byteOf (x : Word) (i : Nat) : Byte := x.extractLsb' (8 * i) 8

end Sys2Proof.Machine

/-- R5, R150, R175: a scalar load reads its bytes, little-endian and zero-extended, and leaves memory alone. A byte that a
queued store of the team holds is read from the queue (R122). -/
def Sys2Proof.Claims.ScalarLoads : Prop :=
  ∀ (s : State) (i : Instr) (g : Bool) (d a b : BitVec 6) (sc : BitVec 4) (c z : BitVec 2) (keys : List Nat),
    i = (if g then .ldG d a b sc c z else .ldS d a b sc c z) → i.wf = true →
    s.reaches g 2 (s.team.reg a + s.team.reg b).toNat (2 ^ z.toNat) keys → s.clear keys →
    ∃ x : Word, Gives i s (s.team.wrote d x 4) ∧ x.toNat < 2 ^ (8 * 2 ^ z.toNat)
      ∧ (∀ j k, keys[j]? = some k → byteOf x j = s.loadByte s.team k)
      ∧ ∀ k, (∀ w ∈ s.team.sdq, w.data k = none) → s.loadByte s.team k = s.homeByte s.team.pstat.tag k

/-- R122, R150: a scalar store puts the low bytes of D into the store-delay queue. The team's own loads see them at once;
memory, every other byte as the team loads it, and all registers are unchanged. -/
def Sys2Proof.Claims.ScalarStores : Prop :=
  ∀ (s : State) (i : Instr) (g : Bool) (d a b : BitVec 6) (sc : BitVec 4) (c z : BitVec 2) (keys : List Nat),
    i = (if g then .stG d a b sc c z else .stS d a b sc c z) → i.wf = true →
    s.reaches g 4 (s.team.reg a + s.team.reg b).toNat (2 ^ z.toNat) keys → keys.Nodup → s.fabricHeld keys = false →
    s.team.binsAhead (decide (c = 2#2)) keys = false →
    ∃ (u : Team) (new : List WriteOp), Gives i s u
      ∧ u = { s.team with sdq := s.team.sdq ++ new, nextOp := u.nextOp, stale := u.stale, pc := s.team.pc + 4 }
      ∧ (∀ j k, keys[j]? = some k → (s.setTeam u).loadByte u k = byteOf (s.team.reg d) j)
      ∧ (∀ k, k ∉ keys → (s.setTeam u).loadByte u k = s.loadByte s.team k)
      ∧ (∀ w ∈ new, w.born = s.cycle ∧ w.departed = false ∧ w.release = if c = 2#2 then some sc.toNat else none)
      ∧ ∀ k, (s.setTeam u).byte k = s.byte k

/-- R122, R150, R175: scalar loads and stores. -/
def Obligations.ScalarLoadsAndStores : Prop := Claims.ScalarLoads ∧ Claims.ScalarStores

namespace Sys2Proof.Machine

/-- The scalar atomics: G or S, the operation, the number type, the bytes, and D, A and B (R150, R177, R178). -/
def Instr.scalarAtomic? : Instr → Option (Bool × RmwOp × BitVec 4 × Nat × BitVec 6 × BitVec 6 × BitVec 6)
  | .atomAddS d a b z => some (false, .add, atomPlain z, atomBytes z, d, a, b)
  | .atomMinS d a b z => some (false, .min, atomSigned z, atomBytes z, d, a, b)
  | .atomMaxS d a b z => some (false, .max, atomSigned z, atomBytes z, d, a, b)
  | .atomMinuS d a b z => some (false, .min, atomPlain z, atomBytes z, d, a, b)
  | .atomMaxuS d a b z => some (false, .max, atomPlain z, atomBytes z, d, a, b)
  | .atomAndS d a b z => some (false, .and, atomPlain z, atomBytes z, d, a, b)
  | .atomOrS d a b z => some (false, .or, atomPlain z, atomBytes z, d, a, b)
  | .atomXorS d a b z => some (false, .xor, atomPlain z, atomBytes z, d, a, b)
  | .atomExchS d a b z => some (false, .exch, atomPlain z, atomBytes z, d, a, b)
  | .atomCasS d a b z => some (false, .cas, atomPlain z, atomBytes z, d, a, b)
  | .atomFaddS d a b => some (false, .fadd, 1#4, 4, d, a, b)
  | .atomFmaxS d a b => some (false, .fmax, 1#4, 4, d, a, b)
  | .atomFminS d a b => some (false, .fmin, 1#4, 4, d, a, b)
  | .atomAddG d a b z => some (true, .add, atomPlain z, atomBytes z, d, a, b)
  | .atomMinG d a b z => some (true, .min, atomSigned z, atomBytes z, d, a, b)
  | .atomMaxG d a b z => some (true, .max, atomSigned z, atomBytes z, d, a, b)
  | .atomMinuG d a b z => some (true, .min, atomPlain z, atomBytes z, d, a, b)
  | .atomMaxuG d a b z => some (true, .max, atomPlain z, atomBytes z, d, a, b)
  | .atomAndG d a b z => some (true, .and, atomPlain z, atomBytes z, d, a, b)
  | .atomOrG d a b z => some (true, .or, atomPlain z, atomBytes z, d, a, b)
  | .atomXorG d a b z => some (true, .xor, atomPlain z, atomBytes z, d, a, b)
  | .atomExchG d a b z => some (true, .exch, atomPlain z, atomBytes z, d, a, b)
  | .atomCasG d a b z => some (true, .cas, atomPlain z, atomBytes z, d, a, b)
  | .atomFaddG d a b => some (true, .fadd, 1#4, 4, d, a, b)
  | .atomFmaxG d a b => some (true, .fmax, 1#4, 4, d, a, b)
  | .atomFminG d a b => some (true, .fmin, 1#4, 4, d, a, b)
  | _ => none

end Sys2Proof.Machine

/-- R122, R166, R177: a scalar atomic that passes its checks queues one read-modify-write with the low bytes of B and, for
`cas`, of D, and waits at the instruction for the old value, which D will take. -/
def Sys2Proof.Claims.ScalarAtomics : Prop :=
  ∀ (s : State) (i : Instr) (g : Bool) (op : RmwOp) (ty : BitVec 4) (n : Nat) (d a b : BitVec 6) (k : Nat) (ks : List Nat),
    Instr.scalarAtomic? i = some (g, op, ty, n, d, a, b) → s.reaches g 6 (s.team.reg a).toNat n (k :: ks) →
    (s.team.reg a).toNat % n = 0 → (k :: ks).any s.poisoned = false → s.fabricHeld (k :: ks) = false →
    (k :: ks).any s.unreachable = false → (k :: ks).any onFabric = false → s.team.binsAhead false (k :: ks) = false →
    ∃ u, Gives i s u ∧ u.scalarPending = true ∧ u.pc = s.team.pc ∧ u.s = s.team.s
      ∧ u.pend = s.team.pend ++ [{ id := s.team.nextOp, kind := .atomic, seq := s.team.seqctr, pc := s.team.pc,
                                   born := s.ticks, scalar := some (d.toNat, none), addr := s.team.reg a }]
      ∧ u.sdq = s.team.sdq ++ [{
          id := s.team.nextOp + 1, op := s.team.nextOp, born := s.cycle,
          what := .atomic { mode := { op := op, ty := ty }, key := k, size := n,
                            val := BitVec.ofNat 64 ((s.team.reg b).toNat % 2 ^ (8 * n)),
                            cmp := BitVec.ofNat 64 ((s.team.reg d).toNat % 2 ^ (8 * n)) } }]

/-- R177: what the integer read-modify-writes of 32 and 64 bits leave in memory, in the words of arithmetic. -/
def Sys2Proof.Claims.AtomicArithmetic : Prop :=
  ∀ (old b c : BitVec 64) (o p q : BitVec 32),
    let wide (op : RmwOp) (ty : BitVec 4) : Option Nat :=
      ({ mode := { op := op, ty := ty }, size := 8, val := b, cmp := c } : Rmw).apply old.toNat
    let narrow (op : RmwOp) (ty : BitVec 4) : Option Nat :=
      ({ mode := { op := op, ty := ty }, size := 4, val := p.zeroExtend 64, cmp := q.zeroExtend 64 } : Rmw).apply o.toNat
    wide .add 0xC = some (old + b).toNat ∧ narrow .add 0xB = some (o + p).toNat
    ∧ wide .min 8 = some (if old.slt b then old else b).toNat ∧ narrow .min 7 = some (if o.slt p then o else p).toNat
    ∧ wide .max 8 = some (if old.slt b then b else old).toNat ∧ narrow .max 7 = some (if o.slt p then p else o).toNat
    ∧ wide .min 0xC = some (min old.toNat b.toNat) ∧ narrow .min 0xB = some (min o.toNat p.toNat)
    ∧ wide .max 0xC = some (max old.toNat b.toNat) ∧ narrow .max 0xB = some (max o.toNat p.toNat)
    ∧ wide .and 0xC = some (old &&& b).toNat ∧ narrow .and 0xB = some (o &&& p).toNat
    ∧ wide .or 0xC = some (old ||| b).toNat ∧ narrow .or 0xB = some (o ||| p).toNat
    ∧ wide .xor 0xC = some (old ^^^ b).toNat ∧ narrow .xor 0xB = some (o ^^^ p).toNat
    ∧ wide .exch 0xC = some b.toNat ∧ narrow .exch 0xB = some p.toNat
    ∧ wide .cas 0xC = (if old = c then some b.toNat else none) ∧ narrow .cas 0xB = (if o = q then some p.toNat else none)

/-- R150, R177: scalar atomics, and what they leave in memory. -/
def Obligations.ScalarAtomics : Prop := Claims.ScalarAtomics ∧ Claims.AtomicArithmetic

/-! ### Fences, barriers, stiles -/

namespace Sys2Proof.Machine

/-- Nothing that a fence waits for is under way for the team: `group` at group scope or wider, `gang` at gang scope or wider
(R262); no returning atomic is still to be performed (R105). -/
def State.quiet (s : State) (release group gang : Bool) : Prop :=
  s.team.laneq = [] ∧ (release = true → s.team.sdq = []) ∧ s.team.sdq.any WriteOp.returns = false
      ∧ (group = true → s.contributed s.cur = false)
    ∧ (gang = true → s.cardsPending s.team = false)

end Sys2Proof.Machine

/-- R105, R262: when a fence completes, and when the lane queue, a returning atomic and, for a release, the
store-delay queue hold it. That a returning atomic holds a fence of every order is the reading of the model (log entry
26). -/
def Sys2Proof.Claims.Fences : Prop :=
  ∀ (s : State) (scope : BitVec 4) (ord : BitVec 2), ord ≠ 0#2 → scope.toNat ≤ 9 →
    let t := s.team
    (s.quiet (decide (2 ≤ ord.toNat)) (decide (1 ≤ scope.toNat)) (decide (2 ≤ scope.toNat)) →
      Gives (.fence scope ord) s { t with pc := t.pc + 4, stale := if ord = 3#2 then [] else t.stale })
    ∧ (t.laneq ≠ [] ∨ t.sdq.any WriteOp.returns = true ∨ (2 ≤ ord.toNat ∧ t.sdq ≠ []) → exec (.fence scope ord) s = .next s)

namespace Sys2Proof.Machine

/-- The barrier instruction of a kind. -/
def barInstr (gang : Bool) (d : BitVec 6) (n : BitVec 4) : Instr := if gang then .barGang d n else .bar d n

/-- The status word of R265 of a phase that joins these barriers. -/
def barStatus (bs : List Barrier) : Word :=
  let teams : BitVec 16 := bs.foldl (fun x b => x ||| b.teams) 0
  (bs.foldl (fun x b => x ||| b.warps) 0#32 ++ (teams ++ BitVec.ofNat 16
    ((if bs.any Barrier.departed then 2 else 0) + if teams = 0 then 0 else 1) : BitVec 32) : BitVec 64)

/-- What a barrier instruction needs besides the others' arrivals: its number is granted, a gang is there for a gang
barrier, its fence is through, and no phase of the other kind is open. -/
def State.canArrive (s : State) (gang : Bool) (n : Nat) : Prop :=
  n < (s.groupOf s.team).nbar ∧ (gang = true → (s.groupOf s.team).gang.isSome) ∧ s.quiet true true gang
    ∧ s.barClash s.team.group n gang = false

end Sys2Proof.Machine

/-- R263 to R265: an arrival that some team of the expected set has not made yet is counted, and the team waits there. -/
def Sys2Proof.Claims.BarrierWaits : Prop :=
  ∀ (s : State) (gang : Bool) (d : BitVec 6) (n : BitVec 4), Store.wf ({} : Group) s.groups = true →
    s.canArrive gang n.toNat →
    (∃ g ∈ s.barGroups s.team.group gang, ∃ id ∈ (s.groupAt g).members,
      s.expected id = true ∧ id ≠ s.cur ∧ ∀ g' ∈ s.barGroups s.team.group gang, id ∉ ((s.groupAt g').bar n.toNat).arrived) →
    ∃ s', exec (barInstr gang d n) s = .next s' ∧ s'.team.barWait = some (n.toNat, gang, d) ∧ s'.team.pc = s.team.pc
      ∧ s'.team.runs = false
      ∧ ((s'.groupAt s.team.group).bar n.toNat).arrived = ((s.groupAt s.team.group).bar n.toNat).arrived ++ [s.cur]
      ∧ (∀ id, id ≠ s.cur → s'.teamAt id = s.teamAt id) ∧ ∀ k, s'.byte k = s.byte k

/-- R264, R265: the arrival that completes a phase gives every team that waits there the status word and lets it go on;
each barrier of the phase starts anew. -/
def Sys2Proof.Claims.BarrierCompletes : Prop :=
  ∀ (s : State) (gang : Bool) (d : BitVec 6) (n : BitVec 4), Store.wf ({} : Group) s.groups = true →
    s.canArrive gang n.toNat →
    let gs := s.barGroups s.team.group gang
    let arrived := gs.flatMap fun g => ((s.groupAt g).bar n.toNat).arrived
    s.team.group ∈ gs → gs.Nodup → s.cur ∉ arrived → arrived.Nodup → s.team.life = .resident →
    (∀ g ∈ gs, ∀ id ∈ (s.groupAt g).members, s.expected id = true → id = s.cur ∨ id ∈ arrived) →
    let x := barStatus (gs.map fun g => (s.groupAt g).bar n.toNat)
    ∃ s', exec (barInstr gang d n) s = .next s' ∧ s'.team.barWait = none ∧ s'.team.pc = s.team.pc + 4
      ∧ (∀ e, s'.team.reg e = if e = 0#6 then 0#64 else if e = d then x else s.team.reg e)
      ∧ (∀ id ∈ arrived, ∀ k e, (s.teamAt id).life = .resident → (s.teamAt id).barWait = some (n.toNat, k, e) →
          (s'.teamAt id).barWait = none ∧ (s'.teamAt id).pc = (s.teamAt id).pc + 4
          ∧ (e ≠ 0#6 → (s'.teamAt id).reg e = x))
      ∧ (∀ g ∈ gs, (s'.groupAt g).bar n.toNat = {}) ∧ ∀ k, s'.byte k = s.byte k

/-- R262 to R265: fences and barriers. That a returning atomic holds a fence of every order is the reading of the
model (log entry 26). -/
def Obligations.FencesAndBarriers : Prop := Claims.Fences ∧ Claims.BarrierWaits ∧ Claims.BarrierCompletes

/-- R266, R267, R122: `stexp` and `starr` check the stile and put one read-modify-write into the store-delay queue,
which for `starr` is a release at its scope; it waits for histogram adds of lane instructions that have not issued
(R244). That `stexp` and `starr` wait in the store-delay queue, and that `starr` holds for histogram adds not yet
issued, are readings of the model (log entries 25 and 26). -/
def Sys2Proof.Claims.StileWrites : Prop :=
  ∀ (s : State) (a b : BitVec 6) (scope : BitVec 4) (k : Nat) (ks : List Nat), scope.toNat ≤ 9 →
    let t := s.team
    s.stileKeys t (t.reg a) = .ok (k :: ks) → (k :: ks).any s.poisoned = false →
    let put (what : WriteWhat) (release : Option Nat) : Team := { t with
      sdq := t.sdq ++ [{ id := t.nextOp, what := what, born := s.cycle, release := release }],
      nextOp := t.nextOp + 1, pc := t.pc + 4 }
    ((t.reg b).toNat < 2 ^ 32 → t.binsAhead false (k :: ks) = false →
      Gives (.stexp a b) s (put (.stile k false (t.reg b).toNat t.pc t.seqctr) none))
    ∧ (t.binsAhead true (k :: ks) = false →
      Gives (.starr a scope) s (put (.stile k true 0 t.pc t.seqctr) (some scope.toNat)))
    ∧ (t.binsAhead true (k :: ks) = true → exec (.starr a scope) s = .next s)

/-- R266: `sttest` reports the phase and the status; `stwait` waits until the phase differs from the one last seen. -/
def Sys2Proof.Claims.StileTests : Prop :=
  ∀ (s : State) (d a b : BitVec 6) (scope : BitVec 4) (k : Nat) (ks : List Nat), scope.toNat ≤ 9 →
    let t := s.team
    s.stileKeys t (t.reg a) = .ok (k :: ks) → t.queuedWrite (k :: ks) = false → s.scalarWait t (k :: ks) = false →
    (k :: ks).any s.poisoned = false →
    let x := s.stile k
    let seen := (t.reg b).toNat % 2
    let result : Word := BitVec.ofNat 64 (x.status * 256 + x.phase * 2 + if x.phase = seen then 0 else 1)
    Gives (.sttest d a b scope) s (t.wrote d result 4)
    ∧ (x.phase ≠ seen → Gives (.stwait d a b scope) s (t.wrote d result 4))
    ∧ (x.phase = seen → exec (.stwait d a b scope) s = .next s)

/-- R266, R267: the instructions on stiles. That `stexp` and `starr` wait in the store-delay queue, and that `starr`
holds for histogram adds not yet issued, are readings of the model (log entries 25 and 26). -/
def Obligations.StileInstructions : Prop := Claims.StileWrites ∧ Claims.StileTests

/-- R267, R342: an arrival and the bytes of a transfer count a stile down; at zero the phase turns and the arrivals
are set anew. An arrival too many and a count past 2^32 - 1 change nothing but the status. That the phase is not
evaluated after an error is the reading of the model (log entry 25). -/
def Obligations.StileCounts : Prop :=
  ∀ (s : State) (k n : Nat) (pc : Word) (seq : BitVec 32), (∀ t ∈ s.teams, t.2.park = none) → s.posts = [] →
    let x := s.stile k
    let turned (y : Stile) : Stile :=
      if y.parr = 0 ∧ y.ptrans = 0 then { y with phase := 1 - y.phase, parr := y.earr } else y
    (0 < x.parr → (s.arriveStile k pc seq).stile k = turned { x with parr := x.parr - 1 })
    ∧ (x.parr = 0 → (s.arriveStile k pc seq).stile k = x.err 2 pc seq)
    ∧ (x.ptrans + n < 2 ^ 32 → 0 < n → (s.expectBytes k n pc seq).stile k = turned { x with ptrans := x.ptrans + n })
    ∧ (2 ^ 32 ≤ x.ptrans + n → ((s.expectBytes k n pc seq).stile k).ptrans = x.ptrans
        ∧ ((s.expectBytes k n pc seq).stile k).phase = x.phase)
    ∧ (n ≤ x.ptrans → (s.countBytes k n [] pc seq).stile k = turned { x with ptrans := x.ptrans - n })

/-! ### Yield, monitor, subscriptions -/

/-- R268: a plain `yield` goes on at YIELDPC with D = 3, or is saved there under P; the stile form goes on at once
when the phase has turned, and otherwise parks. That a `yield` which leaves with P = 1 writes its D at the yield is
the reading of the model (log entry 29). -/
def Sys2Proof.Claims.Yields : Prop :=
  ∀ (s : State) (d a b : BitVec 6) (k : Nat) (ks : List Nat),
    let t := s.team
    let at' (x : Word) : Team := { t.wrote d x 0 with pc := t.yieldpc, pstat := { t.pstat with p := false } }
    s.orphanToken t = none → t.laneq = [] → t.tokensZero = true → t.yieldpc.toNat % 4 = 0 →
    s.isExt t (t.yieldpc - 4#64).toNat = false →
    (t.pstat.p = false → Gives (.yield d 0 0) s (at' 3))
    ∧ (t.pstat.p = true → Gives (.yield d 0 0) s { at' 3 with saveReq := some 1, deadline := none })
    ∧ (a ≠ 0#6 → s.stileKeys t (t.reg a) = .ok (k :: ks) → t.queuedWrite (k :: ks) = false →
        s.scalarWait t (k :: ks) = false → (k :: ks).any s.poisoned = false →
        (t.pstat.p = true → Gives (.yield d a b) s { at' 2 with saveReq := some 1, deadline := none })
        ∧ (t.pstat.p = false → (s.stile k).phase ≠ (t.reg b).toNat % 2 → Gives (.yield d a b) s (at' 1))
        ∧ (t.pstat.p = false → (s.stile k).phase = (t.reg b).toNat % 2 →
            Gives (.yield d a b) s { t with park := some (.stile k (decide ((t.reg b).toNat % 2 = 1)) d (t.reg a)) }))

/-- R269: `mwait` compares the word at its address with B: it goes on with D = 1 when they differ, and otherwise parks on
the word's sector. -/
def Sys2Proof.Claims.MonitorWaits : Prop :=
  ∀ (s : State) (d a b : BitVec 6) (k : Nat) (ks : List Nat),
    let t := s.team
    (t.reg a).toNat % 8 = 0 → s.reaches false 2 (t.reg a).toNat 8 (k :: ks) → s.scalarWait t (k :: ks) = false →
    (k :: ks).any s.poisoned = false →
    (BitVec.ofNat 64 (s.load t (k :: ks)) ≠ t.reg b → Gives (.mwait d a b) s (t.wrote d 1#64 4))
    ∧ (BitVec.ofNat 64 (s.load t (k :: ks)) = t.reg b → t.pstat.p = false →
        Gives (.mwait d a b) s { t with park := some (.watch (k / 32) d) })

/-- R268, R269: `yield` and `mwait`. That a `yield` which leaves with P = 1 writes its D at the yield is the reading
of the model (log entry 29). -/
def Obligations.YieldAndMonitor : Prop := Claims.Yields ∧ Claims.MonitorWaits

/-- R270: a `sub` whose regions pass their checks takes the lowest free entry of the publishing core's table, with a new
generation, and D is its handle; D is the status when no entry is made. -/
def Sys2Proof.Claims.Subscriptions : Prop :=
  ∀ (s : State) (d a b : BitVec 6) (pc sc : Nat),
    let t := s.team
    let pub := (t.reg a).toNat
    let sub := (t.reg b).toNat % 2 ^ 32
    let len := (t.reg b).toNat / 2 ^ 32
    pub < 2 ^ 32 → pub % 128 = 0 → sub % 128 = 0 → len % 128 = 0 → 128 ≤ len → len ≤ 2 ^ 25 →
    s.regionFail t pub len = none → s.regionFail t sub len = none →
    regionCore t.core pub len = some pc → regionCore t.core sub len = some sc →
    (sc ≠ t.core → Gives (.sub d a b) s (t.wrote d 0x8000000000000003#64 4))
    ∧ (sc = t.core → pc = t.core → Gives (.sub d a b) s (t.wrote d 0x8000000000000002#64 4))
    ∧ (sc = t.core → pc ≠ t.core → (∀ e, e < 32 → (s.post (32 * pc + e)).state ≠ 0) →
        Gives (.sub d a b) s (t.wrote d 0x8000000000000001#64 4))
    ∧ (∀ e, sc = t.core → pc ≠ t.core → e < 32 → (s.post (32 * pc + e)).state = 0 →
        (∀ j, j < e → (s.post (32 * pc + j)).state ≠ 0) →
        ∃ s', exec (.sub d a b) s = .next s'
          ∧ s'.team = t.wrote d (BitVec.ofNat 64 (((s.post (32 * pc + e)).gen + 1).toNat * 2 ^ 16 + pc * 2 ^ 8 + e)) 4
          ∧ (s'.post (32 * pc + e)).state = 1 ∧ (s'.post (32 * pc + e)).gen = (s.post (32 * pc + e)).gen + 1
          ∧ (s'.post (32 * pc + e)).len = len ∧ (s'.post (32 * pc + e)).tag = t.pstat.tag
          ∧ (∀ j, j ≠ 32 * pc + e → s'.post j = s.post j) ∧ s'.mem = s.mem)

/-- R271: `subflush` and `unsub` of a handle: no such entry gives 2, a torn one 1, and an entry that has nothing left to
apply 0; `unsub` frees the entry and keeps its generation. -/
def Sys2Proof.Claims.SubscriptionEnds : Prop :=
  ∀ (s : State) (d a : BitVec 6) (i gen : Nat),
    let t := s.team
    let p := s.post i
    handleFields (t.reg a).toNat = some (i, gen) → t.pastPoint = false → t.flush = none → t.queuedIn p = false →
    (p.state = 0 ∨ p.gen.toNat ≠ gen →
      Gives (.subflush d a) s (t.wrote d 2#64 4) ∧ Gives (.unsub d a) s (t.wrote d 2#64 4))
    ∧ (p.gen.toNat = gen → p.tag = t.pstat.tag → p.world = t.pstat.world → p.openCard = none → p.closed = [] →
        (p.state = 1 → Gives (.subflush d a) s (t.wrote d 0#64 4))
        ∧ (p.state = 2 → Gives (.subflush d a) s (t.wrote d 1#64 4))
        ∧ (p.state = 1 ∨ p.state = 2 →
            ∃ s', exec (.unsub d a) s = .next s' ∧ s'.team = t.wrote d (if p.state = 1 then 0#64 else 1#64) 4
              ∧ (s'.post i).state = 0 ∧ (s'.post i).gen = p.gen ∧ ∀ j, j ≠ i → s'.post j = s.post j))

/-- R270, R271: `sub`, `subflush` and `unsub`. -/
def Obligations.Subscriptions : Prop := Claims.Subscriptions ∧ Claims.SubscriptionEnds

/-! ### Launch, control registers, translation buffer, the end of a team -/

namespace Sys2Proof.Machine

/-- A descriptor of n words as the team loads it from these bytes. -/
def State.loadDesc (s : State) (keys : List Nat) (n : Nat) : Desc :=
  ⟨(List.range n).map fun i => BitVec.ofNat 64 (s.load s.team ((keys.drop (8 * i)).take 8))⟩

/-- A 64-bit register from named bits: (first bit, number of bits, value), the rest 0. -/
def packed (fs : List (Nat × Nat × Nat)) : Word := BitVec.ofNat 64 ((fs.map fun f => f.2.2 % 2 ^ f.2.1 * 2 ^ f.1).sum)

end Sys2Proof.Machine

/-- R195, R375: `launch` submits the descriptor that it reads, D takes the status, and an accepted grid goes to the end of
its queue. -/
def Obligations.Launches : Prop :=
  ∀ (s : State) (d a : BitVec 6) (head keys : List Nat),
    let t := s.team
    let n := min 16 (s.load t (head.take 8) / 2 ^ 23 % 32)
    (t.reg a).toNat % 64 = 0 → s.check t true 2 0 (t.reg a).toNat 0xC0 = { keys := head } →
    s.check t true 2 0 (t.reg a).toNat (0xC0 + 24 * n) = { keys := keys } → s.mustWait t keys = false →
    s.quiet true true true → keys.any s.poisoned = false → keys.any s.unreachable = false → t.park = none →
    let x := s.loadDesc keys (24 + 3 * n)
    let q := s.queueAt x.queue
    let status := if q.en = false ∨ q.tag = 0 ∨ q.tag ≠ t.pstat.tag then 2
      else if s.descOk x.queue x (t.pstat.pl == 0) = false then 3 else if 256 ≤ q.pend then 1 else 0
    ∃ s', exec (.launch d a) s = .next s' ∧ s'.team = t.wrote d (BitVec.ofNat 64 status) 4
      ∧ (s'.queueAt x.queue).subno = q.subno + 1
      ∧ (status = 0 → (s'.queueAt x.queue).work = q.work ++ [{ grid := s.nextId }]
          ∧ (s'.gridAt s.nextId).words = x.words ∧ (s'.gridAt s.nextId).tag = q.tag
          ∧ (s'.gridAt s.nextId).placed = 0)
      ∧ (status ≠ 0 → (s'.queueAt x.queue).work = q.work ∧ s'.grids = s.grids)

/-- R21 to R23, R190, R303, R464, R465: what each control register reads as, and PRIV at user level for those that R22 closes.
TRAPSEQ has 64 bits as R22 gives it (log entry 31) and TRAPVEC's cursor moves on at each read (log entry 80): the choice of the
model. -/
def Sys2Proof.Claims.ControlRegisterReads : Prop :=
  ∀ (s : State) (d r : BitVec 6), r.toNat < 16 →
    let t := s.team
    let p := t.pstat
    let b (x : Bool) : Nat := if x then 1 else 0
    let closed := (4 ≤ r.toNat ∧ r.toNat ≤ 9) ∨ r.toNat = 15
    (p.pl = 0#2 → closed → exec (.cget d r) s = .next (s.trap 0x03 (BitVec.ofNat 64 (encode (.cget d r)))))
    ∧ (p.pl ≠ 0#2 ∨ ¬ closed → ∃ x, Gives (.cget d r) s
          { t.wrote d x 4 with trapcur := if r = 9#6 then t.trapcur + 1 else t.trapcur }
        ∧ (r = 0#6 → x = t.fmt) ∧ (r = 1#6 → x = t.srseed) ∧ (r = 2#6 → x = t.srctr)
        ∧ (r = 3#6 → x = packed [(24, 16, p.tag.toNat), (16, 8, p.world.toNat), (11, 1, b p.inh), (10, 1, b p.stp),
            (8, 2, p.pl.toNat), (7, 1, b p.chk), (6, 1, b p.p), (5, 1, b p.ma), (4, 1, b p.mz), (3, 1, b p.n),
            (2, 1, b p.z), (1, 1, b p.c), (0, 1, b p.v)])
        ∧ (r = 4#6 → x = t.trapcause) ∧ (r = 5#6 → x = t.trappc) ∧ (r = 6#6 → x = t.trapseq)
        ∧ (r = 7#6 → x = t.traplidx.zeroExtend 64) ∧ (r = 8#6 → x = t.trapval)
        ∧ (r = 9#6 → x = t.trapvec.getD t.trapcur 0) ∧ (r = 10#6 → x = t.yieldpc)
        ∧ (r = 12#6 → t.nvreg < 256 → t.core < 64 → t.quarter < 4 → t.index < 16 → t.nwarp < 256 → t.crewed.getD 0 < 8 →
            x = packed [(32, 32, t.seqctr.toNat), (24, 8, t.nvreg), (23, 1, b t.crewed.isSome), (20, 3, t.crewed.getD 0),
              (14, 6, t.core), (12, 2, t.quarter), (8, 4, t.index), (0, 8, t.nwarp)])
        ∧ (r = 13#6 → (s.groupAt t.group).gang.getD 0 < 2 ^ 16 → (s.groupAt t.group).nteam < 32 →
            (s.groupAt t.group).linear < 2 ^ 32 →
            x = packed [(56, 1, b (s.groupAt t.group).gang.isSome), (40, 16, (s.groupAt t.group).gang.getD 0),
              (32, 5, (s.groupAt t.group).nteam), (0, 32, (s.groupAt t.group).linear)])
        ∧ (r = 11#6 → let f := (s.queueAt (s.gridAt (s.groupAt t.group).grid).queue).function
            (f = none → x = BitVec.ofNat 64 s.now)
            ∧ ∀ n, f = some n →
              let k := s.timeBlock n
              let stolen := if k.hide then k.stolen else 0
              stolen ≤ s.now → s.now < 2 ^ 64 →
                x.toNat = (k.offset.toNat + (s.now - stolen) * k.scale.toNat / 2 ^ 32) % 2 ^ 64)
        ∧ (r = 14#6 → x = t.histbase.zeroExtend 64) ∧ (r = 15#6 → x = (s.tenantAt p.tag.toNat).page))

/-- R23, R84, R190: what a `cset` writes; a `cset` of a read-only register at tenant level changes nothing but the pc. Of
HISTBASE bits [31:0] are tested: the choice of the model (log entry 31). -/
def Sys2Proof.Claims.ControlRegisterWrites : Prop :=
  ∀ (s : State) (a : BitVec 6),
    let t := s.team
    let x := t.reg a
    let w (r : BitVec 6) : Instr := .cset a r
    let u : Team := { t with pc := t.pc + 4 }
    Gives (w 1) s { u with srseed := x } ∧ Gives (w 2) s { u with srctr := x } ∧ Gives (w 10) s { u with yieldpc := x }
    ∧ (fmtOk x = true → Gives (w 0) s { u with fmt := x })
    ∧ (fmtOk x = false → exec (w 0) s = .next (s.trap 0x01 (BitVec.ofNat 64 (encode (w 0)))))
    ∧ (t.pstat.pl ≠ 0#2 →
        Gives (w 3) s { u with pstat := { t.pstat with
          stp := x.getLsbD 10, chk := x.getLsbD 7, ma := x.getLsbD 5, mz := x.getLsbD 4, n := x.getLsbD 3, z := x.getLsbD 2,
          c := x.getLsbD 1, v := x.getLsbD 0 } }
        ∧ Gives (w 4) s { u with trapcause := x &&& 0x1FF#64 } ∧ Gives (w 5) s { u with trappc := x }
            ∧ Gives (w 6) s { u with trapseq := x }
        ∧ Gives (w 7) s { u with traplidx := x.extractLsb' 0 32 } ∧ Gives (w 8) s { u with trapval := x }
        ∧ Gives (w 9) s u ∧ Gives (w 15) s u)
    ∧ Gives (w 11) s u ∧ Gives (w 12) s u ∧ Gives (w 13) s u
    ∧ (t.pstat.pl = 0#2 → ∀ r : BitVec 6, r.toNat = 3 ∨ (4 ≤ r.toNat ∧ r.toNat ≤ 9) ∨ r.toNat = 15 →
        exec (w r) s = .next (s.trap 0x03 (BitVec.ofNat 64 (encode (w r)))))
    ∧ (let y := x.toNat % 2 ^ 32
      (y % 1024 ≠ 0 → exec (w 14) s = .next (s.trap 0x08 x))
      ∧ (y % 1024 = 0 → 2 ^ 31 ≤ y ∨ (48 ≤ y / 2 ^ 25 ∧ y / 2 ^ 25 ≤ 62) → exec (w 14) s = .next (s.trap 0x06 x))
      ∧ ∀ k, y % 1024 = 0 →
          (y / 2 ^ 25 = 63 ∧ k = t.core * 2 ^ 25 + y % 2 ^ 25) ∨ (y / 2 ^ 25 < 48 ∧ k = y) →
          let o := s.owner 1 (k / 2 ^ 19)
          (o.tag = t.pstat.tag ∧ o.world = t.pstat.world → Gives (w 14) s { u with histbase := x.extractLsb' 0 32 })
          ∧ (o.tag ≠ t.pstat.tag ∨ o.world ≠ t.pstat.world → exec (w 14) s = .next (s.trap 0x06 x)))

/-- R20 to R23, R190: `cget` and `cset` of every control register. -/
def Obligations.ControlRegisters : Prop := Claims.ControlRegisterReads ∧ Claims.ControlRegisterWrites

/-- R191 to R194: an entry that passes its checks is written with the tag and world of the team, `tlbi` clears V of one slot
or of every slot of the team's tag and world, and `tlbr` reads a slot back; with nothing under way through the old contents
the instruction completes at once. -/
def Sys2Proof.Claims.TranslationEntries : Prop :=
  ∀ (s : State) (d a b : BitVec 6),
    let t := s.team
    let slot := (t.reg d).toNat
    let at' := (t.reg a).toNat
    let e : TlbEntry := { w0 := t.reg a, w1 := t.reg b, tag := t.pstat.tag, world := t.pstat.world }
    let old (i : Nat) : TlbEntry := Store.get {} s.tlb (512 * t.gq + i)
    t.pstat.pl ≠ 0#2 → t.replace = none →
    (slot < 512 → e.formOk = true → s.slotCause t.pstat.tag t.pstat.world t.gq slot = none →
        s.framesCause t.pstat.tag t.pstat.world e = none → t.laneq = [] → t.pastPoint = false →
        s.replaceDone (s.replaced [slot]) = true →
        ∃ s', exec (.tlbw d a b) s = .next s' ∧ s'.team = { t with pc := t.pc + 4 } ∧ s'.mem = s.mem
          ∧ Store.get {} s'.tlb (512 * t.gq + slot) = e
          ∧ ∀ k, k ≠ 512 * t.gq + slot → (Store.get {} s'.tlb k : TlbEntry) = Store.get {} s.tlb k)
    ∧ (at' < 512 → s.slotCause t.pstat.tag t.pstat.world t.gq at' = none → t.laneq = [] → t.pastPoint = false →
        s.replaceDone (s.replaced [at']) = true →
        ∃ s', exec (.tlbi a) s = .next s' ∧ s'.team = { t with pc := t.pc + 4 } ∧ s'.mem = s.mem
          ∧ (∀ tag world va, (Store.get {} s'.tlb (512 * t.gq + at') : TlbEntry).hits tag world va = false)
          ∧ ∀ k, k ≠ 512 * t.gq + at' → (Store.get {} s'.tlb k : TlbEntry) = Store.get {} s.tlb k)
    ∧ (let mine (i : Nat) : Prop := i < 512 ∧ s.slotCause t.pstat.tag t.pstat.world t.gq i = none
      t.reg a = 0x8000000000000000#64 → t.laneq = [] → t.pastPoint = false →
        (∀ slots, (∀ i, i ∈ slots → mine i) → s.replaceDone (s.replaced slots) = true) →
        ∃ s', exec (.tlbi a) s = .next s' ∧ s'.team = { t with pc := t.pc + 4 } ∧ s'.mem = s.mem
          ∧ (∀ i, mine i → ∀ tag world va, (Store.get {} s'.tlb (512 * t.gq + i) : TlbEntry).hits tag world va = false)
          ∧ ∀ k, (∀ i, mine i → k ≠ 512 * t.gq + i) → (Store.get {} s'.tlb k : TlbEntry) = Store.get {} s.tlb k)
    ∧ (at' < 512 → s.slotCause t.pstat.tag t.pstat.world t.gq at' = none →
        Gives (.tlbrW0 d a) s (t.wrote d (old at').w0 4) ∧ Gives (.tlbrW1 d a) s (t.wrote d (old at').w1 4))

/-- R23, R191 to R193: the instructions on the translation buffer trap PRIV at user level, OWNER or WORLD for a slot that is
not the team's, and ILLEGAL for a slot that does not exist or a malformed entry; `tlbw` traps OWNER or WORLD for a frame of
another owner. -/
def Sys2Proof.Claims.TranslationTraps : Prop :=
  ∀ (s : State) (d a b : BitVec 6) (c : Nat),
    let t := s.team
    let word (i : Instr) : Word := BitVec.ofNat 64 (encode i)
    let e : TlbEntry := { w0 := t.reg a, w1 := t.reg b, tag := t.pstat.tag, world := t.pstat.world }
    let malformed := (t.reg a).extractLsb' 6 10 ≠ 0#10 ∨ (t.reg b).extractLsb' 52 12 ≠ 0#12 ∨ (t.reg b).extractLsb' 0 16 ≠ 0#16
      ∨ (t.reg a).extractLsb' 4 2 = 3#2 ∨ (t.reg a).toNat / 2 ^ 56 ∉ [0, 255]
      ∨ (t.reg a).toNat / 2 ^ 16 * 2 ^ 16 % 2 ^ e.shift ≠ 0 ∨ (t.reg b).toNat % 2 ^ e.shift ≠ 0
      ∨ (e.w0.getLsbD 0 = true ∧ ∃ p ∈ e.frames, region p = .outside)
    (t.pstat.pl ≠ 0#2 → t.replace = none →
      (512 ≤ (t.reg d).toNat ∨ malformed → exec (.tlbw d a b) s = .next (s.trap 0x01 (word (.tlbw d a b))))
      ∧ ((t.reg d).toNat < 512 → ¬ malformed →
        (s.slotCause t.pstat.tag t.pstat.world t.gq (t.reg d).toNat = some c →
          exec (.tlbw d a b) s = .next (s.trap c (t.reg d)))
        ∧ (s.slotCause t.pstat.tag t.pstat.world t.gq (t.reg d).toNat = none →
          (∀ p, s.framesCause t.pstat.tag t.pstat.world e = some (c, p) →
            exec (.tlbw d a b) s = .next (s.trap c (BitVec.ofNat 64 p)))
          ∧ (let p := (e.w1.extractLsb' 16 36).toNat * 2 ^ 16
            let o := s.owner 2 (p / 2 ^ 16)
            e.w0.getLsbD 0 = true → e.w0.extractLsb' 4 2 = 0#2 → region p = .near ∨ region p = .far →
              (o.tag ≠ t.pstat.tag → exec (.tlbw d a b) s = .next (s.trap 0x06 (BitVec.ofNat 64 p)))
              ∧ (o.tag = t.pstat.tag → o.world ≠ t.pstat.world →
                  exec (.tlbw d a b) s = .next (s.trap 0x07 (BitVec.ofNat 64 p)))))))
    ∧ (t.pstat.pl = 0#2 → ∀ i ∈ [Instr.tlbw d a b, .tlbi a, .tlbrW0 d a, .tlbrW1 d a],
        exec i s = .next (s.trap 0x03 (word i)))
    ∧ (t.pstat.pl ≠ 0#2 → t.replace = none → 2 ^ 63 < (t.reg a).toNat →
        ∀ i ∈ [Instr.tlbi a, .tlbrW0 d a, .tlbrW1 d a], exec i s = .next (s.trap 0x01 (word i)))
    ∧ (t.pstat.pl ≠ 0#2 → t.replace = none → 512 ≤ (t.reg a).toNat → (t.reg a).toNat < 2 ^ 63 →
        ∀ i ∈ [Instr.tlbi a, .tlbrW0 d a, .tlbrW1 d a], exec i s = .next (s.trap 0x01 (word i)))
    ∧ (t.pstat.pl ≠ 0#2 → t.replace = none → (t.reg a).toNat < 512 →
        s.slotCause t.pstat.tag t.pstat.world t.gq (t.reg a).toNat = some c →
        ∀ i ∈ [Instr.tlbi a, .tlbrW0 d a, .tlbrW1 d a], exec i s = .next (s.trap c (t.reg a)))

/-- R191 to R194: `tlbw`, `tlbi` and `tlbr`. -/
def Obligations.TranslationBuffer : Prop := Claims.TranslationEntries ∧ Claims.TranslationTraps

/-- R199, R48, R263, R265: `halt` ends the team when nothing of it is under way: it is Exited, its lane registers are released
(while a sequencer runs no command of it), every barrier that still waits for another team of the group will report the
departure, and the group of a last team ends. -/
def Sys2Proof.Claims.HaltEnds : Prop :=
  ∀ s : State,
    let t := s.team
    Store.wf ({} : Group) s.groups = true → s.orphanToken t = none → t.tokensZero = true → s.quiet true true false →
    ∃ s', exec .halt s = .next s' ∧ (s'.teamAt s.cur).life = .exited
      ∧ (s.commanding s.cur = false → (s'.teamAt s.cur).v = [])
      ∧ (s'.teamAt s.cur).s = t.s ∧ (s'.teamAt s.cur).pc = t.pc
      ∧ (∀ n m, n < 16 → m ∈ (s.groupAt t.group).members → m ≠ s.cur → s.expected m = true →
          (∀ g, m ∉ ((s.groupAt g).bar n).arrived) → ((s'.groupAt t.group).bar n).departed = true)
      ∧ ((∀ m ∈ (s.groupAt t.group).members, s.commanding m = false) →
          (∀ m ∈ (s.groupAt t.group).members, m = s.cur ∨ (s.teamAt m).life = .exited) → s.cur ∈ (s.groupAt t.group).members →
          (s'.groupAt t.group).alive = false)

/-- R196, R427: `mark` writes a trace record that names the pc, the sequence counter and a, when the debug unit traces
marks of the team's tag, and otherwise nothing. -/
def Sys2Proof.Claims.Marks : Prop :=
  ∀ (s : State) (a : BitVec 6),
    let t := s.team
    (s.traces t.core t.pstat.tag 1 = false → Gives (.mark a) s { t with pc := t.pc + 4 })
    ∧ (s.traces t.core t.pstat.tag 1 = true → Gives (.mark a) s { t with
        pc := t.pc + 4, nextOp := t.nextOp + 1,
        sdq := t.sdq ++ [{ id := t.nextOp, born := s.cycle, what := (.trace t.core
            (s.traceRecord t 1 t.pc t.seqctr.toNat 0xFFFFFFFF#32 (t.reg a))) }] })

/-- R196, R199: `halt` and `mark`. -/
def Obligations.HaltAndMark : Prop := Claims.HaltEnds ∧ Claims.Marks

/-! ### Lane instructions: issue -/

namespace Sys2Proof.Machine

/-- The fixed-latency lane instructions: operation and meaning (R201 to R247). -/
def Instr.fixed? : Instr → Option (LaneOp × FixedSpec)
  | .laneIadd f => some (⟨0, 0x00, f⟩, specIadd) | .laneIsub f => some (⟨0, 0x01, f⟩, specIsub)
  | .laneImul f => some (⟨0, 0x02, f⟩, specImul) | .laneImulhi f => some (⟨0, 0x03, f⟩, specImulhi)
  | .laneImad f => some (⟨0, 0x04, f⟩, specImad) | .laneIdiv f => some (⟨0, 0x05, f⟩, specIdiv)
  | .laneIrem f => some (⟨0, 0x06, f⟩, specIrem) | .laneImin f => some (⟨0, 0x07, f⟩, specImin)
  | .laneImax f => some (⟨0, 0x08, f⟩, specImax) | .laneIabs f => some (⟨0, 0x09, f⟩, specIabs)
  | .laneIneg f => some (⟨0, 0x0A, f⟩, specIneg) | .laneMov f => some (⟨0, 0x0B, f⟩, specMov)
  | .laneLfn3 f => some (⟨1, 0x00, f⟩, specLfn3) | .laneIshl f => some (⟨1, 0x01, f⟩, specIshl)
  | .laneIshr f => some (⟨1, 0x02, f⟩, specIshr) | .laneIsar f => some (⟨1, 0x03, f⟩, specIsar)
  | .laneIrot f => some (⟨1, 0x04, f⟩, specIrot) | .laneBfext f => some (⟨1, 0x05, f⟩, specBfext)
  | .laneBfins f => some (⟨1, 0x06, f⟩, specBfins) | .laneBfrev f => some (⟨1, 0x07, f⟩, bitsSpec bfrev)
  | .lanePopc f => some (⟨1, 0x08, f⟩, bitsSpec popc) | .laneClz f => some (⟨1, 0x09, f⟩, bitsSpec clz)
  | .laneCtz f => some (⟨1, 0x0A, f⟩, bitsSpec ctz)
  | .laneIcmp f => some (⟨2, 0x00, f⟩, specIcmp) | .laneFcmp f => some (⟨2, 0x01, f⟩, specFcmp)
  | .laneSel f => some (⟨2, 0x02, f⟩, specSel) | .laneVote f => some (⟨2, 0x03, f⟩, specVote)
  | .laneFadd f => some (⟨3, 0x00, f⟩, specFadd) | .laneFsub f => some (⟨3, 0x01, f⟩, specFsub)
  | .laneFmul f => some (⟨3, 0x02, f⟩, specFmul) | .laneFfma f => some (⟨3, 0x03, f⟩, specFfma)
  | .laneFmin f => some (⟨3, 0x04, f⟩, minMaxSpec false) | .laneFmax f => some (⟨3, 0x05, f⟩, minMaxSpec true)
  | .laneFabs f => some (⟨3, 0x06, f⟩, signSpec false) | .laneFneg f => some (⟨3, 0x07, f⟩, signSpec true)
  | .laneFclass f => some (⟨3, 0x08, f⟩, specFclass)
  | .laneFrcp f => some (⟨4, 0x00, f⟩, rootSpec 0) | .laneFrsq f => some (⟨4, 0x01, f⟩, rootSpec 1)
  | .laneFsqrt f => some (⟨4, 0x02, f⟩, rootSpec 2) | .laneFexp2 f => some (⟨4, 0x03, f⟩, approxSpec 3)
  | .laneFlog2 f => some (⟨4, 0x04, f⟩, approxSpec 4) | .laneFsin f => some (⟨4, 0x05, f⟩, approxSpec 5)
  | .laneFcos f => some (⟨4, 0x06, f⟩, approxSpec 6) | .laneFtanh f => some (⟨4, 0x07, f⟩, approxSpec 7)
  | .laneCvt f => some (⟨5, 0x00, f⟩, specCvt) | .laneFrnd f => some (⟨5, 0x01, f⟩, specFrnd)
  | .laneBpack f => some (⟨6, 0x00, f⟩, specBpack) | .laneBunpack f => some (⟨6, 0x01, f⟩, specBunpack)
  | .laneBscale f => some (⟨6, 0x02, f⟩, specBscale) | .laneFpres f => some (⟨6, 0x03, f⟩, specFpres)
  | .laneFdflt f => some (⟨6, 0x04, f⟩, specFdflt) | .laneHist f => some (⟨6, 0x05, f⟩, specHist)
  | .laneShfl f => some (⟨7, 0x00, f⟩, specShfl) | .laneQuad f => some (⟨7, 0x01, f⟩, specQuad)
  | _ => none

/-- The instruction heads the team's lane queue, its turn has come (R297), and its token takes another operation. -/
def State.laneHead (s : State) (i : Instr) (e : LaneEntry) (rest : List LaneEntry) : Prop :=
  s.team.laneq = e :: rest ∧ e.word.toNat = encode i ∧ s.team.laneFree ≤ s.cycle
    ∧ s.team.tokenFull (lanePost (encode i)) = false

/-- The team after the entry has left the queue. -/
def Team.popped (t : Team) (rest : List LaneEntry) : Team := { t with laneq := rest }

/-- The passes of an operation, and its context. -/
def State.lanePasses (s : State) (o : LaneOp) (quad : Bool) (rest : List LaneEntry) : List Pass :=
  (s.team.popped rest).passesFrom quad s.free s.cycle o.f.mask.toNat
def State.laneCtx (s : State) (o : LaneOp) (e : LaneEntry) (rest : List LaneEntry) (slots : List (Nat × Nat)) : Ctx :=
  { s := s, t := s.team.popped rest, e := e, o := o, slots := slots }

/-- The checking mode finds nothing in the operands (R300). -/
def State.laneChecked (s : State) (o : LaneOp) (e : LaneEntry) (rest : List LaneEntry) (ps : List Pass)
    (rl : BitVec 8 → Pass → List Nat) (wl : Pass → List Nat) : Prop :=
  e.chk = true → (s.team.popped rest).checkTouches
    (o.touches ((s.team.popped rest).mayPass s.cycle o.f.mask.toNat) s.team.nwarp s.cycle e.y e.fmt ps rl wl) = none

/-- A post to the token of a word by an operation that has passes. -/
def Team.postedTok (t : Team) (w : Nat) (none' : Bool) : List (Nat × Token) :=
  match lanePost w with
  | none => t.tok
  | some k => if none' then t.tok else Store.set {} t.tok k { t.token k with count := (t.token k).count + 1 }

/-- The instruction issues: memory, every other team, and of this one everything but what u says, is unchanged. -/
def Issues (i : Instr) (s : State) (u : Team) : Prop :=
  ∃ s', exec i s = .next s' ∧ s'.team = u ∧ s'.mem = s.mem ∧ s'.tlb = s.tlb ∧ s'.groups = s.groups
    ∧ (∀ id, id ≠ s.cur → s'.teamAt id = s.teamAt id)
    ∧ u.pc = s.team.pc ∧ u.s = s.team.s ∧ u.v = s.team.v ∧ u.m = s.team.m ∧ u.pstat = s.team.pstat ∧ u.fmt = s.team.fmt
    ∧ u.seqctr = s.team.seqctr ∧ u.srctr = s.team.srctr ∧ u.frame = s.team.frame

end Sys2Proof.Machine

/-- R34, R244, R296, R297, R204: a fixed-latency lane instruction that heads the queue issues one pass for each warp with an
active lane; each result stands outstanding with the latency of its class, the token takes one operation, the slots advance,
the adds of what it bins are queued, and the next instruction may issue after the passes and STALL. Nothing is written until
the latency has passed. -/
def Obligations.LaneIssue : Prop :=
  ∀ (s : State) (i : Instr) (o : LaneOp) (sp : FixedSpec) (e : LaneEntry) (rest : List LaneEntry),
    Instr.fixed? i = some (o, sp) → s.laneHead i e rest →
    let t := s.team.popped rest
    let ps := s.lanePasses o sp.quad rest
    let q := s.consumeAll t o (ps.flatMap Pass.lanes)
    let c := s.laneCtx o e rest q.vals
    s.laneChecked o e rest ps (sp.rl c) (sp.wl c) →
    (e.chk = true → sp.guard c ps = none) → q.fails = [] → q.waits = false → q.lost = [] → q.poison = [] →
    ∃ u, Issues i s u ∧ u.laneq = rest ∧ u.q = (t.advanceSlots o).q ∧ u.tok = t.postedTok (encode i) ps.isEmpty
      ∧ u.laneFree = s.cycle + max ps.length 1 + o.f.stall.toNat ∧ u.pend.length = t.pend.length + ps.length
      ∧ (∀ n p, ps[n]? = some p → ∃ r, u.pend[t.pend.length + n]? = some r ∧ r.kind = .fixed
          ∧ r.ready = p.cyc + (if o.cls ≤ 2 then 4 else if o.cls = 3 then (if o.f.ty = 0#4 then 10 else 6)
              else if o.cls = 4 then 12 else if o.cls = 7 then 8 else 6)
          ∧ r.tok = lanePost (encode i) ∧ r.seq = e.seq ∧ (r.last = decide (n + 1 = ps.length))
          ∧ ((∀ x ∈ t.pend, ∀ k, (k ∈ (sp.eval c p).regs.map Prod.fst → x.hasReg k = false)
                ∧ (k ∈ (sp.eval c p).masks.map Prod.fst → x.maskOf k = none)) →
             (∀ m p', ps[m]? = some p' → m ≠ n →
                 ∀ k, (k ∈ (sp.eval c p).regs.map Prod.fst → k ∉ (sp.eval c p').regs.map Prod.fst)
                ∧ (k ∈ (sp.eval c p).masks.map Prod.fst → k ∉ (sp.eval c p').masks.map Prod.fst)) →
             r.regs = (sp.eval c p).regs ∧ r.part = [] ∧ r.masks = (sp.eval c p).masks))
      ∧ ((∀ f, i ≠ .laneHist f ∧ i ≠ .laneCvt f ∧ i ≠ .laneBpack f ∧ i ≠ .laneBscale f) → u.sdq = t.sdq)
      ∧ u.sdq.map WriteOp.what = t.sdq.map WriteOp.what ++ (sp.bins c ps).map fun x => .reduction x false

/-- R162 to R165: a pair word issues both halves in one cycle; both read the state before the word, and the results of each
stand outstanding like those of an instruction of its own. The cycle from which the next instruction may issue, and the order
in which the checking mode looks at the halves, are the choice of the model (log entry 67). -/
def Obligations.PairIssue : Prop :=
  ∀ (s : State) (x y : PairHalf) (e : LaneEntry) (rest : List LaneEntry), s.laneHead (.pairWord x y) e rest →
    let ox := LaneOp.ofHalf x
    let oy := LaneOp.ofHalf y
    let t := s.team.popped rest
    let px := s.lanePasses ox false rest
    let py := s.lanePasses oy false rest
    (e.chk = true → t.checkTouches
      (ox.touches (t.mayPass s.cycle ox.f.mask.toNat) t.nwarp s.cycle e.y e.fmt px (fun _ => Pass.lanes) Pass.lanes
        ++ oy.touches (t.mayPass s.cycle oy.f.mask.toNat) t.nwarp s.cycle e.y e.fmt py (fun _ => Pass.lanes) Pass.lanes) = none) →
    ∃ u, Issues (.pairWord x y) s u ∧ u.laneq = rest ∧ u.tok = t.tok ∧ u.sdq = t.sdq ∧ u.q = t.q
      ∧ u.laneFree = s.cycle + max (max px.length 1 + x.stall.toNat) (max py.length 1 + y.stall.toNat)
      ∧ u.pend.length = t.pend.length + px.length + py.length
      ∧ (t.pend = [] → ∀ p, px = [p] → py = [p] → x.d ≠ y.d → ox.width = 1 → oy.width = 1 →
          u.pend.map Pend.regs = [((halfSpec ox).eval (s.laneCtx ox e rest []) p).regs,
            ((halfSpec oy).eval { s.laneCtx oy e rest [] with elOff := 0x8000 } p).regs] ∧ ∀ r ∈ u.pend, r.part = [])

/-! ### Lane instructions: values -/

namespace Sys2Proof.Machine

/-- What a pass writes to lane l of D, as a number of w registers. -/
def PassOut.laneVal (r : PassOut) (d l : Nat) : Nat → Nat
  | 0 => 0
  | w + 1 => ((r.regs.find? fun x => x.1 == 1024 * d + l).map fun x => x.2.toNat).getD 0 + 2 ^ 32 * r.laneVal (d + 1) l w

/-- Element i, of n bits, of what a pass of a meaning writes to D in lane l; and of its operands A, B and C. -/
def Ctx.outElem (c : Ctx) (sp : FixedSpec) (p : Pass) (l i n : Nat) : BitVec n :=
  BitVec.ofNat n (elem ((sp.eval c p).laneVal c.o.f.d.toNat l c.o.width) i n)
def Ctx.inA (c : Ctx) (p : Pass) (l i n : Nat) : BitVec n := BitVec.ofNat n (elem (c.srcA p.cyc l) i n)
def Ctx.inB (c : Ctx) (p : Pass) (l i n : Nat) : BitVec n := BitVec.ofNat n (elem (c.srcB p.cyc l) i n)
def Ctx.inC (c : Ctx) (p : Pass) (l i n : Nat) : BitVec n := BitVec.ofNat n (elem (c.srcC p.cyc l) i n)

/-- A lane that takes part in a pass. -/
def Pass.has (p : Pass) (l : Nat) : Prop := l ∈ p.lanes ∧ ∀ x ∈ p.lanes, x < 1024

end Sys2Proof.Machine

/-- R201, R202, R206, R207: class 0x0 on every element of every integer type, as arithmetic on words of that width: without
SAT and `.ab` it wraps; with SAT a sum holds at the ends of its type; with `.ab` an ABSENT operand gives ABSENT. -/
def Obligations.LaneIntegerResults : Prop :=
  ∀ (c₀ : Ctx) (f : LaneFields) (p : Pass) (l i : Nat), p.has l → 5 ≤ f.ty.toNat → f.ty.toNat ≤ 0xC → i < tyElems f.ty.toNat →
    let n := tyBits f.ty.toNat
    let signed := decide (f.ty.toNat ≤ 8)
    let c (op : Nat) : Ctx := { c₀ with o := ⟨0, op, f⟩ }
    let x (op : Nat) := (c op).inA p l i n
    let y (op : Nat) := (c op).inB p l i n
    let z (op : Nat) := (c op).inC p l i n
    let out (op : Nat) (sp : FixedSpec) := (c op).outElem sp p l i n
    (f.sat = 0#1 → f.mod.getLsbD 4 = false →
      out 0 specIadd = x 0 + y 0 ∧ out 1 specIsub = x 1 - y 1 ∧ out 2 specImul = x 2 * y 2
      ∧ out 4 specImad = x 4 * y 4 + z 4 ∧ out 0xA specIneg = -(x 0xA)
      ∧ out 9 specIabs = (if signed && (x 9).msb then -(x 9) else x 9)
      ∧ out 3 specImulhi = (if signed then ((x 3).signExtend (2 * n) * (y 3).signExtend (2 * n)).extractLsb' n n
          else ((x 3).zeroExtend (2 * n) * (y 3).zeroExtend (2 * n)).extractLsb' n n)
      ∧ out 7 specImin = (if (if signed then (x 7).slt (y 7) else (x 7).ult (y 7)) then x 7 else y 7)
      ∧ out 8 specImax = (if (if signed then (x 8).slt (y 8) else (x 8).ult (y 8)) then y 8 else x 8)
      ∧ (y 5 ≠ 0#n → out 5 specIdiv = if signed then (x 5).sdiv (y 5) else (x 5) / (y 5))
      ∧ (y 6 ≠ 0#n → out 6 specIrem = if signed then (x 6).srem (y 6) else (x 6) % (y 6))
      ∧ (y 5 = 0#n → out 5 specIdiv = BitVec.allOnes n) ∧ (y 6 = 0#n → out 6 specIrem = x 6))
    ∧ (f.sat = 1#1 → f.mod.getLsbD 4 = false →
      (signed = true → (out 0 specIadd).toInt = max (-2 ^ (n - 1)) (min (2 ^ (n - 1) - 1) ((x 0).toInt + (y 0).toInt)))
      ∧ (signed = false → (out 0 specIadd).toNat = min (2 ^ n - 1) ((x 0).toNat + (y 0).toNat)
          ∧ (out 1 specIsub).toNat = (x 1).toNat - (y 1).toNat))
    ∧ (f.mod.getLsbD 4 = true →
      let absent : BitVec n := if signed then BitVec.intMin n else BitVec.allOnes n
      x 0 = absent ∨ y 0 = absent → out 0 specIadd = absent)

/-- R208 to R210: class 0x1: shifts, the function of three operands, bit fields and counts. -/
def Obligations.LaneLogicResults : Prop :=
  ∀ (c₀ : Ctx) (f : LaneFields) (p : Pass) (l i : Nat), p.has l → 5 ≤ f.ty.toNat → f.ty.toNat ≤ 0xC → i < tyElems f.ty.toNat →
    let n := tyBits f.ty.toNat
    let c (op : Nat) : Ctx := { c₀ with o := ⟨1, op, f⟩ }
    let x (op : Nat) := (c op).inA p l i n
    let y (op : Nat) := (c op).inB p l i n
    let z (op : Nat) := (c op).inC p l i n
    let out (op : Nat) (sp : FixedSpec) := (c op).outElem sp p l i n
    let w (op : Nat) : BitVec 32 := BitVec.ofNat 32 ((c op).src f.a 0xB p.cyc l)
    let r (op : Nat) (sp : FixedSpec) := (c op).outElem sp p l 0 32
    out 1 specIshl = x 1 <<< y 1 ∧ out 2 specIshr = x 2 >>> y 2 ∧ out 3 specIsar = (x 3).sshiftRight (y 3).toNat
    ∧ out 4 specIrot = (x 4).rotateLeft (y 4).toNat
    ∧ (∀ j, j < 32 → (r 0 specLfn3).getLsbD j = (f.imm.extractLsb' 8 8).getLsbD
        (((w 0).getLsbD j).toNat + 2 * (((c 0).src f.b 0xB p.cyc l).testBit j).toNat
          + 4 * (((c 0).src (f.imm.extractLsb' 0 8) 0xB p.cyc l).testBit j).toNat))
    ∧ (f.ty ∈ [7#4, 0xB#4] →
        let pos := (y 5).toNat % 32
        let len := min (pos + min ((y 5).toNat / 256 % 64) 32) 32 - pos
        ∀ j, j < 32 → (r 5 specBfext).getLsbD j
          = if j < len then (x 5).getLsbD (pos + j) else decide (f.ty = 7#4) && decide (0 < len) && (x 5).getLsbD (pos + len - 1))
    ∧ (f.ty = 0xB#4 →
        let pos := (y 6).toNat % 32
        let len := min (pos + min ((y 6).toNat / 256 % 64) 32) 32 - pos
        ∀ j, j < 32 → (r 6 specBfins).getLsbD j
          = if pos ≤ j ∧ j < pos + len then (x 6).getLsbD (j - pos) else (z 6).getLsbD j)
    ∧ (∀ j, j < 32 → (r 7 (bitsSpec bfrev)).getLsbD j = (w 7).getLsbD (31 - j))
    ∧ (r 8 (bitsSpec popc)).toNat = ((List.range 32).filter (w 8).getLsbD).length
    ∧ (w 9 = 0#32 → r 9 (bitsSpec clz) = 32#32)
    ∧ (w 9 ≠ 0#32 → (r 9 (bitsSpec clz)).toNat < 32 ∧ 2 ^ (31 - (r 9 (bitsSpec clz)).toNat) ≤ (w 9).toNat
        ∧ (w 9).toNat < 2 ^ (32 - (r 9 (bitsSpec clz)).toNat))
    ∧ (w 10 = 0#32 → r 10 (bitsSpec ctz) = 32#32)
    ∧ (w 10 ≠ 0#32 → (w 10).getLsbD (r 10 (bitsSpec ctz)).toNat = true
        ∧ ∀ j, j < (r 10 (bitsSpec ctz)).toNat → (w 10).getLsbD j = false)

/-- R211 to R213, R215, R217: integer comparisons into masks, the select, and the lanes that a shuffle and a quad read. -/
def Sys2Proof.Claims.LaneCompareAndMove : Prop :=
  ∀ (c₀ : Ctx) (f : LaneFields) (p : Pass) (l i : Nat), p.has l → 5 ≤ f.ty.toNat → f.ty.toNat ≤ 0xC → i < tyElems f.ty.toNat →
    let n := tyBits f.ty.toNat
    let c (cls op : Nat) : Ctx := { c₀ with o := ⟨cls, op, f⟩ }
    let x := (c 2 0).inA p l i n
    let y := (c 2 0).inB p l i n
    let lt := if f.ty.toNat ≤ 8 then x.slt y else x.ult y
    let bit := ((specIcmp.eval (c 2 0) p).masks.find? fun m => m.1 == 1024 * (f.d.toNat + i) + l).map Prod.snd
    let rel := (f.mod.extractLsb' 0 3).toNat
    (f.mod.getLsbD 4 = false →
      bit = (if rel = 0 then some (decide (x = y)) else if rel = 1 then some (decide (x ≠ y)) else if rel = 2 then some lt
        else if rel = 3 then some (lt || decide (x = y)) else if rel = 4 then some (!lt && decide (x ≠ y)) else some (!lt)))
    ∧ (c 2 2).outElem specSel p l i n
        = (if (c 2 2).t.maskBit (c 2 2).s.free p.cyc (f.mod.extractLsb' 0 4).toNat l then (c 2 2).inA p l i n
           else (c 2 2).inB p l i n)
    ∧ (f.mod.extractLsb' 0 3 = 0#3 → (c 7 1).outElem specQuad p l i n = (c 7 1).inA p (l ^^^ 1) i n)
    ∧ (f.mod.extractLsb' 0 3 = 1#3 → (c 7 1).outElem specQuad p l i n = (c 7 1).inA p (l ^^^ 2) i n)
    ∧ (f.mod.extractLsb' 0 3 = 2#3 → (c 7 1).outElem specQuad p l i n = (c 7 1).inA p (l ^^^ 3) i n)
    ∧ (f.mod.extractLsb' 0 3 = 3#3 → (c 7 1).outElem specQuad p l i n
        = (c 7 1).inA p (l / 4 * 4 + f.imm.toNat % 4) i n)
    ∧ (f.mod.extractLsb' 5 1 = 1#1 → f.mod.extractLsb' 3 2 = 0#2 → f.mod.extractLsb' 0 3 = 1#3 →
        (c 7 0).outElem specShfl p l i n
          = (c 7 0).inA p (if f.imm.toNat % 32 ≤ l % 32 then l - f.imm.toNat % 32 else l) i n)

/-- R215: the lane that a shuffle reads, in every mode and segment width, with k from IMM or from B. That B of `.n64` is one
32-bit register is the choice of the model (log entry 78). -/
def Sys2Proof.Claims.LaneShuffles : Prop :=
  ∀ (c₀ : Ctx) (f : LaneFields) (p : Pass) (l i : Nat), p.has l → f.ty ∈ [0xB#4, 0xC#4] → i < tyElems f.ty.toNat →
    let n := tyBits f.ty.toNat
    let c : Ctx := { c₀ with o := ⟨7, 0, f⟩ }
    let k := if f.mod.getLsbD 5 then f.imm.toNat % 32 else c.src f.b 0xB p.cyc l
    let seg := 32 / 2 ^ (f.mod.extractLsb' 3 2).toNat
    let base := l / seg * seg
    let j := l % seg
    let reads (src : Nat) : Prop := c.outElem specShfl p l i n = c.inA p src i n
    let mode := f.mod.extractLsb' 0 3
    (mode = 0#3 ∨ mode = 4#3 → reads (base + k % seg)) ∧ (mode = 1#3 → reads (if k ≤ j then l - k else l))
    ∧ (mode = 2#3 → reads (if j + k < seg then l + k else l)) ∧ (mode = 3#3 → reads (base + (j ^^^ (k % seg))))

/-- R77, R211, R212: `fcmp`: a relation with ABSENT is false; with a NaN only `.ne` and `.un` are true; zeros are equal. -/
def Sys2Proof.Claims.LaneFloatCompare : Prop :=
  ∀ (c₀ : Ctx) (f : LaneFields) (p : Pass) (l i : Nat), p.has l → f.ty.toNat ≤ 3 → i < tyElems f.ty.toNat →
    let c : Ctx := { c₀ with o := ⟨2, 1, f⟩ }
    let m := fmtOf f.ty.toNat c₀.e.fmt
    let x := m.decode (c.inA p l i (tyBits f.ty.toNat)).toNat
    let y := m.decode (c.inB p l i (tyBits f.ty.toNat)).toNat
    let bit := ((specFcmp.eval c p).masks.find? fun k => k.1 == 1024 * (f.d.toNat + i) + l).map Prod.snd
    let rel := (f.mod.extractLsb' 0 3).toNat
    (x = .absent ∨ y = .absent → bit = some false)
    ∧ (x ≠ .absent → y ≠ .absent → x = .nan ∨ y = .nan → bit = some (decide (rel = 1 ∨ rel = 6)))
    ∧ (x ≠ .absent → y ≠ .absent → x ≠ .nan → y ≠ .nan →
        let eq := !x.lt y && !y.lt x
        bit = some (if rel = 0 then eq else if rel = 1 then !eq else if rel = 2 then x.lt y else if rel = 3 then x.lt y || eq
          else if rel = 4 then !x.lt y && !eq else if rel = 5 then !x.lt y else (rel == 7 && !x.lt y)))

/-- R214: `vote` writes the whole word of a warp with a pass: the votes of the lanes that take part, whether one or all of
them vote, or whether all vote alike; 0 for the other lanes. -/
def Sys2Proof.Claims.LaneVotes : Prop :=
  ∀ (c₀ : Ctx) (f : LaneFields) (p : Pass) (l : Nat), l / 32 = p.warp →
    let c : Ctx := { c₀ with o := ⟨2, 3, f⟩ }
    let vote (j : Nat) : Prop := c.src f.a 0xB p.cyc j ≠ 0
    let mode := f.mod.extractLsb' 0 2
    ∃ b, ((specVote.eval c p).masks.find? fun k => k.1 == 1024 * f.d.toNat + l).map Prod.snd = some b
      ∧ (b = true ↔ l ∈ p.lanes ∧ (mode = 0#2 → vote l) ∧ (mode = 1#2 → ∃ j ∈ p.lanes, vote j)
          ∧ (mode = 2#2 → ∀ j ∈ p.lanes, vote j) ∧ (mode = 3#2 → (∀ j ∈ p.lanes, vote j) ∨ ∀ j ∈ p.lanes, ¬ vote j))

/-- R211 to R215, R217: comparisons into masks, the select, the vote, and the lanes that a shuffle and a quad read. -/
def Obligations.LaneCompareAndMove : Prop :=
  Claims.LaneCompareAndMove ∧ Claims.LaneShuffles ∧ Claims.LaneFloatCompare ∧ Claims.LaneVotes

/-- R75, R76, R225 to R229: in every operation of classes 0x3 and 0x4, ABSENT in any operand gives ABSENT, and otherwise a NaN
in any operand the canonical NaN; the sign operations and the classes of binary32. -/
def Sys2Proof.Claims.LaneFloatSpecials : Prop :=
  (∀ (f : FFmt) (fn : Nat) (rnd : Rnd) (sat : Bool) (x : Nat), fn ≤ 2 →
    (f.decode x = .absent → f.rootFn fn rnd sat x = f.absent) ∧ (f.decode x = .nan → f.rootFn fn rnd sat x = f.nan))
  ∧ (∀ (f : FFmt) (fn ty : Nat) (sat : Bool) (x : Nat), 3 ≤ fn → fn ≤ 7 →
    (f.decode x = .absent → approxFn f fn ty sat x = f.absent) ∧ (f.decode x = .nan → approxFn f fn ty sat x = f.nan))
  ∧ (∀ (r : Rnd) (x y z : FVal),
      (x = .absent ∨ y = .absent → FVal.add r x y = .absent ∧ FVal.mul x y = .absent)
      ∧ (x ≠ .absent → y ≠ .absent → x = .nan ∨ y = .nan → FVal.add r x y = .nan ∧ FVal.mul x y = .nan)
      ∧ (x = .absent ∨ y = .absent ∨ z = .absent → FVal.fma r x y z = .absent)
      ∧ (x ≠ .absent → y ≠ .absent → z ≠ .absent → x = .nan ∨ y = .nan ∨ z = .nan → FVal.fma r x y z = .nan)
      ∧ (∀ b c e, FVal.add r (.inf b) (.inf !b) = .nan ∧ FVal.mul (.inf b) (.num c 0 e) = .nan
          ∧ FVal.mul (.num c 0 e) (.inf b) = .nan))
  ∧ (∀ x : BitVec 32, fmtF32.decode x.toNat ≠ .absent → fmtF32.decode x.toNat ≠ .nan →
      fmtF32.signOp false x.toNat = (x &&& 0x7FFFFFFF#32).toNat ∧ fmtF32.signOp true x.toNat = (x ^^^ 0x80000000#32).toNat)
  ∧ (∀ x : BitVec 32, fmtF32.classOf x.toNat =
      if x = 0xFFFFFFFF#32 then 9
      else if 0x7F800000 < (x &&& 0x7FFFFFFF#32).toNat then 8
      else if x &&& 0x7FFFFFFF#32 = 0x7F800000#32 then (if x.msb then 0 else 7)
      else if x &&& 0x7FFFFFFF#32 = 0#32 then (if x.msb then 3 else 4)
      else if (x &&& 0x7FFFFFFF#32).toNat < 0x00800000 then (if x.msb then 2 else 5)
      else if x.msb then 1 else 6)

/-- R68 to R73, R224 to R231: what classes 0x3 and 0x4 leave in every element: the exact result of the decoded operands,
rounded once by the mode of the word (DYN is FMT.DR) with the random bits of the lane and the element; the minimum and maximum
by bits; the functions of LaneFloatSpecials. -/
def Sys2Proof.Claims.LaneFloatValues : Prop :=
  ∀ (c₀ : Ctx) (f : LaneFields) (p : Pass) (l i : Nat), p.has l → f.ty.toNat ≤ 3 → i < tyElems f.ty.toNat →
    let n := tyBits f.ty.toNat
    let m := fmtOf f.ty.toNat c₀.e.fmt
    let c (cls op : Nat) : Ctx := { c₀ with o := ⟨cls, op, f⟩ }
    let a (op : Nat) := (c 3 op).inA p l i n
    let b (op : Nat) := (c 3 op).inB p l i n
    let x (op : Nat) := m.decode (a op).toNat
    let y (op : Nat) := m.decode (b op).toNat
    let z (op : Nat) := m.decode ((c 3 op).inC p l i n).toNat
    let mode := if f.rnd = 7#3 then (c₀.e.fmt.extractLsb' 7 3).toNat else f.rnd.toNat
    let r := rndMode mode (srBits c₀.e.seed c₀.e.ctr (c₀.e.fmt.extractLsb' 14 4).toNat l (i + c₀.elOff))
    let put (v : FVal) : BitVec n := BitVec.ofNat n (m.ofVal r (f.sat == 1#1) v).code
    let out (op : Nat) (sp : FixedSpec) := (c 3 op).outElem sp p l i n
    mode ≤ 5 →
    out 0 specFadd = put (FVal.add r (x 0) (y 0)) ∧ out 1 specFsub = put (FVal.add r (x 1) (y 1).neg)
    ∧ out 2 specFmul = put (FVal.mul (x 2) (y 2)) ∧ out 3 specFfma = put (FVal.fma r (x 3) (y 3) (z 3))
    ∧ (∀ isMax : Bool,
        let op := if isMax then 5 else 4
        let got := out op (minMaxSpec isMax)
        let below (v w : FVal) : Prop := v.lt w ∨ (¬ w.lt v ∧ v.isNeg = true ∧ w.isNeg = false)
        (x op = .absent ∨ y op = .absent → got = BitVec.ofNat n m.absent)
        ∧ (x op ≠ .absent → y op ≠ .absent →
          (x op = .nan → y op = .nan → got = BitVec.ofNat n m.nan) ∧ (x op = .nan → y op ≠ .nan → got = b op)
          ∧ (x op ≠ .nan → y op = .nan → got = a op)
          ∧ (x op ≠ .nan → y op ≠ .nan →
            (below (x op) (y op) → got = if isMax then b op else a op)
            ∧ (¬ below (x op) (y op) → below (y op) (x op) → got = if isMax then a op else b op)
            ∧ (¬ below (x op) (y op) → ¬ below (y op) (x op) → got = a op ∨ got = b op))))
    ∧ out 6 (signSpec false) = BitVec.ofNat n (m.signOp false (a 6).toNat)
    ∧ out 7 (signSpec true) = BitVec.ofNat n (m.signOp true (a 7).toNat)
    ∧ out 8 specFclass = BitVec.ofNat n (m.classOf (a 8).toNat)
    ∧ ∀ fn, let e := ((c 4 fn).inA p l i n).toNat
        (fn ≤ 2 → (c 4 fn).outElem (rootSpec fn) p l i n = BitVec.ofNat n (m.rootFn fn r (f.sat == 1#1) e))
        ∧ (3 ≤ fn → fn ≤ 7 →
            (c 4 fn).outElem (approxSpec fn) p l i n = BitVec.ofNat n (approxFn m fn f.ty.toNat (f.sat == 1#1) e))

/-! ### Lane instructions: conversions, blocks, histograms -/

/-- R232 to R235: one element of a `cvt`. Under SAT an infinity into a floating type is the choice of the model (log entry
89). -/
def Sys2Proof.Claims.LaneConversions : Prop :=
  ∀ (c₀ : Ctx) (f : LaneFields) (p : Pass) (l i : Nat), p.has l →
    let c : Ctx := { c₀ with o := ⟨5, 0, f⟩ }
    let dt := f.ty.toNat
    let st := (f.mod.extractLsb' 0 4).toNat
    let n := tyBits dt
    let k := tyBits st
    let elems := max (tyElems dt) (tyElems st)
    let src := if f.a.toNat < 0xE0 then c.regs k p.cyc f.a.toNat l (max 1 (elems * k / 32)) else c.src f.a st p.cyc l
    let x : BitVec k := BitVec.ofNat k (elem src i k)
    let out : BitVec n := BitVec.ofNat n (elem ((specCvt.eval c p).laneVal f.d.toNat l (max 1 (elems * n / 32))) i n)
    let sat := f.sat == 1#1
    let ab := f.mod.getLsbD 4
    let r := c.rnd l i
    let put (v : FVal) : BitVec n := BitVec.ofNat n ((fmtOf dt c₀.e.fmt).ofVal r sat v).code
    let v := (fmtOf st c₀.e.fmt).decode x.toNat
    let num : Int := if st ≤ 8 then x.toInt else x.toNat
    let gone : BitVec n := if dt ≤ 8 then BitVec.intMin n else BitVec.allOnes n
    let isGone : Prop := ab = true ∧ x = if st ≤ 8 then BitVec.intMin k else BitVec.allOnes k
    let lo : Int := if dt ≤ 8 then -2 ^ (n - 1) + (if ab then 1 else 0) else 0
    let hi : Int := if dt ≤ 8 then 2 ^ (n - 1) - 1 else 2 ^ n - 1 - (if ab then 1 else 0)
    dt ≤ 0xC → st ≤ 0xC → i < elems →
    (dt ≤ 4 → st ≤ 4 → out = put v)
    ∧ (dt ≤ 4 → 5 ≤ st → (isGone → out = put .absent) ∧ (¬ isGone → out = put (FVal.ofInt num)))
    ∧ (5 ≤ dt → 5 ≤ st → (isGone → out = gone)
        ∧ (sat = false → ab = false → out = if st ≤ 8 then x.signExtend n else x.zeroExtend n)
        ∧ (sat = true ∨ ab = true → ¬ isGone → out = BitVec.ofInt n (max lo (min hi num))))
    ∧ (5 ≤ dt → st ≤ 4 → (v = .absent → out = if ab then gone else 0#n) ∧ (v = .nan → out = 0#n)
        ∧ (∀ b, v = .inf b → out = BitVec.ofInt n (if b then lo else hi))
        ∧ (∀ s m e, v = .num s m e → out = BitVec.ofInt n (max lo (min hi (if m = 0 then 0 else nearestInt r s (Mag.dyadic m e))))))

/-- R236: `frnd` gives the integer that R69 chooses, in the same type, and returns zeros and infinities unchanged. -/
def Sys2Proof.Claims.LaneRounds : Prop :=
  ∀ (c₀ : Ctx) (f : LaneFields) (p : Pass) (l i : Nat), p.has l → f.ty.toNat ≤ 3 → i < tyElems f.ty.toNat →
    let n := tyBits f.ty.toNat
    let m := fmtOf f.ty.toNat c₀.e.fmt
    let c : Ctx := { c₀ with o := ⟨5, 1, f⟩ }
    let x := c.inA p l i n
    let out := c.outElem specFrnd p l i n
    (m.decode x.toNat = .absent → out = BitVec.ofNat n m.absent) ∧ (m.decode x.toNat = .nan → out = BitVec.ofNat n m.nan)
    ∧ (∀ b, m.decode x.toNat = .inf b → out = x)
    ∧ ∀ b k e, m.decode x.toNat = .num b k e → (k = 0 → out = x)
        ∧ (k ≠ 0 → out = BitVec.ofNat n
            (m.ofVal .rtz false (.num b (nearestInt (c.rnd l i) b (Mag.dyadic k e)).natAbs 0)).code)

namespace Sys2Proof.Machine

/-- A pass leaves this record as the image of its warp in D (R237). -/
def PassOut.imageIs (r : PassOut) (d w t rec : Nat) : Prop :=
  ∀ j, j < LaneOp.imgLanes t → (r.regs.find? fun x => x.1 == 1024 * d + (32 * w + j)).map Prod.snd = some (BitVec.ofNat 32 (rec / 2 ^ (32 * j)))

end Sys2Proof.Machine

/-- R237 to R240: `bpack`, `bunpack` and `bscale`. -/
def Sys2Proof.Claims.LaneBlocks : Prop :=
  ∀ (c₀ : Ctx) (f : LaneFields) (p : Pass),
    let c (op : Nat) : Ctx := { c₀ with o := ⟨6, op, f⟩ }
    let fmt := c₀.e.fmt
    let bt := LaneOp.blockTy f.ty.toNat fmt
    let ef := blockFmt bt fmt
    let r (op i : Nat) := (c op).rnd (32 * p.warp + i) 0
    let sat := f.sat == 1#1
    (let st := (f.mod.extractLsb' 0 4).toNat
      let x (i : Nat) : FVal := if 32 * p.warp + i ∈ p.lanes then
        (fmtOf st fmt).decode ((c 0).src f.a st p.cyc (32 * p.warp + i) % 2 ^ tyBits st) else .absent
      let sx := f.mod.getLsbD 4
      ∃ (scale : Nat) (code : Nat → Nat),
        (specBpack.eval (c 0) p).imageIs f.d.toNat p.warp bt (mkRec bt scale ((List.range 32).map code))
        ∧ (sx = true → scale = f.imm.toNat % 256)
        ∧ (sx = false → (∀ i, i < 32 → x i = .absent) → scale = 0xFE)
        ∧ (sx = false → (∃ i, i < 32 ∧ x i ≠ .absent) → (∀ i, i < 32 → (x i).lead = none) → scale = 127)
        ∧ (sx = false → ∀ k, (∃ i, i < 32 ∧ (x i).lead = some k) → (∀ i j, i < 32 → (x i).lead = some j → j ≤ k) →
            (scale : Int) = max 0 (min 0xFD (k - ef.emax + 127)))
        ∧ ∀ i, i < 32 → (0xFE ≤ scale → code i = 0)
            ∧ (scale < 0xFE → code i = (ef.ofVal (r 0 i) (!sx || sat) ((x i).scaleBy (127 - scale))).code))
    ∧ (∀ l, p.has l →
        let t := LaneOp.blockTy (f.mod.extractLsb' 0 4).toNat fmt
        let rec' := (c 1).image t f.a.toNat p.warp p.cyc
        let v := (blockFmt t fmt).decode (recElem t rec' (l % 32))
        let m := fmtOf f.ty.toNat fmt
        let out := ((specBunpack.eval (c 1) p).regs.find? fun x => x.1 == 1024 * f.d.toNat + l).map Prod.snd
        (rec' % 256 = 0xFE → out = some (BitVec.ofNat 32 m.absent)) ∧ (rec' % 256 = 0xFF → out = some (BitVec.ofNat 32 m.nan))
        ∧ (rec' % 256 < 0xFE →
            out = some (BitVec.ofNat 32 (m.ofVal ((c 1).rnd l 0) sat (v.scaleBy ((rec' % 256 : Nat) - 127))).code)))
    ∧ (let rec' := (c 2).image bt f.a.toNat p.warp p.cyc
      let old := rec' % 256
      let goal : Int := old + f.imm.toInt
      ∃ (scale : Nat) (code : Nat → Nat),
        (specBscale.eval (c 2) p).imageIs f.d.toNat p.warp bt (mkRec bt scale ((List.range 32).map code))
        ∧ (0xFE ≤ old → scale = old ∧ ∀ i, i < 32 → code i = recElem bt rec' i)
        ∧ (old < 0xFE → 0 ≤ goal → goal ≤ 0xFD → (scale : Int) = goal ∧ ∀ i, i < 32 → code i = recElem bt rec' i)
        ∧ (old < 0xFE → goal < 0 ∨ 0xFD < goal → scale = (if goal < 0 then 0 else 0xFD) ∧ ∀ i, i < 32 →
            ((∀ s m e, ef.decode (recElem bt rec' i) ≠ .num s m e) → code i = recElem bt rec' i)
            ∧ ∀ s m e, ef.decode (recElem bt rec' i) = .num s m e →
                code i = (ef.ofVal (r 2 i) sat (.num s m (e + (goal - scale)))).code))

/-- R241, R242: the test for presence and the default. -/
def Sys2Proof.Claims.LanePresence : Prop :=
  ∀ (c₀ : Ctx) (f : LaneFields) (p : Pass) (l i : Nat), p.has l → f.ty.toNat ≤ 0xC → i < tyElems f.ty.toNat →
    let n := tyBits f.ty.toNat
    let c (op : Nat) : Ctx := { c₀ with o := ⟨6, op, f⟩ }
    let gone : BitVec n := if f.ty.toNat ≤ 4 then BitVec.ofNat n (fmtOf f.ty.toNat c₀.e.fmt).absent
      else if f.ty.toNat ≤ 8 then BitVec.intMin n else BitVec.allOnes n
    ((specFpres.eval (c 3) p).masks.find? fun k => k.1 == 1024 * (f.d.toNat + i) + l).map Prod.snd
        = some (decide ((c 3).inA p l i n ≠ gone))
    ∧ (c 4).outElem specFdflt p l i n = if (c 4).inA p l i n = gone then (c 4).inB p l i n else (c 4).inA p l i n

/-- R84 to R86, R243, R244: `hist` of binary32 adds 1 to the bin of every element of the lanes that take part; `cvt`, `bpack`
and `bscale` bin nothing without HI or while HEN is 0. -/
def Sys2Proof.Claims.LaneHistograms : Prop :=
  ∀ (c₀ : Ctx) (f : LaneFields) (ps : List Pass),
    let c (cls op : Nat) : Ctx := { c₀ with o := ⟨cls, op, f⟩ }
    (f.mod.getLsbD 5 = false ∨ c₀.e.fmt.getLsbD 11 = false →
      specCvt.bins (c 5 0) ps = [] ∧ specBpack.bins (c 6 0) ps = [] ∧ specBscale.bins (c 6 2) ps = [])
    ∧ (f.ty = 1#4 →
      specHist.bins (c 6 5) ps
          = (ps.flatMap fun p => p.lanes.flatMap fun l => specHist.bins (c 6 5) [{ p with lanes := [l] }])
      ∧ ∀ (p : Pass) (l : Nat), c₀.e.hist.toNat / 2 ^ 25 = 63 → c₀.e.hist.toNat % 1024 = 0 →
          let x := (c 6 5).inA p l 0 32
          let e := (x.extractLsb' 23 8).toNat
          let first := 2 ^ 52 + c₀.t.core * 2 ^ 25 + c₀.e.hist.toNat % 2 ^ 25 + 256 * (f.mod.extractLsb' 0 2).toNat
          let adds (b : Nat) : List Rmw := [{ mode := { op := .bin }, key := first + 4 * b, size := 4, val := 1 }]
          specHist.bins (c 6 5) [{ p with lanes := [l] }] =
            if x = 0xFFFFFFFF#32 then []
            else if e = 255 then adds (if x.extractLsb' 0 23 = 0#23 then 62 else 63)
            else if e = 0 then adds 0
            else adds (min (max e 97) 157 - 96))

/-- R68 to R77, R84 to R86, R224 to R244: the floating classes 0x3 and 0x4, the conversions of class 0x5, and blocks, presence
and histograms, class 0x6. Under SAT an infinity into a floating type is the choice of the model (log entry 89). -/
def Obligations.LaneFloat : Prop :=
  Claims.LaneFloatSpecials ∧ Claims.LaneFloatValues ∧ Claims.LaneConversions ∧ Claims.LaneRounds ∧ Claims.LaneBlocks
    ∧ Claims.LanePresence ∧ Claims.LaneHistograms

/-! ### Lane instructions: memory -/

namespace Sys2Proof.Machine

/-- Every access passes its checks, and reaches bytes that nothing holds, none of them poisoned or out of reach. -/
def State.laneClear (s : State) (t : Team) (accs : List LaneAcc) : Prop :=
  ∀ a ∈ accs, a.chk.fails = [] ∧ s.mustWait t a.chk.keys = false ∧ s.loadPoisoned t a.chk.keys = false
    ∧ a.chk.keys.any s.unreachable = false

/-- The value that an operation will write to register r of lane l. -/
def Pend.laneReg (p : Pend) (r l : Nat) : Option Lane32 := (p.regs.find? fun x => x.1 == 1024 * r + l).map Prod.snd

end Sys2Proof.Machine

/-- R249: the address of a lane: base plus index, scaled by the element size under MOD[2:1] = 1, plus OFF, in 64 bits. -/
def Sys2Proof.Claims.LaneAddresses : Prop :=
  ∀ (c₀ : Ctx) (f : LaneFields) (op cyc l : Nat),
    let c : Ctx := { c₀ with o := ⟨8, op, f⟩ }
    let base : Word := BitVec.ofNat 64 (c.base cyc l)
    let index : BitVec 32 := if f.b.toNat = 0xEC then 0 else BitVec.ofNat 32 (c.src f.b 0xB cyc l)
    let off : Word := (f.imm.extractLsb' 20 12).signExtend 64
    (f.mod.extractLsb' 1 2 = 0#2 → BitVec.ofNat 64 (c.addr8 cyc l) = base + index.signExtend 64 + off)
    ∧ (f.mod.extractLsb' 1 2 = 1#2 →
        BitVec.ofNat 64 (c.addr8 cyc l) = base + index.signExtend 64 * BitVec.ofNat 64 c.o.size + off)

/-- R248, R251: a lane load leaves one outstanding operation that holds, for each active lane, the bytes at its
address, zero-extended or, for a signed type, sign-extended to a register; a 64-bit element takes two. Its token takes
it. That a load takes its bytes when it issues is the choice of the model (log entry 18). The clauses on values leave
the block types out. -/
def Sys2Proof.Claims.LaneLoads : Prop :=
  ∀ (s : State) (f : LaneFields) (e : LaneEntry) (rest : List LaneEntry), (Instr.laneLd f).wf = true →
    s.laneHead (.laneLd f) e rest →
    let o : LaneOp := ⟨8, 0x00, f⟩
    let t := s.team.popped rest
    let ps := s.lanePasses o false rest
    let c := s.laneCtx o e rest []
    s.laneChecked o e rest ps (memReads c) (fun p => o.dataLanes p) → s.laneClear t (c.accesses needR ps) →
    ∃ u, Issues (.laneLd f) s u ∧ u.laneq = rest ∧ u.sdq = t.sdq ∧ u.q = t.q
      ∧ u.tok = t.postedTok (encode (.laneLd f)) ps.isEmpty
      ∧ u.laneFree = s.cycle + max ps.length 1 + f.stall.toNat
      ∧ u.pend.length = t.pend.length + (if ps.isEmpty then 0 else 1)
      ∧ (ps ≠ [] → t.pend = [] → ∃ r, u.pend = [r] ∧ r.kind = .load ∧ r.tok = lanePost (encode (.laneLd f)) ∧ r.seq = e.seq
          ∧ r.kills = [] ∧ r.cancel = false
          ∧ ∀ p ∈ ps, ∀ l ∈ p.lanes,
              let x := s.load t (s.check t o.isG needR l (c.addr8 p.cyc l) o.size).keys
              (f.ty = 5#4 → r.laneReg f.d.toNat l = some ((BitVec.ofNat 8 x).signExtend 32))
              ∧ (f.ty = 6#4 → r.laneReg f.d.toNat l = some ((BitVec.ofNat 16 x).signExtend 32))
              ∧ (f.ty ∈ [1#4, 2#4, 3#4, 4#4, 7#4, 9#4, 0xA#4, 0xB#4] → r.laneReg f.d.toNat l = some (BitVec.ofNat 32 x))
              ∧ (f.ty ∈ [0#4, 8#4, 0xC#4] → r.laneReg f.d.toNat l = some (BitVec.ofNat 32 x)
                  ∧ r.laneReg (f.d.toNat + 1) l = some (BitVec.ofNat 32 (x / 2 ^ 32))))

/-- R122, R252: a lane store puts the low bytes of D's element of each active lane into the store-delay queue, under its
release scope. Lanes whose bytes do not overlap all land as they stand. Memory does not change at the issue. The store stands
outstanding, with a token or without one (R40). -/
def Sys2Proof.Claims.LaneStores : Prop :=
  ∀ (s : State) (f : LaneFields) (e : LaneEntry) (rest : List LaneEntry), (Instr.laneSt f).wf = true →
    s.laneHead (.laneSt f) e rest →
    let o : LaneOp := ⟨8, 0x01, f⟩
    let t := s.team.popped rest
    let ps := s.lanePasses o false rest
    let c := s.laneCtx o e rest []
    let accs := c.accesses needW ps
    s.laneChecked o e rest ps (memReads c) (fun _ => []) → (∀ a ∈ accs, a.chk.fails = []) →
    s.fabricHeld (accs.flatMap fun a => a.chk.keys) = false →
    ∃ (u : Team) (new : List WriteOp), Issues (.laneSt f) s u ∧ u.laneq = rest ∧ u.sdq = t.sdq ++ new ∧ u.q = t.q
      ∧ u.tok = t.postedTok (encode (.laneSt f)) ps.isEmpty
      ∧ u.laneFree = s.cycle + max ps.length 1 + f.stall.toNat
      ∧ (∀ w ∈ new, w.born = s.cycle ∧ w.departed = false ∧ w.acquire = false
          ∧ w.release = if 2 ≤ (f.mod.extractLsb' 3 2).toNat then some (f.imm.extractLsb' 16 4).toNat else none)
      ∧ u.pend.length = t.pend.length + (if ps.isEmpty then 0 else 1)
      ∧ ((accs.flatMap fun a => a.chk.keys).Nodup → tyIsBlock f.ty.toNat = false →
          (∀ a ∈ accs, ∀ j k, a.chk.keys[j]? = some k → (s.setTeam u).loadByte u k
              = byteOf (BitVec.ofNat 64 (c.regs (tyBits f.ty.toNat) a.pass.cyc f.d.toNat a.lane o.width)) j)
          ∧ ∀ k, k ∉ (accs.flatMap fun a => a.chk.keys) → (s.setTeam u).loadByte u k = s.loadByte t k)

/-- R40, R254: a prefetch writes nothing; it leaves one outstanding operation, with a token or without one. -/
def Sys2Proof.Claims.LanePrefetches : Prop :=
  ∀ (s : State) (f : LaneFields) (e : LaneEntry) (rest : List LaneEntry), (Instr.lanePref f).wf = true →
    s.laneHead (.lanePref f) e rest →
    let o : LaneOp := ⟨8, 0x02, f⟩
    let t := s.team.popped rest
    let ps := s.lanePasses o false rest
    let c := s.laneCtx o e rest []
    s.laneChecked o e rest ps (memReads c) (fun _ => []) → (∀ a ∈ c.accesses needR ps, a.chk.fails = []) →
    s.fabricHeld ((c.accesses needR ps).flatMap fun a => a.chk.keys) = false →
    ∃ u, Issues (.lanePref f) s u ∧ u.laneq = rest ∧ u.sdq = t.sdq ∧ u.q = t.q
      ∧ u.tok = t.postedTok (encode (.lanePref f)) ps.isEmpty
      ∧ u.laneFree = s.cycle + max ps.length 1 + f.stall.toNat
      ∧ u.pend.length = t.pend.length + if ps.isEmpty then 0 else 1

/-- R248 to R254: lane loads, stores and prefetches. That a load takes its bytes when it issues is the choice of the
model (log entry 18). The clauses on the values of loads leave the block types out. -/
def Obligations.LaneMemory : Prop :=
  Claims.LaneAddresses ∧ Claims.LaneLoads ∧ Claims.LaneStores ∧ Claims.LanePrefetches

namespace Sys2Proof.Machine

/-- The returning atomics of class 0x9: OP and operation (R255). -/
def Instr.laneAtomic? : Instr → Option (Nat × RmwOp × LaneFields)
  | .laneAtomAdd f => some (0x00, .add, f) | .laneAtomMin f => some (0x01, .min, f) | .laneAtomMax f => some (0x02, .max, f)
  | .laneAtomAnd f => some (0x03, .and, f) | .laneAtomOr f => some (0x04, .or, f) | .laneAtomXor f => some (0x05, .xor, f)
  | .laneAtomExch f => some (0x06, .exch, f) | .laneAtomCas f => some (0x07, .cas, f)
  | .laneAtomFadd f => some (0x08, .fadd, f) | .laneAtomFmax f => some (0x09, .fmax, f)
  | .laneAtomFmin f => some (0x0A, .fmin, f) | _ => none

/-- The no-return reductions of class 0x9 (R258). -/
def Instr.laneRed? : Instr → Option (Nat × RmwOp × LaneFields)
  | .laneRedAdd f => some (0x10, .add, f) | .laneRedMin f => some (0x11, .min, f) | .laneRedMax f => some (0x12, .max, f)
  | .laneRedAnd f => some (0x13, .and, f) | .laneRedOr f => some (0x14, .or, f) | .laneRedXor f => some (0x15, .xor, f)
  | .laneRedFadd f => some (0x18, .fadd, f) | .laneRedFmax f => some (0x19, .fmax, f)
  | .laneRedFmin f => some (0x1A, .fmin, f) | _ => none

end Sys2Proof.Machine

/-- R95, R255, R258: a lane atomic or reduction leaves one read-modify-write for each active lane in the store-delay queue,
with its B, under its release scope, and for a returning one that acquires (R105) so marked; it leaves an outstanding
operation, and a returning one's awaits D of every such lane. Lanes that share no location keep their order. That
a reduction to an S-address waits in the queue too is the choice of the model (log entry 69). -/
def Obligations.LaneAtomics : Prop :=
  ∀ (s : State) (i : Instr) (opc : Nat) (op : RmwOp) (f : LaneFields) (ret : Bool) (e : LaneEntry) (rest : List LaneEntry),
    (if ret then Instr.laneAtomic? i else Instr.laneRed? i) = some (opc, op, f) → i.wf = true → s.laneHead i e rest →
    let o : LaneOp := ⟨9, opc, f⟩
    let t := s.team.popped rest
    let ps := s.lanePasses o false rest
    let c := s.laneCtx o e rest []
    let accs := c.accesses9 ps
    s.laneChecked o e rest ps (memReads c) (fun p => if ret then p.lanes else []) → (∀ a ∈ accs, a.chk.fails = []) →
    s.fabricHeld (accs.flatMap fun a => a.chk.keys) = false → s.lostLanes accs = [] →
    ∃ (u : Team) (new : List WriteOp), Issues i s u ∧ u.laneq = rest ∧ u.sdq = t.sdq ++ new ∧ u.q = t.q
      ∧ u.tok = t.postedTok (encode i) ps.isEmpty ∧ u.laneFree = s.cycle + max ps.length 1 + f.stall.toNat
      ∧ new.length = accs.length
      ∧ (∀ w ∈ new, w.born = s.cycle ∧ w.departed = false ∧ (w.acquire = true ↔ ret = true ∧ f.mod.getLsbD 3 = true)
          ∧ w.release = if 2 ≤ (f.mod.extractLsb' 3 2).toNat then some (f.imm.extractLsb' 16 4).toNat else none)
      ∧ u.pend.length = t.pend.length + (if ps.isEmpty then 0 else 1)
      ∧ ((accs.map fun a => a.chk.keys.headD 0).Nodup → ∀ (n : Nat) (a : LaneAcc), accs[n]? = some a →
          ∃ (w : WriteOp) (r : Rmw), new[n]? = some w
          ∧ w.what = (if ret then .atomic r else .reduction r o.isG) ∧ r.mode.op = op ∧ r.mode.ty = f.ty ∧ r.lane = a.lane
          ∧ r.key = a.chk.keys.headD 0 ∧ r.val = BitVec.ofNat 64 (c.src f.b f.ty.toNat a.pass.cyc a.lane)
          ∧ r.size = if f.ty ∈ [0#4, 8#4, 0xC#4] then 8 else 4)
      ∧ (ret = true → ps ≠ [] → t.pend = [] → ∃ r, u.pend = [r] ∧ r.kind = .atomic ∧ r.tok = lanePost (encode i)
          ∧ r.regs = [] ∧ ∀ l k, l < 1024 → k < o.width → (1024 * (f.d.toNat + k) + l ∈ r.awaits ↔ ∃ p ∈ ps, l ∈ p.lanes))

/-! ### Lane instructions: reductions and the matrix unit -/

/-- R34, R35, R218, R220: a `wred` or `tred` leaves one outstanding operation with its results, and its token takes it. -/
def Sys2Proof.Claims.LaneReductionIssue : Prop :=
  ∀ (s : State) (f : LaneFields) (whole : Bool) (e : LaneEntry) (rest : List LaneEntry),
    let i : Instr := if whole then .laneTred f else .laneWred f
    let o : LaneOp := ⟨7, if whole then 3 else 2, f⟩
    s.laneHead i e rest →
    let t := s.team.popped rest
    let ps := s.lanePasses o false rest
    let q := s.consumeAll t o (ps.flatMap Pass.lanes)
    s.laneChecked o e rest ps (fun _ => Pass.lanes) Pass.lanes → q.fails = [] → q.waits = false → q.lost = [] →
    q.poison = [] →
    ∃ u, Issues i s u ∧ u.laneq = rest ∧ u.sdq = t.sdq ∧ u.q = (t.advanceSlots o).q
      ∧ u.tok = t.postedTok (encode i) ps.isEmpty ∧ u.laneFree = s.cycle + max ps.length 1 + f.stall.toNat
      ∧ u.pend.length = t.pend.length + (if ps.isEmpty then 0 else 1)
      ∧ (ps ≠ [] → t.pend = [] → ∃ r, u.pend = [r] ∧ r.kind = .reduce ∧ r.tok = lanePost (encode i)
          ∧ (f.ty = 0xB#4 → f.mod.extractLsb' 0 4 = 0#4 → f.mod.getLsbD 5 = false → f.sat = 0#1 →
              ∀ p ∈ ps, ∀ l ∈ p.lanes,
                let c := s.laneCtx o e rest q.vals
                let ins := (if whole then ps else [p]).flatMap fun p' => p'.lanes.map fun l' => c.inA p' l' 0 32
                r.laneReg f.d.toNat l = some ins.sum
                ∧ (f.mod.getLsbD 4 = true → r.laneReg (f.d.toNat + 1) l = some (BitVec.ofNat 32 ins.length))))

/-- R78: in every reduction ABSENT is the identity, with no rounding. -/
def Sys2Proof.Claims.AbsentIsIdentity : Prop :=
  ∀ (m : RedMode) (w e x : Nat) (t : List (Option Nat)), t.length = 32 → w < 32 →
    (∀ i, t.getD i none = none) ∨ (∃ j, j < 32 ∧ t.getD j none = some x ∧ ∀ i, i ≠ j → t.getD i none = none) →
    m.warp w e t = t.findSome? id

/-- R78, R80, R81, R218, R220: warp and team reductions. -/
def Obligations.LaneReductions : Prop := Claims.LaneReductionIssue ∧ Claims.AbsentIsIdentity

namespace Sys2Proof.Machine

/-- The matrix instructions: OP and kind (R275, R282). -/
def Instr.matrix? : Instr → Option (Nat × MatKind × LaneFields)
  | .mma f => some (0x00, .mma, f) | .mmloop f => some (0x01, .mmloop, f) | .mmzero f => some (0x02, .mmzero, f)
  | .mmdrain f => some (0x03, .mmdrain, f) | .mmcheck f => some (0x04, .mmcheck, f) | _ => none

/-- The rows of a matrix command: the active lanes of warps 0 and 1 (R277). -/
def State.matRows (s : State) (f : LaneFields) (rest : List LaneEntry) : List Nat :=
  (List.range (min 2 s.team.nwarp)).flatMap fun w => (s.team.popped rest).activeLanes s.free s.cycle f.mask.toNat w

/-- The command that a matrix instruction hands over, but for its crew number and the lines that it will write. -/
def State.matCmd (s : State) (kind : MatKind) (f : LaneFields) (e : LaneEntry) (rest : List LaneEntry) : MatCmd :=
  { team := s.cur, op := s.team.nextOp, kind := kind, f := f, fmt := e.fmt, seed := e.seed, ctr := e.ctr, hist := e.hist,
    x := e.x, y := e.y, rows := (s.matRows f rest).foldl (fun x l => x ||| BitVec.ofNat 64 (2 ^ l)) 0#64,
    born := s.cycle, tick := s.ticks }

end Sys2Proof.Machine

/-- R275, R282, R285, R294: a matrix instruction that finds a place in the sequencer of its quarter, whose ranges pass and
whose tile is the group's, hands one command over and posts, whatever its mask; it occupies one cycle and STALL. One whose
tile has been seized since its enqueue is cancelled, and its token takes the cancel flag. -/
def Obligations.MatrixIssue : Prop :=
  ∀ (s : State) (i : Instr) (opc : Nat) (kind : MatKind) (f : LaneFields) (e : LaneEntry) (rest : List LaneEntry),
    Instr.matrix? i = some (opc, kind, f) → s.laneHead i e rest →
    let t := s.team.popped rest
    let c := s.matCmd kind f e rest
    e.chk = false → (s.sequencer t.gq).length < 16 → s.commandFault t c = none → (s.groupOf t).crewCancels = [] →
    let crewed := decide (opc ≤ 1) && f.mod.getLsbD 5
    (s.tileOwned t c.tileNo = false → crewed = false →
      ∃ u, Issues i s u ∧ u.laneq = rest ∧ u.sdq = t.sdq ∧ u.laneFree = s.cycle + 1 + f.stall.toNat ∧ u.op? s.team.nextOp = none
        ∧ ∀ k, lanePost (encode i) = some k → (u.token k).count = (t.token k).count ∧ (u.token k).cancel = true)
    ∧ (s.tileOwned t c.tileNo = true →
    ∃ s' cmd u, exec i s = .next s' ∧ s'.team = u ∧ Issues i s u ∧ s'.sequencer t.gq = s.sequencer t.gq ++ [cmd]
      ∧ cmd = { c with crewN := if crewed then some t.crewCmds else none, lines := cmd.lines }
      ∧ (c.toSpad = false → cmd.lines = []) ∧ (∀ l, l < 64 → cmd.rows.getLsbD l = decide (l ∈ s.matRows f rest))
      ∧ u.laneq = rest ∧ u.sdq = t.sdq ∧ u.q = t.q ∧ u.tok = t.postedTok (encode i) false
      ∧ u.laneFree = s.cycle + 1 + f.stall.toNat ∧ u.pend.length = t.pend.length + 1
      ∧ u.crewCmds = t.crewCmds + if crewed then 1 else 0)

namespace Sys2Proof.Machine

/-- Both checksums of every row agree with its values (R274). -/
def Tile.sound (x : Tile) : Prop :=
  ∀ r, r < 64 → Store.get 0 x.cx r = rowCx (x.row r) ∧ Store.get 0 x.cr r = rowCr (x.row r)

end Sys2Proof.Machine

/-- R274, R281: a step changes the values and counts of the rows that take part, where some product is present, and of no
other; it keeps the checksums. -/
def Sys2Proof.Claims.MatrixStepOnTile : Prop :=
  ∀ (x : Tile) (ty : Nat) (fmt : Word) (rows : List (Nat × Nat × Nat)) (bs : List Nat) (r j : Nat), r < 64 → j < 32 →
    (rows.map Prod.fst).Nodup → (∀ q ∈ rows, q.1 < 64) →
    let y := x.matStep ty fmt rows bs
    let k := 32 * r + j
    (x.sound → y.sound)
    ∧ ((∀ q ∈ rows, q.1 ≠ r) → Store.get 0 y.vals k = Store.get 0 x.vals k ∧ Store.get 0 y.counts k = Store.get 0 x.counts k)
    ∧ ∀ a c, (r, a, c) ∈ rows →
        let ps := bs.zipIdx.filterMap fun b =>
          if matA ty fmt a c b.2 = .absent ∨ matB ty fmt b.1 j = .absent then none
          else some ((matA ty fmt a c b.2).mul (matB ty fmt b.1 j))
        (ps = [] → Store.get 0 y.vals k = Store.get 0 x.vals k ∧ Store.get 0 y.counts k = Store.get 0 x.counts k)
        ∧ (ps ≠ [] → Store.get 0 y.vals k = matSum (Store.get 0 x.vals k) ps
            ∧ (Store.get 0 y.counts k).toNat = min ((Store.get 0 x.counts k).toNat + ps.length) 65535)

/-- R289: a row with good checksums and parity in which one bit of one value has flipped is repaired, and the finding names
the bit and the column; a row in which nothing has flipped is left alone. -/
def Sys2Proof.Claims.TileRepair : Prop :=
  ∀ (x : Tile) (r j b : Nat), x.sound → r < 64 → j < 32 → b < 32 → (∀ k ∈ x.badPar, k / 32 ≠ r) →
    let y := { x with vals := Store.set 0 x.vals (32 * r + j) (Store.get 0 x.vals (32 * r + j) ^^^ BitVec.ofNat 32 (2 ^ b)) }
    x.checkRow r = (x, ⟨0, 0, 0⟩) ∧ (y.checkRow r).2 = ⟨1, b, j⟩
    ∧ (∀ k, Store.get 0 (y.checkRow r).1.vals k = Store.get 0 x.vals k) ∧ (y.checkRow r).1.cx = x.cx
    ∧ (y.checkRow r).1.cr = x.cr ∧ (y.checkRow r).1.counts = x.counts ∧ (y.checkRow r).1.poison = x.poison

/-- R273, R274, R281, R289: the accumulator tiles. -/
def Obligations.AccumulatorTiles : Prop := Claims.MatrixStepOnTile ∧ Claims.TileRepair

namespace Sys2Proof.Machine

/-- Command c is at the front of the sequencer of a quarter, and no other has its number. -/
def State.front (s : State) (gq : Nat) (c : MatCmd) : Prop :=
  (s.sequencer gq).head? = some c ∧ ∀ d ∈ (s.sequencer gq).tail, ¬ (d.team = c.team ∧ d.op = c.op)

end Sys2Proof.Machine

/-- R280, R281, R284: the sequencer starts its front command when what comes before has been performed: an `mma` takes
its A operand, from the latch where that names it; then one step after another, each with the k-rows of B at its
address. That the latch is compared under the resolved type is the reading of the model (log entry 33). -/
def Sys2Proof.Claims.MatrixCommandsRun : Prop :=
  ∀ (s : State) (c : MatCmd), s.front s.unit c → c.crewN = none →
    let t := s.teamAt c.team
    let i := 16 * s.unit + c.tileNo
    let a := c.addrB c.step
    let keys := State.keysB (s.unit / 4) a c.ty
    (c.started = false → s.replaying s.unit = false → s.commandWaits c = none → ∃ s' x, exec .matrixCommandStart s = .next s'
      ∧ s'.frontCmd s.unit = some { c with started := true, opnd := x } ∧ s'.mem = s.mem ∧ s'.tiles = s.tiles
      ∧ (∀ id, id ≠ c.team → s'.teamAt id = s.teamAt id) ∧ s'.teamAt c.team = { t with latch := (s'.teamAt c.team).latch }
      ∧ (c.kind ≠ .mma → x = none)
      ∧ (c.kind = .mma → t.latch.valid = true → t.latch.a = c.f.a → t.latch.b = c.f.b → t.latch.ty = BitVec.ofNat 4 c.ty →
          x = some t.latch)
      ∧ (c.kind = .mma → t.latch.valid = false → ∃ l, x = some l ∧ l.valid = true
          ∧ ∀ k, k < 64 → k < t.lanes → Store.get 0 l.vals k = c.elemAt t s.free s.cycle c.f.a.toNat k)
      ∧ (s'.teamAt c.team).latch = if c.f.reuse = 1#1 then x.getD t.latch else {})
    ∧ (c.started = true → c.step < c.steps → s.replaying s.unit = false →
        (∀ l ∈ s.transferLines ++ s.commandLines [s.unit], l.born < c.born → ∀ k ∈ keys, lineOf k ≠ l.line) →
        keys.any s.poisoned = false →
        ∃ s' rows, exec .matrixStep s = .next s' ∧ s'.frontCmd s.unit = some { c with step := c.step + 1 }
          ∧ s'.tile i = (s.tile i).matStep c.ty c.fmt rows (s.readB (s.unit / 4) a c.ty)
          ∧ (∀ k, k ≠ i → s'.tile k = s.tile k) ∧ s'.mem = s.mem ∧ s'.teams = s.teams
          ∧ rows.map Prod.fst = (List.range 64).filter fun r => c.rows.getLsbD r)

/-- R275, R286, R290: the last write of a command releases its token and takes the command out of the sequencer; an `mmzero`
leaves the tile as a fresh grant has it. -/
def Sys2Proof.Claims.MatrixCommandsEnd : Prop :=
  ∀ (s : State) (c : MatCmd) (p : Pend), s.front s.unit c → c.started = true → c.steps ≤ c.step → c.late = none →
    s.replaying s.unit = false →
    let t := s.teamAt c.team
    t.op? c.op = some p → t.firstInLine p = true → p.scalar = none →
    c.kind = .mma ∨ c.kind = .mmloop ∨ c.kind = .mmzero →
    ∃ s', exec .matrixCommandComplete s = .next s' ∧ (s'.teamAt c.team).op? c.op = none
      ∧ (∀ k, p.tok = some k → p.inFrame = false →
          ((s'.teamAt c.team).token k).count = (t.token k).count - 1
          ∧ ((s'.teamAt c.team).token k).cancel = ((t.token k).cancel || p.cancel))
      ∧ (s'.sequencer s.unit).map (fun d => (d.team, d.op)) = (s.sequencer s.unit).tail.map (fun d => (d.team, d.op))
      ∧ s'.mem = s.mem ∧ (∀ id, id ≠ c.team → s'.teamAt id = s.teamAt id) ∧ (s'.teamAt c.team).v = t.v
      ∧ (c.kind = .mmzero → s'.tile (16 * s.unit + c.tileNo) = {})
      ∧ ∀ k, c.kind ≠ .mmzero ∨ k ≠ 16 * s.unit + c.tileNo → s'.tile k = s.tile k

/-- R291: a crewed command at the front arrives; the operation starts with the last arrival, when the members agree, and
until then changes nothing but that. -/
def Sys2Proof.Claims.CrewArrivals : Prop :=
  ∀ (s : State) (c : MatCmd) (n : Nat), s.front s.unit c → c.crewN = some n → c.arrived = false → s.commandWaits c = none →
    (∀ x ∈ s.crewCmdsOf c.team n, s.replaying x.1 = false) →
    ((∃ m ∈ s.crewOf c.team, m ≠ c.team ∧
        ∀ d ∈ s.sequencer (s.teamAt m).gq, d.team = m → d.crewN = some n → d.arrived = false) →
      (s.crewOf c.team).Nodup →
      (∀ m ∈ s.crewOf c.team, ((s.sequencer (s.teamAt m).gq).filter fun d => d.team == m && d.crewN == some n).length ≤ 1) →
      exec .crewArrival s = .next (s.setCmd s.unit { c with arrived := true }))
    ∧ (s.crewOf c.team = [c.team] → (s.teamAt c.team).gq = s.unit →
        ((s.sequencer s.unit).filter fun d => d.team == c.team && d.crewN == some n) = [c] →
        ∃ s' x, exec .crewArrival s = .next s'
            ∧ s'.frontCmd s.unit = some { c with arrived := true, started := true, opnd := x }
          ∧ s'.mem = s.mem ∧ s'.tiles = s.tiles)

/-- R275 to R291: the matrix sequencer. That the latch is compared under the resolved type is the reading of the model
(log entry 33). -/
def Obligations.MatrixSequencer : Prop :=
  Claims.MatrixCommandsRun ∧ Claims.MatrixCommandsEnd ∧ Claims.CrewArrivals

/-! ### What the memory system does on its own -/

namespace Sys2Proof.Machine

/-- The results of an operation stand in the team's registers, but for bits that it does not write, and in its masks, and
nothing else of those has changed. -/
def Delivered (t u : Team) (p : Pend) : Prop :=
  (∀ k x, (k, x) ∈ p.regs → ∀ j, j < 32 → (Store.get 0 u.v k : Lane32).getLsbD j
      = if (p.partOf k).all (fun m => m.getLsbD j) then x.getLsbD j else (Store.get 0 t.v k : Lane32).getLsbD j)
    ∧ (∀ k, k ∉ p.regs.map Prod.fst → Store.get 0 u.v k = Store.get 0 t.v k)
    ∧ (∀ k b, (k, b) ∈ p.masks → (Store.get 0 u.m (k / 1024) : Mask).getLsbD (k % 1024) = b)
    ∧ (∀ k, k ∉ p.masks.map Prod.fst →
        (Store.get 0 u.m (k / 1024) : Mask).getLsbD (k % 1024) = (Store.get 0 t.m (k / 1024) : Mask).getLsbD (k % 1024))
    ∧ u.op? p.id = none

/-- The token of an operation, if it is a live one, counts one down and takes its cancel flag. -/
def Released (t u : Team) (p : Pend) (cancel : Bool) : Prop :=
  ∀ k, p.tok = some k → p.inFrame = false →
    (u.token k).count = (t.token k).count - 1 ∧ (u.token k).cancel = ((t.token k).cancel || cancel)

/-- The event that delivers an operation of a kind. -/
def deliveryOf : OpKind → Option Instr
  | .load => some .loadDelivery
  | .atomic => some .atomicReturn
  | .reduce => some .reductionComplete
  | .prefetch => some .prefetchFetchEnded
  | _ => none

end Sys2Proof.Machine

/-- R251, R257, R254, R296, R298, R299: a fixed-latency pass is written when its latency is over, and releases the token, with
its cancel flag, if it is the last; a load, an atomic, a reduction and a prefetch are delivered when their values are there; a
scalar atomic gives D the old value and lets the stream go on. -/
def Obligations.Deliveries : Prop :=
  ∀ (s : State) (p : Pend), (s.teamAt s.unit).op? s.item = some p → (p.regs.map Prod.fst).Nodup →
    (p.masks.map Prod.fst).Nodup →
    let t := s.teamAt s.unit
    let keeps (s' : State) : Prop := s'.mem = s.mem ∧ (∀ id, id ≠ s.unit → s'.teamAt id = s.teamAt id)
      ∧ (s'.teamAt s.unit).pc = t.pc ∧ (s'.teamAt s.unit).s = t.s ∧ (s'.teamAt s.unit).pstat = t.pstat
    (p.kind = .fixed → p.ready ≤ s.cycle → t.firstInLine p = true →
        ∃ s', exec .fixedLatencyWriteBack s = .next s' ∧ Delivered t (s'.teamAt s.unit) p ∧ keeps s'
          ∧ (p.last = true → Released t (s'.teamAt s.unit) p p.cancel) ∧ (p.last = false → (s'.teamAt s.unit).tok = t.tok))
    ∧ (∀ i, deliveryOf p.kind = some i → s.replaying t.gq = false → p.awaits = [] → t.firstInLine p = true →
        p.scalar = none → p.kills = [] →
        ∃ s', exec i s = .next s' ∧ Delivered t (s'.teamAt s.unit) p ∧ keeps s'
          ∧ Released t (s'.teamAt s.unit) p p.cancel)
    ∧ (∀ d x, p.kind = .atomic → s.replaying t.gq = false → p.awaits = [] → t.firstInLine p = true →
        p.scalar = some (d, some x) → d < 64 →
        ∃ s', exec .atomicReturn s = .next s' ∧ (s'.teamAt s.unit).pc = t.pc + 4 ∧ (s'.teamAt s.unit).op? p.id = none
          ∧ (∀ e, (s'.teamAt s.unit).reg e = if e = 0#6 then 0#64 else if e = BitVec.ofNat 6 d then x else t.reg e)
          ∧ s'.mem = s.mem ∧ ∀ id, id ≠ s.unit → s'.teamAt id = s.teamAt id)

namespace Sys2Proof.Machine

/-- The team whose queue an event looks at, and the write w of it that the event names. -/
def State.write? (s : State) : Option WriteOp := (s.teamAt s.unit).sdq.find? fun w => w.id == s.item

/-- The write has left, its home can be reached, nothing holds it there, and the team has no reduction buffered for its lines.
-/
def State.canPerform (s : State) (w : WriteOp) : Prop :=
  s.write? = some w ∧ w.departed = true ∧ (w.fabric.isSome && w.keys.any s.unreachable) = false
    ∧ s.atUnit.writeHeld w = false ∧ w.keys.any (s.bufferedFor s.unit) = false

/-- Bytes at the places where memory keeps them: those of the window lie at their home (R451). -/
def State.atHomes (s : State) (bs : List (Nat × Byte)) : List (Nat × Byte) := bs.map fun b => (s.place b.1, b.2)

/-- Memory holds these bytes, and everywhere else what it held before. -/
def Wrote (s s' : State) (bs : List (Nat × Byte)) : Prop :=
  (∀ k b, (k, b) ∈ bs → s'.byte k = b) ∧ ∀ k, k ∉ bs.map Prod.fst → s'.byte k = s.byte k

/-- The bytes of a number of n bytes at a key. -/
def bytesAt (k n x : Nat) : List (Nat × Byte) := (List.range n).map fun i => (k + i, BitVec.ofNat 8 (x / 256 ^ i))

end Sys2Proof.Machine

/-- R122: the oldest write of a team that is still queued leaves when it is 64 cycles old; a release leaves only when
everything before it has been performed. -/
def Sys2Proof.Claims.WritesDepart : Prop :=
  ∀ (s : State) (w : WriteOp) (before after : List WriteOp),
    let t := s.teamAt s.unit
    t.sdq = before ++ w :: after → (∀ x ∈ before, x.departed = true) → w.departed = false →
    (∀ x ∈ before ++ after, x.id ≠ w.id) → w.homeBound = true →
    (s.cycle < w.born + 64 → exec .storeDelayDeparture s = .next s.atUnit)
    ∧ (w.born + 64 ≤ s.cycle → w.fabric = none → (w.release = none ∨ (before = [] ∧ s.contributed s.unit = false
          ∧ s.atUnit.cardsPending t = false)) →
        exec .storeDelayDeparture s
          = .next { s.atUnit.setTeam { t with
              sdq := before ++ { w with departed := true, sent := s.nextId, tick := s.ticks } :: after } with
            nextId := s.nextId + 1 })
    ∧ (w.born + 64 ≤ s.cycle → w.release ≠ none → before ≠ [] → exec .storeDelayDeparture s = .next s.atUnit)

/-- R5, R103, R122, R177: what a write does at its home: plain bytes, the read-modify-write of an atomic, whose old
value goes to its operation, and of a reduction; no other byte of memory changes, and the entry leaves the queue; a
write to a home that can no longer be reached (R454) is lost, and FABRIC pends. (Plain bytes that answer a revocation
request do more, R390: here the tenant has none that waits for its reply.) That a reduction to an S-address leaves the
queue like a store is the choice of the model (log entry 69). -/
def Sys2Proof.Claims.WritesPerformed : Prop :=
  ∀ (s : State) (w : WriteOp), (∀ x ∈ (s.teamAt s.unit).sdq, x.id = w.id → x = w) →
    let spot (o : Rmw) : Prop := ((keysFrom o.key o.size).map s.place).Nodup
    (∀ bs, s.canPerform w → w.what = .bytes bs → ((s.atHomes bs).map Prod.fst).Nodup →
        (∀ p ∈ (s.tenantAt (s.teamAt s.unit).pstat.tag.toNat).posted, p.reply.isSome = true) →
        ∃ s', exec .writePerformed s = .next s' ∧ Wrote s s' (s.atHomes bs)
          ∧ (∀ x ∈ (s'.teamAt s.unit).sdq, x.id ≠ w.id)
          ∧ (∀ x ∈ (s.teamAt s.unit).sdq, x.id ≠ w.id → x ∈ (s'.teamAt s.unit).sdq))
    ∧ (∀ o b, s.canPerform w → w.what = .reduction o b → b = false → o.mode.op ≠ .bin → spot o →
        (keysFrom o.key o.size).any s.poisoned = false →
        ∃ s', exec .writePerformed s = .next s'
          ∧ Wrote s s' (match o.apply (s.placeNat o.key o.size) with
              | some x => s.atHomes (bytesAt o.key o.size x) | none => [])
          ∧ ∀ x ∈ (s'.teamAt s.unit).sdq, x.id ≠ w.id)
    ∧ (∀ o p, s.canPerform w → w.what = .atomic o → spot o → (s.teamAt s.unit).op? w.op = some p → p.kind = .atomic →
        (keysFrom o.key o.size).any s.poisoned = false → (s.teamAt s.unit).park = none →
        let old := s.placeNat o.key o.size
        ∃ s' q, exec .writePerformed s = .next s'
          ∧ Wrote s s' (match o.apply old with | some x => s.atHomes (bytesAt o.key o.size x) | none => [])
          ∧ (s'.teamAt s.unit).op? w.op = some q ∧ (∀ x ∈ (s'.teamAt s.unit).sdq, x.id ≠ w.id)
          ∧ (∀ d v, p.scalar = some (d, v) → q.scalar = some (d, some (BitVec.ofNat 64 old)))
          ∧ (p.scalar = none → (∀ k ∈ q.awaits, k % 1024 ≠ o.lane) ∧ ∀ k ∈ p.awaits, k % 1024 ≠ o.lane → k ∈ q.awaits))
    ∧ (∀ bs addr, s.write? = some w → w.departed = true → w.what = .bytes bs → w.fabric = some addr →
        w.keys.any s.unreachable = true →
        ∃ s', exec .writePerformed s = .next s' ∧ (∀ k, k ∉ (s.atHomes bs).map Prod.fst → s'.byte k = s.byte k)
          ∧ (∀ x ∈ (s'.teamAt s.unit).sdq, x.id ≠ w.id) ∧ (cFabric, addr) ∈ (s'.teamAt s.unit).async)

/-- R120, R121: a reduction to a G-address enters the buffer of its core, or merges with the line that is there; a line that
has been sent is performed element by element, drawing with the arguments that the entry keeps of its last contributor. -/
def Sys2Proof.Claims.ReductionLines : Prop :=
  ∀ (s : State),
    (∀ (w : WriteOp) (o : Rmw) (rest : List WriteOp), (s.teamAt s.unit).sdq = w :: rest → w.departed = false →
      w.what = .reduction o true → w.born + 64 ≤ s.cycle → w.release = none → (∀ x ∈ rest, x.id ≠ w.id) →
      s.engineLines = [] →
      let core := (s.teamAt s.unit).core
      (s.redLine? core (lineOf o.key) = none → (s.redLines core).length < 256 →
        ∃ s' l, exec .storeDelayDeparture s = .next s' ∧ s'.redLines core = s.redLines core ++ [l] ∧ l.line = lineOf o.key
          ∧ l.elems = [o] ∧ l.mode = o.mode ∧ l.lane = o.lane ∧ l.teams = [s.unit] ∧ l.sent = false ∧ s'.mem = s.mem
              ∧ (s'.teamAt s.unit).sdq = rest)
      ∧ (∀ l, s.redLine? core (lineOf o.key) = some l → l.sent = false → l.mode.merges o.mode = true →
          (∀ e ∈ l.elems, e.key ≠ o.key) → (s.redLines core).countP (fun x => x.id == l.id) = 1 →
          ∃ s' l', exec .storeDelayDeparture s = .next s' ∧ l' ∈ s'.redLines core ∧ l'.id = l.id
            ∧ l'.elems = l.elems ++ [o] ∧ l'.mode = o.mode ∧ l'.lane = o.lane ∧ s.unit ∈ l'.teams ∧ s'.mem = s.mem
                ∧ (s'.teamAt s.unit).sdq = rest))
    ∧ (∀ l o, (s.redLines s.unit).find? (fun l => l.id == s.item) = some l → l.sent = true → l.elems = [o] →
        (keysFrom o.key o.size).any s.unreachable = false →
        (keysFrom o.key o.size).any onFabric = false → (keysFrom o.key o.size).any s.poisoned = false →
        ∃ s', exec .reductionLinePerformed s = .next s' ∧ (∀ x ∈ s'.redLines s.unit, x.id ≠ l.id)
          ∧ Wrote s s' (match { o with mode := l.mode, lane := l.lane }.apply (s.readNat o.key o.size) with
              | some x => bytesAt o.key o.size x | none => []))

/-- R95, R103, R120 to R122: the store-delay queue and the reduction buffer. That a reduction to an S-address leaves
the queue like a store is the choice of the model (log entry 69). -/
def Obligations.QueuedWrites : Prop := Claims.WritesDepart ∧ Claims.WritesPerformed ∧ Claims.ReductionLines

/-- R116, R117, R350, R351: an open postcard closes when its 64 mesh cycles are over and a place is free; a closed one is
applied at the subscriber in one step, and reaches no other byte. -/
def Obligations.Postcards : Prop :=
  ∀ (s : State),
    let p := s.post s.unit
    (∀ c, p.openCard = some c → c.opened + 128 ≤ s.ticks → s.closedCards (s.unit / 32) < 64 →
        ∃ s', exec .postcardClose s = .next s' ∧ (s'.post s.unit).openCard = none
          ∧ (s'.post s.unit).closed = p.closed ++ [c] ∧ (s'.post s.unit).cards = p.cards + 1
          ∧ (s'.post s.unit).state = p.state ∧ (∀ j, j ≠ s.unit → s'.post j = s.post j) ∧ s'.mem = s.mem ∧ s'.teams = s.teams)
    ∧ (∀ c, p.openCard = some c → s.ticks < c.opened + 128 → exec .postcardClose s = .next s)
    ∧ (∀ c rest, p.closed = c :: rest → (c.bytes.map Prod.fst).Nodup → s.engineLines = [] →
        ∃ s', exec .postcardApplication s = .next s' ∧ (s'.post s.unit).closed = rest
          ∧ Wrote s s' (c.bytes.map fun b => (2 ^ 52 + p.sub + b.1, b.2)) ∧ ∀ j, j ≠ s.unit → s'.post j = s.post j)

namespace Sys2Proof.Machine

/-- A scalar store of 64 bits to word w of a channel, or template slot, of the team's own core that passes R260. -/
def State.windowAccess (s : State) (a b : BitVec 6) (need : Nat) (w : WindowAt) : Prop :=
  let t := s.team
  let ea := (t.reg a + t.reg b).toNat
  ∃ keys, s.scalarCheck t true need ea 8 = { keys := keys } ∧ keys.any inWindow = true ∧ windowAt (keys.headD 0) = some w
    ∧ s.windowFault t ea 8 keys = none

end Sys2Proof.Machine

/-- R259 to R261, R333, R334: the words of channels and template slots, as scalar 64-bit accesses reach them; a go store whose
checks pass, with no binning lane instruction still queued (R112, R244), starts a transfer and takes a sequence number, and
one to a busy channel waits. -/
def Sys2Proof.Claims.ChannelWords : Prop :=
  ∀ (s : State) (d a b : BitVec 6) (w : WindowAt),
    let t := s.team
    let st : Instr := .stG d a b 0 0 3
    let ld : Instr := .ldG d a b 0 0 3
    let queued (x : WriteWhat) : Team := { t with
      sdq := t.sdq ++ [{ id := t.nextOp, what := x, born := s.cycle }], nextOp := t.nextOp + 1, pc := t.pc + 4 }
    (s.windowAccess a b 4 w → w.tmpl = false → w.word < 4 → Gives st s (queued (.arg w.unit w.word (t.reg d))))
    ∧ (s.windowAccess a b 4 w → w.tmpl = true → Gives st s (queued (.template w.unit w.word (t.reg d))))
    ∧ (s.windowAccess a b 4 w → w.tmpl = false → 5 ≤ w.word → Gives st s { t with pc := t.pc + 4 })
    ∧ (s.windowAccess a b 2 w → w.tmpl = false → w.word = 5 →
        Gives ld s (t.wrote d (packed [(32, 32, (s.channel w.unit).seq.toNat),
          (1, 1, if (s.channel w.unit).cancelled then 1 else 0), (0, 1, if (s.channel w.unit).busy then 1 else 0)]) 4))
    ∧ (s.windowAccess a b 4 w → w.tmpl = false → w.word = 4 → (s.channel w.unit).busy = true → exec st s = .next s)
    ∧ (s.windowAccess a b 4 w → w.tmpl = false → w.word = 4 → (s.channel w.unit).busy = false → (t.reg d).toNat < 1024 →
        t.binsAhead true [] = false →
        s.goFault t (t.reg a + t.reg b) w.unit (1024 * w.core + (t.reg d).toNat) = none →
        ∃ s' r, exec st s = .next s' ∧ s'.team = { queued (.go w.unit (t.reg d)) with seqctr := t.seqctr + 1 }
          ∧ s'.mem = s.mem ∧ (s'.channel w.unit).busy = true ∧ (s'.channel w.unit).seq = t.seqctr
          ∧ (s'.channel w.unit).cancelled = false ∧ (s'.channel w.unit).run = some r ∧ r.team = s.cur ∧ r.armed = false
          ∧ r.started = false ∧ r.count = (s.argWord t w.unit 2).toNat ∧ ∀ j, j ≠ w.unit → s'.channel j = s.channel j)

/-- R261, R336, R342, R343: a transfer starts once its go store has left the queue; each destination line is written whole,
its bytes are counted at the stile, and with the last line the channel is free. -/
def Sys2Proof.Claims.FerryTransfers : Prop :=
  ∀ (s : State) (r : Transfer), (s.channel s.unit).run = some r →
    (r.armed = true → r.started = false → s.tampers = [] →
        ∃ s' r', exec .ferryGo s = .next s' ∧ (s'.channel s.unit).run = some r' ∧ r'.started = true ∧ r'.lines = r.lines
          ∧ (s'.channel s.unit).busy = (s.channel s.unit).busy ∧ s'.mem = s.mem ∧ s'.teams = s.teams)
    ∧ (∀ n, r.started = true → r.lines.find? (fun l => l.1 == s.item) = some (s.item, n) → s.fabricHold = false →
        let r' := (r.unread s.item).foldl (fun r sec => r.read s sec) r
        let bs := s.atHomes (r'.lineBytes s.free s.item).1
        (r'.lineBytes s.free s.item).2 = [] → s.lineFails s.item (r.unread s.item) = false → s.lineHeld r s.item = false →
        s.forwarderFull ((r'.lineBytes s.free s.item).1.map Prod.fst ++ keysFrom r.stile 16) = false → (bs.map Prod.fst).Nodup →
        (∀ b ∈ bs, ∀ i, i < 16 → b.1 ≠ r.stile + i) → s.tampers = [] →
        ∃ s', exec .ferryLinePerformed s = .next s' ∧ (∀ k b, (k, b) ∈ bs → s'.byte k = b)
          ∧ (∀ k, k ∉ bs.map Prod.fst → (∀ i, i < 16 → k ≠ r.stile + i) → s'.byte k = s.byte k)
          ∧ ((s'.channel s.unit).busy = false ↔ (∀ l ∈ r.lines, l.1 = s.item) ∨ (s.channel s.unit).busy = false)
          ∧ ((s.bankCause r.tag r.world (bankOf (r.stile - 2 ^ 52))) = none → n ≤ (s.stile r.stile).ptrans →
              0 < (s.stile r.stile).parr → (s'.stile r.stile).ptrans = (s.stile r.stile).ptrans - n))

/-- R259 to R261, R333 to R343: the Ferry. -/
def Obligations.Ferry : Prop := Claims.ChannelWords ∧ Claims.FerryTransfers

/-! ### Queues and launch -/

/-- R195, R375, R377: SUBMIT by a function that reaches the queue gives the submission the next number and a status,
which is stored in the response ring; an accepted grid stands at the end of the queue. Status 3 of a misaligned SUBMIT
and of a packet, and the time of a round, are readings of the model (log entries 44 and 45). -/
def Sys2Proof.Claims.Submissions : Prop :=
  ∀ (s : State) (fn : Fn) (n : Nat) (addr : Word), n < 8192 → s.exposes fn = true → (s.queueAt n).reachedBy fn = true →
    let q := s.queueAt n
    let x : Desc := if addr.toNat % 64 = 0 then s.descAt (hostKey addr.toNat) else ⟨[]⟩
    let status := if q.en = false then 2 else if s.descOk n x false = false then 3 else if 256 ≤ q.pend then 1 else 0
    let no := (q.subno + 1).toNat
    ∃ s', exec (.submit fn n addr) s = .next s' ∧ (s'.queueAt n).subno = q.subno + 1
      ∧ s'.readNat (hostKey (q.resp.toNat / 64 * 64 + 8 * (no % 64))) 8 = no * 2 ^ 32 + status
      ∧ (∀ k, k < hostKey (q.resp.toNat / 64 * 64 + 8 * (no % 64)) ∨ hostKey (q.resp.toNat / 64 * 64 + 8 * (no % 64)) + 8 ≤ k →
          s'.byte k = s.byte k)
      ∧ (status = 0 → (s'.queueAt n).work = q.work ++ [{ grid := s.nextId }] ∧ (s'.gridAt s.nextId).words = x.words)
      ∧ (status ≠ 0 → (s'.queueAt n).work = q.work ∧ s'.grids = s.grids)

namespace Sys2Proof.Machine

/-- The header of a launch packet as a number, and the descriptor that its payload holds, when its length is right (R378). -/
def packetHead (frame : List Byte) : Nat := leNat ((frame.drop 14).take 16)
def packetDesc (frame : List Byte) : Desc :=
  let body := frame.drop 30
  let x : Desc := ⟨(List.range (body.length / 8)).map fun i => BitVec.ofNat 64 (leNat ((body.drop (8 * i)).take 8))⟩
  if packetHead frame / 2 ^ 48 % 2 ^ 16 = body.length ∧ body.length = 0xC0 + 24 * x.npin then x else ⟨[]⟩

end Sys2Proof.Machine

/-- R375, R377, R378: a frame of another EtherType is no launch packet. One whose reserved bits are not 0, that comes
in on a port for which its peer is not the authenticated one, or that no entry of the launch table admits gets status
4 and changes nothing else. Every other one is a submission to the queue of its header: it takes the next number, its
status is stored in the response ring and answered with the packet's cookie, and an accepted grid stands at the end of
the queue. Which status answers a malformed header or packet is the reading of the model (log entry 44). -/
def Sys2Proof.Claims.LaunchPackets : Prop :=
  ∀ (s : State) (frame : List Byte),
    let h := packetHead frame
    let peer := h % 2 ^ 20
    let n := h / 2 ^ 32 % 2 ^ 13
    let cookie := BitVec.ofNat 64 (h / 2 ^ 64)
    let ours := (frame.drop 12).take 2 = [0x88#8, 0xB5#8]
    let ok := h / 2 ^ 20 % 2 ^ 12 = 0 ∧ h / 2 ^ 45 % 2 ^ 3 = 0 ∧ (s.unit, peer) ∈ s.ports ∧ s.admits peer n = true
    let q := s.queueAt n
    let x := packetDesc frame
    let status := if (s.queueAt (if x.words = [] then n else x.queue)).en = false then 2 else if s.descOk n x true = false then 3
      else if 256 ≤ q.pend then 1 else 0
    let no := (q.subno + 1).toNat
    let slot := hostKey (q.resp.toNat / 64 * 64 + 8 * (no % 64))
    (¬ ours → exec (.launchPacket frame) s = .next s)
    ∧ (ours → ¬ ok → exec (.launchPacket frame) s = .next { s with replies := s.replies ++ [(cookie, 4)] })
    ∧ (ours → ok → ∃ s', exec (.launchPacket frame) s = .next s' ∧ s'.replies = s.replies ++ [(cookie, status)]
        ∧ (s'.queueAt n).subno = q.subno + 1 ∧ s'.readNat slot 8 = no * 2 ^ 32 + status
        ∧ (∀ k, k < slot ∨ slot + 8 ≤ k → s'.byte k = s.byte k)
        ∧ (status = 0 → (s'.queueAt n).work = q.work ++ [{ grid := s.nextId }] ∧ (s'.gridAt s.nextId).words = x.words)
        ∧ (status ≠ 0 → (s'.queueAt n).work = q.work ∧ s'.grids = s.grids))

/-- R379, R380: enabling a queue starts its period; a period that is over starts the next one; both make a round due;
a budget that is used up is counted and reported once in a period. When a round runs and the fields of the overrun
record are readings of the model (log entry 45). -/
def Sys2Proof.Claims.QueueTimes : Prop :=
  ∀ (s : State) (fn : Fn) (n : Nat),
    let q := s.queueAt n
    let p := s.queueAt s.unit
    (n < 8192 → (∀ v, fn ≠ .vf v) → q.en = false →
      exec (.queueEnable fn n) s = .next { s.putQueue n { q with
        en := true, deadl := BitVec.ofNat 64 (s.now + q.period.toNat), used := 0, overrun := false } with roundDue := true })
    ∧ (p.deadl ≠ 0 → p.deadl.toNat ≤ s.now →
        exec .queuePeriodExpiry s = .next { s.putQueue s.unit { p with
          deadl := p.deadl + p.period.zeroExtend 64, used := 0, overrun := false } with roundDue := true })
    ∧ (p.budget ≠ 0 → p.budget.toNat ≤ p.used → p.overrun = false → (s.escHead - s.escTail).toNat ≠ 64 →
        ∃ s', exec .budgetOverrun s = .next s' ∧ (s'.queueAt s.unit).overrun = true
          ∧ (s'.queueAt s.unit).ovr.toNat = min (p.ovr.toNat + 1) (2 ^ 16 - 1) ∧ (s'.queueAt s.unit).used = p.used
          ∧ s'.escHead = s.escHead + 1
          ∧ s'.readNat (s.escBase.toNat + 64 * (s.escHead.toNat % 64)) 8 = p.tag.toNat * 2 ^ 16 + 0xFFF
          ∧ s'.readNat (s.escBase.toNat + 64 * (s.escHead.toNat % 64) + 8) 8 = 0x13)

/-- R380: in a round that is due a queue places its head where it fits, and the head leaves the queue when its last group has
been placed; a head that does not fit is blocked from then on, and reserves a region in the first round after its age has
reached AGE, which makes a round due. With no round due nothing happens. -/
def Sys2Proof.Claims.Rounds : Prop :=
  ∀ (s : State) (n : Nat) (q : Queue) (h : Work), s.queues = [(n, q)] → q.mayPlace = true → q.work = [h] → h.saved = false →
    let r := s.gridAt h.grid
    let s₀ : State := { s with roundDue := false }
    (Desc.mk r.words).gang = 0 →
    (∀ s₁ c, s.roundDue = true → s₀.placeGroup h.grid q.coreList = some (s₁, c) → r.placed + 1 = r.ngroups →
        ∃ s', exec .dispatcherRound s = .next s' ∧ (s'.queueAt n).work = [] ∧ s'.teams = s₁.teams ∧ s'.groups = s₁.groups
          ∧ s'.roundDue = s₁.roundDue ∧ c ∈ q.coreList)
    ∧ (s.roundDue = true → s₀.placeGroup h.grid q.coreList = none → h.since = none → h.reserve = none → 1 ≤ q.age.toNat →
        ∃ s', exec .dispatcherRound s = .next s' ∧ (s'.queueAt n).work = [{ h with since := some s.now }]
          ∧ s'.teams = s.teams ∧ s'.groups = s.groups ∧ s'.mem = s.mem)
    ∧ (∀ t, s.roundDue = true → s₀.placeGroup h.grid q.coreList = none → h.since = some t → h.reserve = none →
        q.age.toNat ≤ s.now - t → s.now - t < 2 * q.age.toNat →
        ∃ s', exec .dispatcherRound s = .next s' ∧ (s'.queueAt n).work = [{ h with reserve := s₀.bestRegion n }]
          ∧ s'.teams = s.teams ∧ s'.groups = s.groups)
    ∧ (∀ t, h.since = some t → h.aged = 0 → q.age.toNat ≤ s.now - t → s.now - t < 2 * q.age.toNat → s.unit = n →
        exec .headAgeExpiry s = .next { s.putQueue n { q with work := [{ h with aged := 1 }] } with roundDue := true })
    ∧ (s.roundDue = false → exec .dispatcherRound s = .next s)

/-- R374 to R380: queues, submissions and the dispatcher's rounds. Log entries 44 (status of malformed submissions)
and 45 (when a round runs, the overrun record) are readings of the model. -/
def Obligations.QueuesAndRounds : Prop :=
  Claims.Submissions ∧ Claims.LaunchPackets ∧ Claims.QueueTimes ∧ Claims.Rounds

/-- R18, R20, R22, R309, R310: the state in which a team of a group starts: its entry point, its argument block, the eight
argument registers, its formats; every other register, mask, token and slot is zero, and its live lanes are those inside
the grid. -/
def Obligations.TeamAtLaunch : Prop :=
  ∀ (s : State) (grid core i : Nat) (qs : List Nat),
    let r := s.gridAt grid
    let x : Desc := ⟨r.words⟩
    let id := s.nextId + 1 + i
    let t := (s.startGroup grid core qs).teamAt id
    i < x.nteam → qs.length = x.nteam → s.traces core r.tag 7 = false → x.nwarp ≤ 32 →
    t.life = .resident ∧ t.pc = x.words.getD 5 0 ∧ t.fmt = x.words.getD 9 0 ∧ t.srseed = x.words.getD 10 0 ∧ t.srctr = 0
      ∧ t.seqctr = 0 ∧ t.group = s.nextId ∧ t.core = core ∧ t.index = i ∧ qs[i]? = some t.quarter
      ∧ t.pstat = { tag := r.tag, world := r.world, pl := BitVec.ofNat 2 x.pl, chk := x.chk }
      ∧ (∀ e : BitVec 6, t.reg e = if e = 2#6 then BitVec.ofNat 64 (x.w 12 + (x.nteam * r.placed + i) * x.w 13)
          else if 3 ≤ e.toNat ∧ e.toNat ≤ 10 then x.words.getD (11 + e.toNat) 0 else 0)
      ∧ (∀ n, t.mask (n + 1) = 0) ∧ (∀ k, t.token k = {}) ∧ (∀ n, t.stream n = {}) ∧ t.v = [] ∧ t.laneq = [] ∧ t.sdq = []
      ∧ t.frame = none ∧ t.latch.valid = false
      ∧ (∀ l, l < 1024 → (t.mask 0).getLsbD l
          = decide (l < 32 * x.nwarp ∧ x.perGroup * r.placed + 32 * x.nwarp * i + l < x.lanes))

/-! ### Saves and escalations -/

namespace Sys2Proof.Machine

/-- The state of a team that a rucksack of R398 can hold: its lane registers within its allocation, its tokens below 64, no
latch, no index beyond 32 bits. -/
def Team.savable (t : Team) : Prop :=
  1 ≤ t.nwarp ∧ t.nwarp ≤ 32 ∧ 128 * (8 * t.nvreg) * t.nwarp ≤ 2 ^ 19 ∧ t.latch.valid = false
      ∧ (∀ i, t.lidx = some i → i < 0xFFFFFFFF)
    ∧ Store.wf 0 t.v = true ∧ (∀ p ∈ t.v, p.1 / 1024 < 8 * t.nvreg ∧ p.1 % 1024 < 32 * t.nwarp)
    ∧ (∀ k, (t.token k).count < 64)

end Sys2Proof.Machine

/-- R398, R399, R401: what a save writes to the rucksack is what a restore loads: the registers, the masks, the
tokens, the slots, the control registers, the flags but P, and the point at which the team goes on. A team whose `mma`
latch is valid is left out. -/
def Obligations.SaveThenRestore : Prop :=
  ∀ (s : State) (t old : Team) (base kind : Nat), t.savable → old.nwarp = t.nwarp → old.nvreg = t.nvreg → kind < 256 →
    let u := (s.writeRange base (2 ^ 20) (t.items kind false ++ t.regItems)).unpack old base
    u.pc = t.pc ∧ u.lidx = t.lidx ∧ u.seqctr = t.seqctr ∧ u.pstat = { t.pstat with p := false } ∧ u.fmt = t.fmt
      ∧ u.srseed = t.srseed ∧ u.srctr = t.srctr ∧ u.histbase = t.histbase ∧ u.yieldpc = t.yieldpc ∧ u.killed = t.killed
      ∧ (∀ e, u.reg e = t.reg e) ∧ (∀ n, n < 15 → Store.get 0 u.m (n + 1) = (Store.get 0 t.m (n + 1) : Mask))
      ∧ (∀ k, k < 16 → u.token k = t.token k) ∧ (∀ n, n < 4 → u.stream n = t.stream n)
      ∧ (∀ k, Store.get 0 u.v k = (Store.get 0 t.v k : Lane32))
      ∧ u.trapcause = t.trapcause ∧ u.trappc = t.trappc ∧ u.trapseq = t.trapseq ∧ u.traplidx = t.traplidx
      ∧ u.trapval = t.trapval ∧ (t.pstat.inh = false → u.frame = none)

/-- R316, R399, R405, R446: YIELD_CYCLES that run out ask for a forced save, or count once more for a team in a handler; the
save stops the team at its point, discards what has not issued, and, when everything has drained and 64 cycles more have
passed without a replay, writes the rucksack. A halt that a debugger has asked for comes before a forced save (R404). -/
def Sys2Proof.Claims.Saves : Prop :=
  ∀ (s : State),
    let t := s.teamAt s.unit
    (∀ d, t.deadline = some d → d ≤ s.cycle → t.trapReq = none → t.haltReq = false → t.bpHalt = false → t.saveReq = none →
      (t.pstat.inh = false ∨ t.restarted = true →
        exec .yieldDeadline s = .next (s.atUnit.setTeam { t with deadline := none, saveReq := some 2 }))
      ∧ (t.pstat.inh = true → t.restarted = false →
        exec .yieldDeadline s = .next (s.atUnit.setTeam { t with
          deadline := some (s.cycle + (s.queueOf t).yields.toNat), restarted := true })))
    ∧ (∀ kind, t.saveReq = some kind → kind ≠ 2 → t.life = .resident → t.saveStopped = false → t.trapReq = none →
        t.escTrap = none → t.scalarPending = false → t.pastPoint = false → t.laneq = [] →
        (∀ c ∈ s.sequencer t.gq, c.team = s.unit → c.started = true) →
        ∃ s' u, exec .teamSave s = .next s' ∧ s'.teamAt s.unit = u ∧ u.saveStopped = true ∧ u.pc = t.pc ∧ u.lidx = t.lidx
          ∧ u.seqctr = t.seqctr ∧ u.srctr = t.srctr ∧ u.s = t.s ∧ u.v = t.v ∧ u.m = t.m ∧ u.pstat = t.pstat ∧ u.tok = t.tok
          ∧ s'.mem = s.mem)
    ∧ (t.saveReq = some 2 → t.life = .resident → t.halted = false → t.esc = none → t.saveStopped = false → t.haltHere = true →
        exec .teamSave s = .next (s.atUnit.setTeam t.halt))
    ∧ (∀ kind, t.saveReq = some kind → t.life = .resident → t.saveStopped = true → (t.pend ≠ [] ∨ t.sdq ≠ []) →
        exec .teamSave s = .next s.atUnit)
    ∧ (∀ kind, t.saveReq = some kind → kind ≠ 0 → t.life = .resident → t.saveStopped = true → t.pend = [] → t.sdq = [] →
        (kind = 2 → t.halted = false ∧ t.esc = none) → s.replaying t.gq = false →
        (t.drainedAt = none → exec .teamSave s = .next (s.atUnit.setTeam { t with drainedAt := some s.cycle }))
        ∧ (∀ c, t.drainedAt = some c → s.cycle < c + 64 → exec .teamSave s = .next s.atUnit))
    ∧ (∀ kind c, t.saveReq = some kind → kind ≠ 0 → t.life = .resident → t.saveStopped = true → t.pend = [] → t.sdq = [] →
        t.drainedAt = some c → c + 64 ≤ s.cycle → s.replaying t.gq = false →
        (kind = 2 → t.halted = false ∧ t.esc = none) → t.savable → s.traces t.core t.pstat.tag 5 = false →
        let base := s.sackAt s.unit
        ∃ s', exec .teamSave s = .next s' ∧ (s'.teamAt s.unit).life = .saved ∧ (s'.teamAt s.unit).pstat.p = false
          ∧ s'.readNat (base + 8) 8 = t.pc.toNat ∧ s'.readNat (base + 0x20) 8 = t.fmt.toNat
          ∧ (∀ n : BitVec 6, s'.readNat (base + 0x200 + 8 * n.toNat) 8 = (t.reg n).toNat)
          ∧ ((s.groupAt t.group).tilemask = 0 → ∀ k, k < base ∨ base + 2 ^ 20 ≤ k → s'.byte k = s.byte k))

/-- R304, R307, R396, R397: a trap that was held enters its handler when nothing holds it any longer; an escalated team's
record is written once, and management ends, resumes or saves the team. A team that it ends exits when what is in flight has
completed. -/
def Sys2Proof.Claims.Escalations : Prop :=
  ∀ (s : State) (r : TrapReq),
    let t := s.teamAt s.unit
    let a := s.escBase.toNat + 64 * (s.escHead.toNat % 64)
    (t.trapReq = some r → s.atUnit.canEnter →
      exec .trapEntry s = .next (s.atUnit.setTeam (t.inHandler (s.groupAt t.group).handler r)))
    ∧ (∀ c, t.esc = some c → t.escTrap = some r → t.escDone = false → t.trapReq = none → c < 256 → t.core < 64 →
        t.quarter < 4 → t.slot < 16 → (s.escHead - s.escTail).toNat ≠ 64 → (∀ j, j < 64 → onFabric (a + j) = false) →
        ∃ s', exec .escalation s = .next s' ∧ s'.escHead = s.escHead + 1 ∧ (s'.teamAt s.unit).escDone = true
          ∧ (s'.teamAt s.unit).runs = false
          ∧ s'.readNat a 8 = t.pstat.world.toNat * 2 ^ 32 + t.pstat.tag.toNat * 2 ^ 16 + t.core * 64 + t.quarter * 16 + t.slot
          ∧ s'.readNat (a + 8) 8 = c + (if r.sw then 256 else 0) ∧ s'.readNat (a + 16) 8 = r.val.toNat
          ∧ s'.readNat (a + 24) 8 = r.pc.toNat ∧ s'.readNat (a + 32) 8 = r.seq.toNat * 2 ^ 32 + r.lidx.toNat)
    ∧ (t.escalated = true → s.sequencer t.gq = [] →
        (t.pend = [] → t.sdq = [] → ∃ s', exec .escalationEnd s = .next s' ∧ (s'.teamAt s.unit).life = .exited)
        ∧ ((t.pend ≠ [] ∨ t.sdq ≠ []) → exec .escalationEnd s = .next (s.atUnit.setTeam { t with
            saveReq := some 0, saveStopped := true, laneq := [] })))
    ∧ (t.life = .resident → t.saveReq = some 0 → t.saveStopped = true → t.pend = [] → t.sdq = [] → s.replaying t.gq = false →
        ∃ s', exec .teamSave s = .next s' ∧ (s'.teamAt s.unit).life = .exited)
    ∧ (t.escalated = true →
        (exec .escalationSave s = .next (s.atUnit.setTeam { t with
          saveReq := some 5, frame := some (t.frame.getD t.noFrame), pstat := { t.pstat with inh := true } }))
        ∧ (t.escTrap = some r → ∃ s' u, exec .escalationResume s = .next s' ∧ s'.teamAt s.unit = u ∧ u.esc = none
            ∧ u.pstat = { t.pstat with inh := true } ∧ u.pc = (if r.sw then r.pc + 4 else r.pc) ∧ u.s = t.s ∧ u.v = t.v
            ∧ u.seqctr = r.seq ∧ u.srctr = r.srctr ∧ s'.mem = s.mem))

/-- R304, R316, R396 to R399, R405: saves and escalations. -/
def Obligations.SavesAndEscalations : Prop := Claims.Saves ∧ Claims.Escalations

/-! ### Grants and revocations -/

namespace Sys2Proof.Machine

/-- The parts of a resource word (R385). -/
def Word.kind (r : Word) : Nat := r.toNat / 2 ^ 60
def Word.idx (r : Word) : Nat := r.toNat % 2 ^ 60

end Sys2Proof.Machine

/-- R384, R386, R416: a grant of a resource that nothing holds writes its ownership entry, and the resource reads as granted:
a bank and a frame as zeros, a tile, a channel, a template slot and a translation slot cleared; a remote range has its BASE
and its GIB. What the abort engine has not finished with, a retired resource, a slot or tile of a retired quarter, a bank that
a group holds, and a frame of a rucksack are not granted (log entry 49: what a grant needs is read from these rules). -/
def Sys2Proof.Claims.Grants : Prop :=
  ∀ (s : State) (r : Word) (tag world : Nat) (shared : Bool),
    let k := Word.kind r
    let i := Word.idx r
    let o := s.owner k i
    let gone : Prop := (k = 3 ∧ Store.get false s.retired (i / 512) = true) ∨ (k = 4
        ∧ Store.get false s.retired (i / 16) = true)
      ∨ (k = 1 ∧ s.bankBusy i = true)
    (resourceOk k i = true → 1 ≤ k → k ≤ 7 → o.tag = 0 → o.retired = false → s.leaving k i = false → ¬ gone →
      (k = 2 → s.inSack i = false) → (k = 1 ∨ k = 2 ∨ k = 4 → (s.slotOf (BitVec.ofNat 8 world)).isSome) →
      ∃ s', exec (.resourceGrant r tag world shared) s = .next s'
      ∧ s'.owner k i = { tag := BitVec.ofNat 16 tag, world := BitVec.ofNat 8 world, shared := shared }
      ∧ (∀ k' i', i' < 2 ^ 60 → i < 2 ^ 60 → (k', i') ≠ (k, i) → k' < 16 → s'.owner k' i' = s.owner k' i')
      ∧ (k = 1 → ∀ n, n < 2 ^ 19 → s'.byte (2 ^ 52 + i * 2 ^ 19 + n) = 0)
      ∧ (k = 2 → (∀ n, n < 2 ^ 16 → s'.byte (i * 2 ^ 16 + n) = 0) ∧ Store.get false s'.flash.scrubbed i = false)
      ∧ (k = 3 → (Store.get {} s'.tlb i : TlbEntry) = {}) ∧ (k = 4 → s'.tile i = {}) ∧ (k = 5 → s'.channel i = {})
      ∧ (k = 6 → ∀ n, n < 8 → Store.get 0 s'.templates (8 * i + n) = 0#64)
      ∧ (3 ≤ k → s'.mem = s.mem) ∧ s'.teams = s.teams)
    ∧ (k = 8 → resourceOk 8 i = true → o.tag = 0 → o.retired = false → s.leaving 8 i = false →
      (Store.get 0 s.remotes (2 * i) : Word).getLsbD 0 = false →
      ∃ s', exec (.resourceGrant r tag world shared) s = .next s'
          ∧ Store.get 0 s'.remotes (2 * i) = packed [(30, 34, s.unit), (14, 16, s.item), (0, 1, 1)]
        ∧ Store.get 0 s'.remotes (2 * i + 1) = packed [(16, 16, tag), (8, 8, world)]
        ∧ (∀ n, n ≠ 2 * i → n ≠ 2 * i + 1 → (Store.get 0 s'.remotes n : Word) = Store.get 0 s.remotes n)
        ∧ s'.mem = s.mem ∧ s'.owners = s.owners ∧ s'.teams = s.teams)
    ∧ (o.tag ≠ 0 ∨ o.retired = true ∨ gone ∨ s.leaving k i = true ∨ (k = 2 ∧ s.inSack i = true) ∨ resourceOk k i = false →
        exec (.resourceGrant r tag world shared) s = .next s)

/-- R389, R390, R391: a request stands in its slot of the runtime page with its number, its deadline and its resources; the
mailbox stile takes an arrival (with no region published nothing holds it, R352), and the runtime team REVOKE. A reply takes
away what it gives up in the instant in which its store is performed, and without one the rest goes to the abort engine at the
deadline. The event of a reply carries on what is left of it. -/
def Sys2Proof.Claims.Requests : Prop :=
  ∀ (s : State) (tag : Nat) (req : RevocationRequest) (page : Nat),
    let t := s.tenantAt tag
    let u := s.tenantAt s.unit
    let id := t.lastReq + 1
    (1 ≤ req.resources.length → req.resources.length ≤ 6 → id < 2 ^ 32 →
        (∀ p ∈ t.posted, p.id % 16 = id % 16 → p.reply.isSome = true) → s.runtimePage tag = some page → page + 2 ^ 16 ≤ 2 ^ 50 →
        (∀ x ∈ s.teams, x.2.park = none) → (∀ n, s.runtimeTeam tag = some n → (s.teamAt n).life = .resident) →
        s.now + req.grace < 2 ^ 64 → s.now + 400000 < 2 ^ 64 →
        let slot := page + 64 * (id % 16)
        ∃ s', exec (.revocationRequest tag req) s = .next s'
          ∧ s'.tenantAt tag = { t with lastReq := id, posted := t.posted ++
              [{ id := id, resources := req.resources, reason := req.reason, deadline := s.now + max req.grace 400000 }] }
          ∧ (∀ n, s.runtimeTeam tag = some n → (s'.teamAt n).async = (s.teamAt n).async ++ [(0x0F, BitVec.ofNat 64 id)])
          ∧ s'.readNat slot 8 = id * 2 ^ 32 + req.resources.length ∧ s'.readNat (slot + 8) 8 = s.now + max req.grace 400000
          ∧ (∀ n r, req.resources[n]? = some r → s'.readNat (slot + 16 + 8 * n) 8 = r.toNat)
          ∧ ∀ f, sFlat (((s.runtimeTeam tag).map fun n => (s.teamAt n).core).getD 0) (s.readNat (page + 0x818) 4) = some f →
              f % 16 = 0 → (s.owner 1 (bankOf f)).tag.toNat = tag → s.posts = [] → s.stileWaits = [] →
              s'.stile (2 ^ 52 + f) = (s.arriveStile (2 ^ 52 + f) 0 0).stile (2 ^ 52 + f))
    ∧ (∀ (w : WriteOp) (p : Posted) (give : Nat), s.canPerform w → (∀ x ∈ (s.teamAt s.unit).sdq, x.id = w.id → x = w) →
        (s.teamAt s.unit).pstat.tag.toNat = tag → 1 ≤ tag → t.posted = [p] → p.reply = none → t.frame = some page →
        page + 2 ^ 16 ≤ 2 ^ 50 → s.now < p.deadline → p.id < 2 ^ 32 → give < 64 →
        w.what = .bytes (bytesAt (page + 0x400 + 64 * (p.id % 16)) 8 (p.id * 2 ^ 32 + give)) →
        ∃ s', exec .writePerformed s = .next s' ∧ (s'.tenantAt tag).posted = [{ p with reply := some give, replied := true }]
          ∧ ∀ n r, p.resources[n]? = some r → give.testBit n → 1 ≤ Word.kind r → Word.kind r ≤ 9 →
              (s.holder (Word.kind r) (Word.idx r)).1.toNat = tag → (s'.holder (Word.kind r) (Word.idx r)).1 = 0)
    ∧ (∀ p, u.posted.find? (fun p => p.reply.isSome && !p.replied) = some p → 1 ≤ s.unit → s.unit < 2 ^ 16 →
        (∀ r ∈ p.resources, 1 ≤ Word.kind r ∧ Word.kind r ≤ 9) →
        ∃ s', exec .revocationReply s = .next s' ∧ s'.mem = s.mem
          ∧ (∀ n r, p.resources[n]? = some r → (p.reply.getD 0).testBit n →
              (s.holder (Word.kind r) (Word.idx r)).1.toNat = s.unit → (s'.holder (Word.kind r) (Word.idx r)).1 = 0)
          ∧ ∀ k i, i < 2 ^ 60 → k < 16 → (∀ r ∈ p.resources, ¬ (Word.kind r = k ∧ Word.idx r = i)) → s'.owner k i = s.owner k i)
    ∧ ((∀ p ∈ u.posted, p.reply.isSome = true → p.replied = true) → s.records = [] → s.seizing = [] →
        exec .revocationReply s = .next s)
    ∧ (∀ p, u.posted.find? (fun p => decide (p.deadline ≤ s.now)) = some p → (p.reply.isSome = true → p.replied = true) →
        ∃ s', exec .revocationDeadline s = .next s' ∧ (s'.tenantAt s.unit).posted = u.posted.filter (fun x => x.id != p.id)
          ∧ s'.owners = s.owners ∧ s'.mem = s.mem
          ∧ s'.seizing.map (fun x => (x.resource, x.reqid, x.record)) = s.seizing.map (fun x => (x.resource, x.reqid, x.record))
              ++ (p.resources.filter fun r => (!p.given.contains r && (s.holder (Word.kind r) (Word.idx r)).1.toNat == s.unit)).map
                  fun r => (r, p.id, true))
    ∧ ((∀ p ∈ u.posted, s.now < p.deadline) → s.records = [] → s.seizing = [] → exec .revocationDeadline s = .next s)

/-- R384, R391 to R393: the abort engine takes one resource at a time: the one that management names, while it is idle, or the
next of those that wait. At its seizure instant, for a resource of any kind, the entry has no tag; every access checked
afterwards is refused as OWNER, and memory has not changed. A resource that has left its tag is skipped, but for the mark of
one that retires. When nothing that was checked before is under way, the engine is done with it and begins its record, of
which cause, request and seizure instant are shown for kinds without contents. A record that has begun stands whole, and then
HEAD counts one up. A postcard entry has two records, the first that of its tear-down, with its GEN (R353); that it keeps its
TAG when it is torn is the reading of log entry 72. -/
def Sys2Proof.Claims.Seizures : Prop :=
  ∀ (s : State) (r : Word) (reason reqid : Nat),
    let x : Seizure := s.seizing.headD { resource := r, cause := reason % 256, reqid := reqid % 2 ^ 32 }
    let k := Word.kind x.resource
    let i := Word.idx x.resource
    (s.records = [] → x.owner = none → 1 ≤ k → k ≤ 9 →
      ((s.holder k i).1 = 0 → x.cause ≠ 2 ∨ 8 ≤ k →
          exec (.resourceSeizure r reason reqid) s = .next { s with seizing := s.seizing.tail })
      ∧ ((s.holder k i).1 = 0 → x.cause = 2 → k ≤ 7 → ∃ s', exec (.resourceSeizure r reason reqid) s = .next s'
          ∧ s'.owner k i = { s.owner k i with retired := true } ∧ s'.mem = s.mem ∧ s'.seizing = s.seizing.tail)
      ∧ ((s.holder k i).1 ≠ 0 → ∃ s', exec (.resourceSeizure r reason reqid) s = .next s' ∧ (s'.holder k i).1 = 0
        ∧ (k ≤ 7 → (s'.owner k i).tag = 0 ∧ ((s'.owner k i).retired = true ↔ (s.owner k i).retired = true ∨ x.cause = 2))
        ∧ s'.mem = s.mem ∧ s'.seizing.map Seizure.resource = x.resource :: s.seizing.tail.map Seizure.resource
        ∧ (s'.seizing.map Seizure.owner).head? = some (some { s.owner k i with tag := (s.holder k i).1, world := (s.holder k i).2 })
        ∧ (k = 1 → ∀ tag world own lane ea, tag ≠ 0#16 → own < 48 → ea + 1 ≤ 2 ^ 25 * 48 → ea / 2 ^ 19 = i →
            worst (s'.checkS tag world own lane ea 1).fails = some ⟨0x06, lane, ea, ea⟩)
        ∧ (k = 9 → (s'.post i).state = 2 ∧ (s'.post i).tag = (s.post i).tag)))
    ∧ (∀ old, s.records = [] → s.seizing ≠ [] → x.owner = some old → (∀ t ∈ s.teams, t.2.sdq = []) → s.redbuf = [] →
        s.stileWaits = [] → x.wait = {} →
      ∃ s', exec (.resourceSeizure r reason reqid) s = .next s' ∧ s'.seizing = s.seizing.tail
        ∧ (∀ page, k = 9 → x.record = true → (s.post i).tag = old.tag → s.runtimePage old.tag.toNat = some page →
            page + 2 ^ 17 ≤ 2 ^ 50 →
            (s.readNat (page + 0x800) 8 + 2 ^ 32 - s.readNat (page + 0x808) 8 % 2 ^ 32) % 2 ^ 32 < 959 →
            ∃ c d, s'.records = [c, d] ∧ c.tag = old.tag.toNat ∧ d.tag = old.tag.toNat
              ∧ c.bits / 2 ^ 64 % 2 ^ 32 = 3 ∧ c.bits / 2 ^ 456 % 2 ^ 32 = (s.post i).gen.toNat
              ∧ (x.cause < 2 ^ 32 → d.bits / 2 ^ 64 % 2 ^ 32 = x.cause))
        ∧ ∀ page, k = 3 ∨ k = 7 → x.record = true → x.cause < 2 ^ 32 → x.reqid < 2 ^ 32 →
            s.runtimePage old.tag.toNat = some page →
            (s.readNat (page + 0x800) 8 + 2 ^ 32 - s.readNat (page + 0x808) 8 % 2 ^ 32) % 2 ^ 32 < 960 →
            ∃ c, s'.records = [c] ∧ c.tag = old.tag.toNat ∧ c.resource = x.resource.toNat
              ∧ c.bits % 2 ^ 64 = x.resource.toNat ∧ c.bits / 2 ^ 64 % 2 ^ 32 = x.cause ∧ c.bits / 2 ^ 96 % 2 ^ 32 = x.reqid
              ∧ c.bits / 2 ^ 128 % 2 ^ 64 = x.time % 2 ^ 64 ∧ c.bits / 2 ^ 192 % 2 ^ 64 = 2 ^ 64 - 1)
    ∧ (∀ c rest page, s.records = c :: rest → s.runtimePage c.tag = some page → page + 2 ^ 17 ≤ 2 ^ 50 →
        let head := s.readNat (page + 0x800) 8
        ∃ s', exec (.resourceSeizure r reason reqid) s = .next s' ∧ s'.records = rest
          ∧ s'.readNat (page + 0x800) 8 = (head + 1) % 2 ^ 32
          ∧ s'.readNat (page + 0x1000 + 64 * (head % 960)) 64 = c.bits % 2 ^ 512 ∧ s'.owners = s.owners)

/-- R384, R389 to R392: grants and revocations. -/
def Obligations.GrantsAndRevocations : Prop := Claims.Grants ∧ Claims.Requests ∧ Claims.Seizures

/-! ### Worlds, pages and boot -/

/-- R410, R412, R415: a key slot that holds no keys gets new ones; its keys are erased while nothing is assigned to
its world; GO starts a rotation, which changes neither the scrambler key nor a plain byte, and moves the tideline from
line to line of the world and, past the last, ends with EPOCH one up. A line whose tag fails is found when the
rotation reads it: its sectors are poisoned and its frame is marked. A write whose WORLD another valid slot holds is
ignored whole. The order in which slots rotate is the reading of the model (log entry 58). -/
def Sys2Proof.Claims.KeySlots : Prop :=
  ∀ (s : State), 1 ≤ s.unit → s.unit < 64 →
    let k := s.keySlot s.unit
    let put (x : KeySlot) (used : Nat) : State := { (s.putKeySlot s.unit x) with nextKey := s.nextKey + used }
    let alone : Prop := ∀ o ∈ s.keys, o.1 ≠ s.unit → o.2.valid = true → o.2.world ≠ k.world
    (k.valid = false → alone →
      exec .wctlKeyLoad s = .next (put { k with valid := true, key := s.nextKey, mask := s.nextKey } 1))
    ∧ (k.valid = true → alone →
      (s.assigned k.world = false →
        exec .wctlKeyErase s = .next (put { k with valid := false, rot := false, key := 0, oldKey := 0, mask := 0 } 0))
      ∧ (s.assigned k.world = true → exec .wctlKeyErase s = .next s)
      ∧ (k.rot = false → exec .wctlGo s
          = .next (put { k with rot := true, oldKey := k.key, key := s.nextKey, tide := 0 } 1)))
    ∧ (¬ alone → exec .wctlKeyLoad s = .next s ∧ exec .wctlKeyErase s = .next s ∧ exec .wctlGo s = .next s)
    ∧ (∀ n r, s.keys.find? (fun k => k.2.valid && k.2.rot) = some (n, r) →
      let done : KeySlot := { r with rot := false, oldKey := 0, epoch := r.epoch + 1, tide := 0x30000000000 }
      (∀ a, s.nextLineOf r.world r.tide = some a → s.tampered (a / 128) = false →
        (∀ b, s.nextLineOf r.world (a + 128) = some b → exec .rotationLine s = .next (s.putKeySlot n { r with tide := b }))
        ∧ (s.nextLineOf r.world (a + 128) = none → exec .rotationLine s = .next (s.putKeySlot n done)))
      ∧ (∀ a b, s.nextLineOf r.world r.tide = some a → s.nextLineOf r.world (a + 128) = some b → s.tampered (a / 128) = true →
        resourceOk 2 (a / 2 ^ 16) = true →
        ∃ s', exec .rotationLine s = .next s' ∧ (s'.keySlot n).tide = b ∧ (s'.owner 2 (a / 2 ^ 16)).poison = true
          ∧ s'.tampered (a / 128) = false ∧ ∀ n, n < 4 → Store.get false s'.poison (4 * (a / 128) + n) = true)
      ∧ (s.nextLineOf r.world r.tide = none → exec .rotationLine s = .next (s.putKeySlot n done)))

/-- R414, R416: an eviction counts the frame's version up and writes the image with its header to host memory;
returned in a state that has kept the version, the keys and the image, it gives back every line of the frame as it was
stored. An Unscrubbed frame, outside every rucksack, is overwritten raw with zeros before it is evicted. A return
whose version, world, keys or tags fail poisons the frame, also one that has been granted meanwhile. A scrub leaves
raw zeros. The encodings inside cipher and tag are the choice of the model (log entry 8): the statement speaks of the
functions that hold them. That an image of no held frame is ignored is the reading of log entry 58, that a returned
frame is Unscrubbed that of log entry 49. -/
def Sys2Proof.Claims.PagedFrames : Prop :=
  ∀ (s : State),
    let f := s.unit
    let at' := 2 ^ 51 + s.item
    let ver : BitVec 32 := Store.get 0 s.versions f + 1
    (s.pageable f = true → s.item + 2 ^ 17 ≤ 2 ^ 51 → (∀ i, i < 512 → s.tampered (512 * f + i) = false) →
      ∃ s₁, exec .frameEvict s = .next s₁ ∧ Store.get 0 s₁.versions f = ver
        ∧ s₁.readNat at' 8 = f * 2 ^ 16 ∧ s₁.readNat (at' + 8) 1 = (s.owner 2 f).world.toNat
        ∧ s₁.readNat (at' + 12) 4 = ver.toNat
        ∧ (∀ k, k < f * 2 ^ 16 ∨ (f + 1) * 2 ^ 16 ≤ k → k < at' ∨ at' + 2 ^ 17 ≤ k → s₁.byte k = s.byte k)
        ∧ (Store.get false s.flash.scrubbed f = false → s.inSack f = false →
            (∀ n, n < 2 ^ 16 → s₁.byte (f * 2 ^ 16 + n) = 0) ∧ ∀ i, i < 512 → s₁.storedLine (512 * f + i) = 0)
        ∧ (Store.get false s.flash.scrubbed f = true ∨ s.inSack f = true →
            ∀ n, n < 2 ^ 16 → s₁.byte (f * 2 ^ 16 + n) = s.byte (f * 2 ^ 16 + n))
        ∧ ∀ s₂ : State, s₂.item = s.item → s₂.versions = s₁.versions → s₂.owners = s.owners → s₂.keys = s.keys →
            s₂.seizing = s.seizing → s₂.records = s.records → s₂.exports = s₁.exports →
            (∀ k, at' ≤ k → k < at' + 2 ^ 17 → s₂.byte k = s₁.byte k) →
            ∃ s₃, exec .frameReturn s₂ = .next s₃ ∧ (∀ i, i < 512 → s₃.storedLine (512 * f + i) = s₁.storedLine (512 * f + i))
              ∧ (Store.get false s.flash.scrubbed f = false → s.inSack f = true →
                  ∀ n, n < 2 ^ 16 → s₃.byte (f * 2 ^ 16 + n) = s₁.byte (f * 2 ^ 16 + n))
              ∧ Store.get false s₃.flash.scrubbed f = false
              ∧ ∀ k, k < f * 2 ^ 16 ∨ (f + 1) * 2 ^ 16 ≤ k → s₃.byte k = s₂.byte k)
    ∧ (let a := s.readNat at' 8
       let g := a / 2 ^ 16
       let world := (s.owner 2 g).world
       let good : Prop := (s.slotOf world).isSome = true ∧ s.readNat (at' + 12) 4 = (Store.get 0 s.versions g : BitVec 32).toNat
         ∧ s.readNat (at' + 8) 1 = world.toNat ∧ Store.get 0 s.exports g = s.lineKey world (512 * g)
         ∧ ∀ i, i < 512 → BitVec.ofNat 64 (s.readNat (at' + 0x10040 + 8 * i) 8)
             = s.tagOf (512 * g + i) (s.version g) (BitVec.ofNat 1024 (s.readNat (at' + 64 + 128 * i) 128))
       s.item + 2 ^ 17 ≤ 2 ^ 51 →
       (a % 2 ^ 16 = 0 → s.settled g = true → good →
         ∃ s', exec .frameReturn s = .next s' ∧ (∀ k, k < g * 2 ^ 16 ∨ (g + 1) * 2 ^ 16 ≤ k → s'.byte k = s.byte k)
           ∧ (∀ i, i < 512 → let gen := s.lineKey world (512 * g + i)
               s'.readNat (128 * (512 * g + i)) 128 = (xtsLine false (dataKey gen) (tweakKey gen) (512 * g + i)
                 (BitVec.ofNat 1024 (s.readNat (at' + 64 + 128 * i) 128))).toNat))
       ∧ (a % 2 ^ 16 = 0 → s.settled g = true → ¬ good → Store.wf {} s.teams = true →
         (∀ t ∈ s.teams, t.2.life ≠ .saved) →
         ∃ s', exec .frameReturn s = .next s' ∧ (s'.owner 2 g).poison = true ∧ s'.mem = s.mem
           ∧ (∀ n, n < 2048 → s'.poisoned (g * 2 ^ 16 + 32 * n) = true)
           ∧ ∀ id ∈ s.worldRuntime world, ∃ x ∈ (s'.teamAt id).async, x = (0x12, BitVec.ofNat 64 (g * 2 ^ 16)))
       ∧ (a % 2 ^ 16 ≠ 0 ∨ s.settled g = false → exec .frameReturn s = .next s))
    ∧ (s.held2 f = true → s.inSack f = false →
        ∃ s', exec .frameScrub s = .next s' ∧ (∀ n, n < 2 ^ 16 → s'.byte (f * 2 ^ 16 + n) = 0)
          ∧ (∀ i, i < 512 → s'.storedLine (512 * f + i) = 0)
          ∧ Store.get false s'.flash.scrubbed f = true ∧ s'.owners = s.owners ∧ s'.teams = s.teams
          ∧ ∀ k, k < f * 2 ^ 16 ∨ (f + 1) * 2 ^ 16 ≤ k → s'.byte k = s.byte k)

/-- R410, R414 to R416: world keys, evictions and scrubs. Readings and choices of the model: log entries 8, 49 and 58.
-/
def Obligations.KeysAndFrames : Prop := Claims.KeySlots ∧ Claims.PagedFrames

/-- R410, R417, R418: the boot derives the identity key from the root seed, gives key slot 0 its keys, takes the first
image slot whose signature verifies, and records its measurements; with none, or without the root seed, the device is
in recovery mode. It happens once. What the seed is, and the byte order of hash and key, are the model's (log entries
8 and 9). Recovery mode without virtual functions, when no image verifies, is the reading of log entry 56. -/
def Sys2Proof.Claims.Boots : Prop :=
  ∀ (s : State), s.boot.done = false →
    let seed := Config.rootSeed s.flash.helper (Config.startup s.free)
    let booted (s' : State) : Prop := exec .boot s = .next s' ∧ s'.boot.done = true ∧ s'.boot.seed = seed.isSome
      ∧ (∀ x, seed = some x → s'.boot.key = (sha384 (hashBytes x)).toNat % ecN)
      ∧ (s'.keySlot 0).valid = true ∧ (s'.keySlot 0).world = 0 ∧ (s'.keySlot 0).key = s.nextKey
      ∧ (∀ n, n ≠ 0 → s'.keySlot n = s.keySlot n) ∧ s'.mem = s.mem ∧ s'.teams = s.teams ∧ exec .boot s' = .next s'
    (∀ i, s.bootImage = some i → ∃ s', booted s' ∧ s'.boot.fwm = sha384 i.body ∧ s'.boot.cfgm = sha384 i.config
      ∧ s'.boot.svn = i.svn ∧ s'.boot.recovery = !s'.boot.seed)
    ∧ (s.bootImage = none → ∃ s', booted s' ∧ s'.boot.recovery = true ∧ ∀ n, s'.exposes (.vf n) = false)

/-- R410, R466, R469: a loss of power and a thermal trip leave no team, no key and no byte of the module's own memory;
the module flash and the memory outside stay. Zero bytes after a loss of power are the choice of log entry 3; what
survives is the reading of log entry 57. -/
def Sys2Proof.Claims.Resets : Prop :=
  ∀ (s : State), ∃ s', exec .powerLoss s = .next s' ∧ exec .thermalTrip s = .next s' ∧ s'.teams = [] ∧ s'.keys = []
    ∧ s'.boot.done = false ∧ s'.flash = s.flash ∧ s'.ticks = 0
    ∧ (∀ k, 2 ^ 50 ≤ k → k < 2 ^ 52 ∨ 2 ^ 90 ≤ k → s'.byte k = s.byte k)
    ∧ ∀ k, k < 2 ^ 50 ∨ (2 ^ 52 ≤ k ∧ k < 2 ^ 90) → s'.byte k = 0

/-- R419, R420: an attestation request that has not been answered is answered in the runtime page: the report starts with
its format and the request's number. -/
def Sys2Proof.Claims.Attestations : Prop :=
  ∀ (s : State) (page : Nat), s.runtimePage s.unit = some page → page + 0x1000 ≤ 2 ^ 50 → s.boot.seed = true →
    s.boot.recovery = false → s.readNat (page + 0x870) 8 ≠ 0 →
    BitVec.ofNat 64 (s.readNat (page + 0x870) 8) ≠ (s.tenantAt s.unit).attest →
    ∃ s', exec .attestationReport s = .next s' ∧ s'.readNat (page + 0x900) 8 = 1
      ∧ s'.readNat (page + 0x908) 8 = s.readNat (page + 0x870) 8 ∧ s'.readNat (page + 0x910) 8 = s.now % 2 ^ 64
      ∧ (s'.tenantAt s.unit).attest.toNat = s.readNat (page + 0x870) 8
      ∧ ∀ k, k < page + 0x900 ∨ page + 0xBE0 ≤ k → k < 2 ^ 52 → s'.byte k = s.byte k

/-- R410, R417 to R420, R466, R469: boot, reset and attestation. Choices and readings of the model: log entries 3, 8,
9, 56 and 57. -/
def Obligations.BootAndAttestation : Prop := Claims.Boots ∧ Claims.Resets ∧ Claims.Attestations

/-! ### Debugging -/

/-- R423: a free unit goes to the function that asks; the hypervisor's request for a unit that a virtual function holds is
timed; a release and the deadline hand it over, and a change of owner resets the unit, and with the debug unit HSTAT: no team
of the core stays halted. -/
def Sys2Proof.Claims.DebugClaims : Prop :=
  ∀ (s : State) (fn : Fn) (core f : Nat) (u : DbgUnit), core < 48 → fnCode fn = some f → s.exposes fn = true →
    let d := s.dbg core
    let c := d.claim u
    let passed (o : Out) (owner : Nat) : Prop :=
      (u ≠ .dbg → o = .next (s.putDbg core (d.passTo owner u)))
      ∧ (u = .dbg → ∃ s', o = .next s' ∧ s'.dbgs = (s.putDbg core (d.passTo owner u)).dbgs ∧ s'.mem = s.mem
          ∧ (Store.wf {} s.teams = true → ∀ id, (s'.teamAt id).life = .resident → (s'.teamAt id).core = core →
              (s'.teamAt id).halted = false)
          ∧ ∀ id, (s.teamAt id).core ≠ core → s'.teamAt id = s.teamAt id)
    (c.owner = 0xFF → passed (exec (.claimRequest fn core u) s) f)
    ∧ (f = 0xFE → c.owner < 64 → c.pend = 0xFF → c.note = 0 →
        exec (.claimRequest fn core u) s
          = .next (s.putDbg core (d.setClaim { c with pend := 0xFE, deadl := BitVec.ofNat 64 (s.now + 400000) } u)))
    ∧ (f < 64 → c.owner ≠ 0xFF → exec (.claimRequest fn core u) s = .next s)
    ∧ (c.owner = f → c.pend = 0xFF → passed (exec (.claimRelease fn core u) s) 0xFF)
    ∧ (c.owner = f → c.pend = 0xFE → s.now < c.deadl.toNat → passed (exec (.claimRelease fn core u) s) 0xFE)
    ∧ (c.pend = 0xFE → c.deadl.toNat ≤ s.now → ∃ s', exec (.claimDeadline core u) s = .next s'
        ∧ s'.dbg core = d.passTo 0xFE u ∧ (∀ n, n ≠ core → s'.dbg n = s.dbg n) ∧ (u ≠ .ctr → s'.mem = s.mem)
        ∧ (u = .ctr → (∀ j, j < 256 → onFabric (d.imgAt + j) = false) →
            s'.readNat d.imgAt 8 = 1 + d.unsup.toNat * 2 ^ 32 + 2 ^ 40))
    ∧ (∀ owner, ((d.passTo owner u).claim u) = { owner := owner } ∧ (u = .dbg → (d.passTo owner u).bps = [])
        ∧ (u = .ctr → (d.passTo owner u).counters = []) ∧ (u = .rc → (d.passTo owner u).samplers = []))

/-- R425: the physical function halts a team, lets it go on, lets it run one instruction, and saves it, one that has escalated
as management's SAVE does; an action whose HANDLE names no resident team is ignored, and so is one of another function. -/
def Sys2Proof.Claims.HaltControl : Prop :=
  ∀ (s : State) (core quarter slot id : Nat) (fn : Fn),
    let t := s.teamAt id
    (s.slotTeam core quarter slot = some id →
      exec (.haltctlHalt .pf core quarter slot) s = .next (s.putTeam id { t with haltReq := t.haltReq || !t.halted })
      ∧ (t.halted = true → t.counting = false →
          exec (.haltctlResume .pf core quarter slot) s
            = .next (s.putTeam id { t with halted := false, stepOnce := false, bpSkip := some t.haltPoint })
          ∧ exec (.haltctlStep .pf core quarter slot) s
            = .next (s.putTeam id { t with halted := false, stepOnce := true, bpSkip := some t.haltPoint }))
      ∧ (t.halted = false → exec (.haltctlResume .pf core quarter slot) s = .next s
          ∧ exec (.haltctlStep .pf core quarter slot) s = .next s)
      ∧ (t.saveReq = none → t.esc = none →
          exec (.haltctlSave .pf core quarter slot) s = .next (s.putTeam id { t with saveReq := some 5 }))
      ∧ (t.saveReq = none → t.esc.isSome = true → exec (.haltctlSave .pf core quarter slot) s = .next (s.putTeam id { t with
          saveReq := some 5, frame := some (t.frame.getD t.noFrame), pstat := { t.pstat with inh := true } })))
    ∧ (s.slotTeam core quarter slot = none ∨ fn ≠ .pf → exec (.haltctlHalt fn core quarter slot) s = .next s)

/-- R427, R428: EN of a ring that is off clears HEAD, TAIL and DROP. -/
def Sys2Proof.Claims.RingsEnabled : Prop :=
  ∀ (s : State) (fn : Fn) (core q : Nat), core < 48 → q < 4 →
    let d := s.dbg core
    (d.holds fn .dbg = true → d.trEn = false →
      ∃ s' e, exec (.traceEnable fn core) s = .next s' ∧ s'.dbg core = e ∧ e.trEn = true
        ∧ e.trace = { d.trace with head := 0, tail := 0, drop := 0 } ∧ e.kinds = d.kinds ∧ s'.mem = s.mem ∧ s'.teams = s.teams)
    ∧ (d.holds fn .rc = true → (d.sampler q).en = false →
      ∃ s' x, exec (.rollCallEnable fn core q) s = .next s' ∧ (s'.dbg core).sampler q = x ∧ x.en = true
        ∧ x.start = BitVec.ofNat 64 s.now ∧ x.n = (d.sampler q).n ∧ x.last = none
        ∧ x.ring = { (d.sampler q).ring with head := 0, tail := 0, drop := 0 } ∧ s'.mem = s.mem ∧ s'.teams = s.teams)

/-- R428, R429: a sample that is due of a quarter with one team is written to the next place of the ring, with what R429 puts
there, and HEAD advances; of a scalar instruction that issued in the sampled cycle the address is shown; with the ring full,
and with a ring of no record, it is dropped. (A quarter that replays shows what it went through: here none does.) -/
def Sys2Proof.Claims.RollCallSamples : Prop :=
  ∀ (s : State) (id : Nat) (t : Team), s.unit < 192 →
    let x := (s.dbg (s.unit / 4)).sampler (s.unit % 4)
    let due := x.from0 + (x.taken + 1) * x.n.toNat
    x.en = true → s.teams = [(id, t)] → t.life = .resident → t.core = s.unit / 4 → t.quarter = s.unit % 4 → t.slot < 16 →
    due ≤ s.cycle → (s.dbg (s.unit / 4)).rc.owner = 0xFE → s.replays = [] →
    ((x.ring.head - x.ring.tail).toNat < x.ring.size.toNat → t.lastIssue > due →
      let a := x.ring.base.toNat + 16 * (x.ring.head.toNat % x.ring.size.toNat)
      (∀ j, j < 16 → onFabric (a + j) = false) →
      ∃ s', exec .rollCallSample s = .next s' ∧ ((s'.dbg (s.unit / 4)).sampler (s.unit % 4)).ring.head = x.ring.head + 1
        ∧ s'.readNat a 8 = (if t.pstat.inh then 2 ^ 63 else 0) + t.pstat.tag.toNat * 2 ^ 47 + t.slot * 2 ^ 43 + 2 ^ 42
            + (if t.lastPc.1 = due + 1 then t.lastPc.2 else t.pc).toNat / 4 % 2 ^ 37
        ∧ s'.readNat (a + 8) 8 = t.seqctr.toNat * 2 ^ 32 + (x.taken + 1) * x.n.toNat % 2 ^ 32)
    ∧ ((x.ring.head - x.ring.tail).toNat = x.ring.size.toNat → x.ring.drop.toNat < 2 ^ 32 - 1 →
      ∃ s', exec .rollCallSample s = .next s' ∧ s'.mem = s.mem
        ∧ ((s'.dbg (s.unit / 4)).sampler (s.unit % 4)).ring.drop = x.ring.drop + 1)

/-- R431, R432: SAVE writes the session image, and LOAD takes from it the counters that this part has, and sets the UNSUP bits
of the others in its header. -/
def Sys2Proof.Claims.CounterSessions : Prop :=
  ∀ (s : State) (fn : Fn) (core n : Nat), core < 48 → n < 8 → (s.dbg core).holds fn .ctr = true →
    let d := s.dbg core
    let c := d.counter n
    (∀ j, j < 256 → onFabric (d.imgAt + j) = false) →
    (∃ s', exec (.counterSave fn core) s = .next s' ∧ s'.dbgs = s.dbgs
      ∧ s'.readNat d.imgAt 8 = 1 + d.unsup.toNat * 2 ^ 32 ∧ s'.readNat (d.imgAt + 8) 8 = s.now % 2 ^ 64
      ∧ s'.readNat (d.imgAt + 16 * (n + 1)) 8 = (if c.en then 2 ^ 63 else 0) + c.event.toNat
      ∧ s'.readNat (d.imgAt + 16 * (n + 1) + 8) 8 = c.value.toNat
      ∧ ∀ k, k < d.imgAt ∨ d.imgAt + 256 ≤ k → s'.byte k = s.byte k)
    ∧ (let sel := s.readNat (d.imgAt + 16 * (n + 1)) 8
       ∃ s', exec (.counterLoad fn core) s = .next s'
        ∧ ((s'.dbg core).counter n).en = decide (sel / 2 ^ 63 % 2 = 1) ∧ ((s'.dbg core).counter n).event = BitVec.ofNat 16 sel
        ∧ ((s'.dbg core).counter n).value
            = (if 1 ≤ sel % 2 ^ 16 ∧ sel % 2 ^ 16 ≤ 8 then BitVec.ofNat 64 (s.readNat (d.imgAt + 16 * (n + 1) + 8) 8) else 0)
        ∧ (s'.dbg core).unsup.getLsbD n = decide (sel % 2 ^ 16 = 0 ∨ 8 < sel % 2 ^ 16)
        ∧ (s'.byte (d.imgAt + 4)).getLsbD n
            = ((s.byte (d.imgAt + 4)).getLsbD n || decide (sel % 2 ^ 16 = 0 ∨ 8 < sel % 2 ^ 16))
        ∧ ∀ k, k ≠ d.imgAt + 4 → s'.byte k = s.byte k)

/-- R423 to R432: the debug units. -/
def Obligations.DebugUnits : Prop :=
  Claims.DebugClaims ∧ Claims.HaltControl ∧ Claims.RingsEnabled ∧ Claims.RollCallSamples ∧ Claims.CounterSessions

/-! ### Reliability, fabric, time -/

/-- R435, R436, R441 to R445: a quarter that is struck replays: every register, tile and byte is as it was, what is under way
comes later, and the eighth rollback within 1 ms holds the quarter, until its self-test has run; a lasting unit is retired: a
bank that nothing holds is marked, and one that a tag holds is requested from it with reason 2; records go to flash; CLEAR
clears an error block. -/
def Obligations.Reliability : Prop :=
  ∀ (s : State) (q n : Nat) (u : UnitClass) (lasting : Bool),
    let old := (Store.get [] s.rollbacks q).filter fun x => decide (s.ticks < x + 4000000)
    (q < 192 → ∃ s', exec (.strike [q]) s = .next s' ∧ s'.replaying q = true ∧ s'.tiles = s.tiles ∧ s'.mem = s.mem
      ∧ (∀ id, let t := s.teamAt id; let u := s'.teamAt id
          u = { t with laneFree := u.laneFree, drainedAt := u.drainedAt, pend := u.pend, sdq := u.sdq }
          ∧ u.pend.map (fun p => (p.id, p.regs, p.masks, p.tok)) = t.pend.map (fun p => (p.id, p.regs, p.masks, p.tok))
          ∧ u.sdq.map (fun w => (w.id, w.what, w.departed)) = t.sdq.map (fun w => (w.id, w.what, w.departed)))
      ∧ s'.seqs = s.seqs ∧ Store.get [] s'.rollbacks q = old ++ [s.ticks]
      ∧ Store.get false s'.held q = (if 7 ≤ old.length then true else Store.get false s.held q))
    ∧ (∃ s', exec (.selfTest u n lasting) s = .next s' ∧ s'.tiles = s.tiles ∧ (u ≠ .bank → u ≠ .quarter → s'.mem = s.mem)
      ∧ (lasting = true → u = .bank → (s.owner 1 n).tag = 0 → (s'.owner 1 n).retired = true ∧ s'.mem = s.mem)
      ∧ (∀ page, lasting = true → u = .bank → n < 3072 → let tag := (s.owner 1 n).tag.toNat
          tag ≠ 0 → s.runtimePage tag = some page → (s.tenantAt tag).posted = [] → (s.tenantAt tag).wanted = [] →
          (s.tenantAt tag).lastReq < 2 ^ 32 - 1 →
          s'.owners = s.owners ∧ (s'.tenantAt tag).lastReq = (s.tenantAt tag).lastReq + 1
          ∧ (s'.tenantAt tag).posted.map (fun p => (p.resources, p.reason)) = [([BitVec.ofNat 64 (2 ^ 60 + n)], 2)])
      ∧ (lasting = true → Store.get false s'.retired (unitKey u n) = true)
      ∧ (lasting = false → ((Store.get [] s.history (unitKey u n)).filter
            fun x => decide (s.ticks < x + 24 * 3600 * 4000000000)).length < 3 →
            s'.retired = s.retired ∧ s'.teams = s.teams ∧ s'.mem = s.mem ∧ s'.owners = s.owners)
      ∧ (u = .quarter → Store.get false s'.held n = false))
    ∧ (let f : State := { s with
         flash := { s.flash with lifetime := s.lifetime, retired := s.retired, powered := s.flash.powered + (s.ticks - s.flushed) },
         flushed := s.ticks }
       exec .orderlyShutdown s = .next f ∧ (s.flushed + 2400000000000 ≤ s.ticks → exec .lifetimeFlush s = .next f))
    ∧ (∃ s', exec .errorBlockClear s = .next s' ∧ (Store.get {} s'.errors s.unit : ErrorBlock) = {}
        ∧ ∀ v, v ≠ s.unit → (Store.get {} s'.errors v : ErrorBlock) = Store.get {} s.errors v)

/-- R447, R452, R454: a flit whose CRC fails is sent again, and its link is down at the eighth failure; links come up and go
down; requests that the fabric has not answered for 200 µs fail with FABRIC: a load of theirs is cancelled in the lanes that
it fails, a write is lost, and a scalar load traps. -/
def Sys2Proof.Claims.Links : Prop :=
  ∀ (s : State),
    let l := s.link s.unit
    (s.unit < 32 → l.up = true →
      (s.item = 0 → l.fails < 7 → ∃ s', exec .flitCrcFailure s = .next s'
          ∧ s'.link s.unit = { l with fails := l.fails + 1, retry := if l.retry = 0xFFFF#16 then l.retry else l.retry + 1 })
      ∧ (s.item = 0 → 7 ≤ l.fails → ∃ s', exec .flitCrcFailure s = .next s' ∧ (s'.link s.unit).up = false)
      ∧ (∃ s', exec .linkGoesDown s = .next s' ∧ s'.link s.unit = { l with up := false, fails := 0 }))
    ∧ (s.unit < 32 → exec .linkUp s = .next (s.putLink s.unit { l with up := true, far := BitVec.ofNat 20 s.item, fails := 0 }))
    ∧ (∀ p, (s.teamAt s.unit).op? s.item = some p → p.kind = .load → p.fabric ≠ [] →
        (∀ w ∈ (s.teamAt s.unit).sdq, w.id ≠ s.item) →
        let t := s.teamAt s.unit
        (s.ticks < p.born + 800000 → exec .fabricRequestGiveUp s = .next s.atUnit)
        ∧ (p.born + 800000 ≤ s.ticks → p.scalar = none →
          ∃ s' q l addr, ∃ lanes : List Nat, exec .fabricRequestGiveUp s = .next s' ∧ (s'.teamAt s.unit).op? s.item = some q
            ∧ q.cancel = true ∧ (l, addr) ∈ p.fabric ∧ l ∈ lanes ∧ (∀ k ∈ lanes, k ∈ p.fabric.map Prod.fst)
            ∧ (s'.teamAt s.unit).async = t.async ++ [(0x11, addr)]
            ∧ (∀ r k, k < 1024 → q.laneReg r k = if k ∈ lanes then none else p.laneReg r k) ∧ s'.mem = s.mem)
        ∧ (∀ x, p.born + 800000 ≤ s.ticks → p.scalar = some x → ∃ l addr, (l, addr) ∈ p.fabric
          ∧ exec .fabricRequestGiveUp s
            = .next ((s.atUnit.setTeam { t with pend := t.pend.filter fun q => q.id != p.id }).trap 0x11 addr)))
    ∧ (∀ w addr bs, (s.teamAt s.unit).sdq.find? (fun w => w.id == s.item && w.departed && w.fabric.isSome) = some w →
        w.fabric = some addr → w.what = .bytes bs →
        (s.ticks < w.tick + 800000 → exec .fabricRequestGiveUp s = .next s.atUnit)
        ∧ (w.tick + 800000 ≤ s.ticks → ∃ s', exec .fabricRequestGiveUp s = .next s'
          ∧ (∀ x ∈ (s'.teamAt s.unit).sdq, x.id ≠ w.id) ∧ (0x11, addr) ∈ (s'.teamAt s.unit).async
          ∧ ∀ k, k ∉ (s.atHomes bs).map Prod.fst → s'.byte k = s.byte k))

/-- R450, R455 to R459: a device joins another partition only with no team; a new epoch raises CHECKPOINT in every resident
team and marks the routes to lost members, which without a partition are the device's own linked pool nodes; STOPPED, once all
has been performed and every team stands at its stopping point, writes the notice of every tenant and holds the fabric; RESUME
says so in every notice and lets it go. -/
def Sys2Proof.Claims.Quiesces : Prop :=
  ∀ (s : State) (partid epoch : Nat) (lost : List Nat),
    let inPart := s.partid.getLsbD 63
    let gone := if inPart then lost else lost.filter fun x =>
      decide (0x80000 ≤ x) && s.links.any fun l => l.2.far.toNat == x
    let newId := BitVec.ofNat 64 (2 ^ 63 + partid % 2 ^ 32)
    let lone (tag page : Nat) : Prop := tag ∈ s.tenants.map Prod.fst ∧ s.runtimePage tag = some page ∧ page + 2 ^ 16 ≤ 2 ^ 50
      ∧ ∀ t ∈ s.tenants, t.1 ≠ tag → ∀ p, s.runtimePage t.1 = some p →
          p + 2 ^ 16 ≤ 2 ^ 50 ∧ (p + 2 ^ 16 ≤ page ∨ page + 2 ^ 16 ≤ p)
    ((∀ t ∈ s.teams, t.2.life ≠ .resident ∧ t.2.life ≠ .saved) →
      (s.partid = newId → exec (.partitionJoin partid) s = .next s)
      ∧ (s.partid ≠ newId →
        exec (.partitionJoin partid) s = .next { s with partid := newId, quiesce := {}, fabricHold := false }))
    ∧ ((∃ t ∈ s.teams, t.2.life = .resident ∨ t.2.life = .saved) → exec (.partitionJoin partid) s = .next s)
    ∧ (inPart = false → gone = [] → exec (.quiesce epoch lost) s = .next s)
    ∧ (s.quiesce.active = false → s.quiesce.epoch < epoch → (inPart = true ∨ gone ≠ []) → Store.wf {} s.teams = true →
        (∀ t ∈ s.teams, t.2.life ≠ .saved) →
        ∃ s', exec (.quiesce epoch lost) s = .next s' ∧ s'.quiesce.active = true ∧ s'.quiesce.epoch = epoch
          ∧ s'.quiesce.stopped = false ∧ s'.quiesce.lost = gone.eraseDups ∧ s'.mem = s.mem
          ∧ (∀ id, (s.teamAt id).life = .resident →
              (s'.teamAt id).async = (s.teamAt id).async ++ [(0x10, BitVec.ofNat 64 epoch)])
          ∧ ∀ n, (Store.get 0 s.routes (2 * n)).getLsbD 63 = true →
              ((Store.get 0 s.routes (2 * n)).extractLsb' 32 20).toNat ∈ gone →
              (Store.get 0 s'.routes (2 * n)).getLsbD 62 = true)
    ∧ (s.quiesce.active = true → s.quiesce.epoch = s.unit → s.quiesce.stopped = false →
        (s.allPerformed = false → exec .stopped s = .next (s.sendLines fun _ => true))
        ∧ (s.allPerformed = true → (∃ t ∈ s.teams, t.2.atStop = false) → exec .stopped s = .next s)
        ∧ (s.allPerformed = true → (∀ t ∈ s.teams, t.2.atStop = true) →
          ∃ s', exec .stopped s = .next s' ∧ s'.quiesce = { s.quiesce with stopped := true } ∧ s'.fabricHold = true
            ∧ (s.tenants = [] → s' = { s with quiesce := { s.quiesce with stopped := true }, fabricHold := true })
            ∧ ∀ tag page, lone tag page →
              s'.readNat (page + 0xC00) 8 = s.quiesce.lost.length % 2 ^ 32 * 2 ^ 32 + s.quiesce.epoch % 2 ^ 32
              ∧ s'.readNat (page + 0xC08) 8 = 0
              ∧ s'.readNat (page + 0xC10) 8 = s.quiesce.failed % 2 ^ 32 * 2 ^ 32 + s.quiesce.dropped % 2 ^ 32
              ∧ ∀ n x, n < 16 → s.quiesce.lost[n]? = some x → s'.readNat (page + 0xC20 + 4 * n) 4 = x % 2 ^ 20))
    ∧ (s.quiesce.active = true → s.quiesce.epoch = s.unit → s.quiesce.stopped = true →
        ∃ s', exec .fabricResume s = .next s' ∧ s'.quiesce = { s.quiesce with active := false, stopped := false }
          ∧ s'.fabricHold = false
          ∧ (s.tenants = [] → s' = { s with quiesce := { s.quiesce with active := false, stopped := false }, fabricHold := false })
          ∧ ∀ tag page, lone tag page → s'.readNat (page + 0xC08) 8 = 1)

/-- R447 to R459: links, partitions and the quiesce. -/
def Obligations.LinksAndQuiesce : Prop := Claims.Links ∧ Claims.Quiesces

/-- R463, R466 to R468: an exchange steps device time forward only over 1 ms and slews it otherwise; a measurement of 115 °C
resets the device, and the registers show a whole sample that is 100 µs old at most; the clock goes down by 250 MHz above a
limit, no lower than 1.0 GHz, and up again after 10 ms clear. -/
def Sys2Proof.Claims.TimeAndClock : Prop :=
  ∀ (s : State) (host : Word) (r : Telemetry),
    (s.now + 4000000 ≤ host.toNat → exec (.ptmExchange host) s = .next { s with now := host.toNat, slew := 0 })
    ∧ (host.toNat < s.now + 4000000 → exec (.ptmExchange host) s = .next { s with slew := (host.toNat : Int) - s.now })
    ∧ ((∃ t ∈ r.temps.take 5, 115 * 16 ≤ t.toNat) → exec (.telemetryRefresh r) s = exec .thermalTrip s)
    ∧ ((∀ t ∈ r.temps.take 5, t.toNat < 115 * 16) → ∃ s', exec (.telemetryRefresh r) s = .next s'
        ∧ s'.telemetry.power = r.power ∧ s'.telemetry.temps = r.temps.take 5
        ∧ s'.telemetry.vcore = r.vcore ∧ s'.telemetry.mhz = s.telemetry.mhz ∧ s'.telemetry.events = s.telemetry.events
        ∧ s'.shown = (if s.sampled + 400000 ≤ s.ticks then s'.telemetry else s.shown) ∧ s'.mem = s.mem ∧ s'.teams = s.teams)
    ∧ (s.overLimit = true → 1250 ≤ s.telemetry.mhz → ∃ s', exec .clockReduction s = .next s'
        ∧ s'.telemetry.mhz = s.telemetry.mhz - 250 ∧ s'.telemetry.events = s.telemetry.events + 1 ∧ s'.lastOver = s.ticks)
    ∧ (s.overLimit = false → s.telemetry.mhz ≤ 3750 → s.lastOver + 40000000 ≤ s.ticks → ∃ s', exec .clockRaise s = .next s'
        ∧ s'.telemetry.mhz = s.telemetry.mhz + 250)

/-- R7, R373, R374, R378, R397, R445, R451, R464, R468: what a register that has been written reads, and that a function which
does not reach a register leaves it alone; PLIMIT, like all telemetry, reads as of the last sample; and the offsets of BAR0
and BAR2. -/
def Sys2Proof.Claims.RegisterWrites : Prop :=
  ∀ (s : State) (x : Word) (q : BitVec 13) (v n : BitVec 6), s.boot.recovery = false →
    let reads (w r : Fn) (reg : RegAddr) (y : Word) : Prop :=
      ∃ s', exec (.registerWrite w reg x) s = .next s' ∧ s'.readRegister r reg = y ∧ s'.mem = s.mem
    reads .pf .pf (.queue q 0x10) (x.extractLsb' 0 40 |>.zeroExtend 64)
    ∧ reads .pf .pf (.queue q 0x18) (x.extractLsb' 0 40 |>.zeroExtend 64)
    ∧ reads .pf .pf (.queue q 0x20) (x.extractLsb' 0 32 |>.zeroExtend 64)
    ∧ reads .pf .pf (.queue q 0x28) (x.extractLsb' 0 40 |>.zeroExtend 64)
    ∧ reads .pf .pf (.queue q 0x30) (x &&& 0xFFFFFFFFFFFFFFC0#64)
    ∧ reads .mgmt .mgmt (.mgmt 0x100) (x &&& 0x000FFFFFFFFFF000#64)
    ∧ reads .mgmt .mgmt (.mgmt 0x110) (x.extractLsb' 0 32 |>.zeroExtend 64)
    ∧ reads .pf .pf (.time v 8) x ∧ reads .pf (.vf v) (.time v 8) x
    ∧ reads .pf .pf (.time v 0x10) x ∧ reads .pf .pf (.time v 0) (x &&& 1#64)
    ∧ (∃ s', exec (.registerWrite .mgmt (.telemetry 0) x) s = .next s' ∧ s'.telemetry.plimit = x.extractLsb' 0 12
        ∧ s'.shown = s.shown ∧ s'.mem = s.mem)
    ∧ s.readRegister .pf (.telemetry 0) = s.shown.plimit.zeroExtend 64
    ∧ (∀ o : BitVec 7, bar0Reg (128 * q.toNat + o.toNat) = some (.queue q o)
        ∧ bar2Reg .pf (0x32000 + o.toNat) = some (.telemetry o) ∧ bar2Reg (.vf v) (0x32000 + o.toNat) = none)
    ∧ (∀ o : BitVec 6, bar2Reg .pf (0x31000 + 64 * v.toNat + o.toNat) = some (.time v o)
        ∧ bar2Reg (.vf v) (0x31000 + o.toNat) = some (.time v o) ∧ bar2Reg (.vf v) (0x30000 + o.toNat) = some (.errors v o))
    ∧ (∀ (core : BitVec 6) (o : BitVec 12) (fn : Fn), core.toNat < 48 →
        bar2Reg fn (4096 * core.toNat + o.toNat) = some (.debug core o))
    ∧ (∀ (tag : BitVec 16) (e : BitVec 12), reads .pf .pf (.launchTable tag e) (x &&& 0x800FFFFFFFFF1FFF#64))
    ∧ (∀ e : BitVec 12, reads .mgmt .mgmt (.route e 0) (x &&& 0xC00FFFFFFFFFFFFF#64)
        ∧ reads .mgmt .mgmt (.route e 1) (x &&& 0xFFFFFFFFC0000000#64))
    ∧ exec (.registerWrite (.vf n) (.time v 8) x) s = .next s
    ∧ exec (.registerWrite .pf (.telemetry 0) x) s = .next s ∧ exec (.registerWrite .pf (.mgmt 0x100) x) s = .next s
    ∧ ((s.queueAt q.toNat).vf.toNat ≠ n.toNat → ∀ off, exec (.registerWrite (.vf n) (.queue q off) x) s = .next s)
    ∧ (s.boot.recovery = false → x.getLsbD 0 = true → ∃ s', exec (.registerWrite (.vf v) (.errors v 0x38) x) s = .next s'
        ∧ ∀ off, s'.readRegister (.vf v) (.errors v off) = 0)

/-- R7, R463 to R468: time, the clock and the registers. -/
def Obligations.TimeAndRegisters : Prop := Claims.TimeAndClock ∧ Claims.RegisterWrites

/-! ### Decoding -/

/-- R147, R152: words written out from the encodings, with the instructions that they stand for (a lane word's fields in the
order MASK, RND, TYPE, SAT, D, A, B, STALL, POST, REUSE, MOD, IMM), and the scalar OP codes that
R147 leaves unassigned. -/
def Obligations.DecodeWords : Prop :=
  (∀ x ∈ ([(0x01208100, .iadd 18 2 1), (0x15A68004, .xori 26 26 4), (0x40400003, .brCc 1 3), (0x51068002, .ldS 16 26 0 0 0 2),
            (0x54B30D47, .ldG 11 12 13 4 1 3), (0x64B30DB0, .atomFmaxG 11 12 13), (0x70B30D1D, .ffmaF32 11 12 13 5),
            (0x80000040, .lrun 0x40), (0x8CB00003, .tkrd 11 3), (0x9CB00000, .bar 11 0), (0xA0B30D13, .stwait 11 12 13 1),
            (0xA4B30D01, .mwait 11 12 13), (0xA800004C, .fence 4 3), (0xACE30D00, .sub 14 12 13), (0xB4B00200, .cget 11 2),
            (0xBC000001, .halt), (0xFC000001, .ext 1)] : List (Nat × Instr)), decodeTableWord 32 x.1 = some x.2)
  ∧ (∀ x ∈ ([(0x3000_0205_0403_5000_0000_0000, .laneFadd ⟨0, 0, 1, 0, 5, 4, 3, 5, 0, 0, 0, 0⟩),
            (0x2000_1605_E4F0_3000_0000_0013, .laneIcmp ⟨0, 0, 0xB, 0, 5, 0xE4, 0xF0, 3, 0, 0, 0, 0x13⟩),
            (0x8000_0203_F006_0880_0080_0018, .laneLd ⟨0, 0, 1, 0, 3, 0xF0, 6, 0, 17, 0, 0, 0x800018⟩),
            (0x8015_0205_F0EC_0000_0000_001B, .laneSt ⟨5, 0, 1, 0, 5, 0xF0, 0xEC, 0, 0, 0, 0, 0x1B⟩)] : List (Nat × Instr)),
      decodeTableWord 96 x.1 = some x.2)
  ∧ (∀ op ∈ [0x0A, 0x0B, 0x0C, 0x0D, 0x0E, 0x0F, 0x1A, 0x1B, 0x1D, 0x1E, 0x1F, 0x30, 0x31, 0x32, 0x33, 0x34, 0x35, 0x36, 0x37,
            0x38, 0x39, 0x3A, 0x3B, 0x3C, 0x3D, 0x3E], ∀ w : BitVec 26,
      decodeScalar (op * 2 ^ 26 + w.toNat) = .unassignedScalarWord (BitVec.ofNat 32 (op * 2 ^ 26 + w.toNat)))

/-- R141 to R164: decode and encode agree. Every well-formed instruction is read back from its word with every operand, and
every word that decodes is the word of what it decodes to, so that no word stands for two instructions. -/
def Obligations.RoundTrip : Prop :=
  (∀ i : Instr, i.wf = true → i.nbits = 32 → encode i < 2 ^ 32 ∧ decodeScalar (encode i) = i)
  ∧ (∀ i : Instr, i.wf = true → i.nbits = 96 → encode i < 2 ^ 96 ∧ decodeLane (encode i) = .ok i)
  ∧ (∀ i : Instr, i.wf = true → i.nbits ≠ 0 → decodeTableWord i.nbits (encode i) = some i)
  ∧ (∀ w, w < 2 ^ 32 → encode (decodeScalar w) = w)
  ∧ (∀ w i, w < 2 ^ 96 → decodeLane w = .ok i → encode i = w ∧ i.nbits = 96)

/-! ### Steps -/

namespace Sys2Proof.Machine

/-- What follows when a next state is answered. -/
def thenDo (o : Out) (f : State → State) : Out :=
  match o with
  | .next s => .next (f s)
  | .fault f => .fault f
  | .refused r => .refused r

/-- The scalar stream of the current team begins its next instruction, or goes on with one that it has begun: the team runs,
its quarter issues, no cause is pending, no breakpoint of the core that has not been seen to matches and nothing halts it. -/
def State.scalarReady (s : State) : Prop :=
  s.team.runs = true ∧ s.quarterHeld s.team = false ∧ s.team.async = []
    ∧ (s.team.lidx.isSome = true ∨ s.team.pastPoint = true ∨ s.team.bpSkip = some (s.team.pc, none) ∨ s.breakAt s.team none = none)
    ∧ s.haltsAt = false

/-- The lane queue of the current team may issue: the team is resident and not stopped, its quarter issues, and no cause is
pending. -/
def State.laneRuns (s : State) : Prop :=
  s.team.life = .resident ∧ s.team.halted = false ∧ s.team.saveStopped = false ∧ s.quarterHeld s.team = false
    ∧ s.team.async = [] ∧ s.team.haltReq = false ∧ s.team.bpHalt = false

end Sys2Proof.Machine

/-- R37, R48, R141, R146, R168, R185: with a team's scalar stream next, the word that is fetched at its pc is decoded and
runs; what the instruction leaves to the next fetch (came) is taken back first, and completion is noted afterwards. An
instruction that is past its instant goes on without a fetch, and so does an `lrun` whose header has been read. Where a fetch
has to wait nothing runs. -/
def Sys2Proof.Claims.ScalarSteps : Prop :=
  ∀ (s : State) (id : Nat) (rest : List Act), s.script = .scalar id :: rest →
    let u : State := { s with script := rest, cur := id }
    let t : Team := { u.team with came := none }
    let ends (v : State) : State := (v.afterScalar t).endCycle
    u.scalarReady →
    (∀ w i, u.team.going = none → (u.team.lidx = none ∨ u.team.lhdr = none) → u.fetchAt u.team u.team.pc.toNat 4 = .word w →
      decodeScalar w = i → u.badTarget u.team (some i) = false →
      (u.team.lidx = none ∨ (∃ d, i = .lrun d) ∨ ∃ a, i = .lrunr a) → step s = thenDo (exec i (u.setTeam t)) ends)
    ∧ (∀ keys, u.team.going = none → (u.team.lidx = none ∨ u.team.lhdr = none) →
      u.fetchAt u.team u.team.pc.toNat 4 = .waits keys → step s = .next (ends (u.sendTouched id keys)))
    ∧ (∀ w, u.team.going = some w → (u.team.lidx = none ∨ u.team.lhdr = none) →
      step s = thenDo (exec (decodeScalar w.toNat) u) ends)
    ∧ (∀ n b, u.team.lidx = some n → u.team.lhdr = some b →
      step s = .next (ends (u.enqueueFrom b (64 - u.team.laneq.length) n)))

/-- What completion notes, for an instruction that moved the pc without a trap and with STEP = 0: one more instruction ended,
when the quarter last issued, and what. -/
def Sys2Proof.Claims.ScalarCompletion : Prop :=
  ∀ (v : State) (t : Team), Team.trapped t v.team = false → Team.completed t v.team = true → v.team.ended = t.ended →
    t.pstat.stp = false → v.team.stepOnce = false → v.team.haltReq = false →
    v.afterScalar t = v.setTeam { v.team with
      ended := t.ended + 1, lastIssue := max v.team.lastIssue (v.cycle + 1), lastPc := (v.cycle + 1, t.pc), bpSkip := none,
      brkHalt := false, lastRun := if v.team.lastRun = some t.pc then some t.pc else none }

/-- R37, R44, R49, R314: with a lane queue next, its head is decoded and runs when a pipe selects its team, which takes the
pipe for its passes, and a pair word both; else the cycle passes. -/
def Sys2Proof.Claims.LaneSteps : Prop :=
  ∀ (s : State) (id : Nat) (rest : List Act) (e : LaneEntry) (es : List LaneEntry) (i : Instr),
    s.script = .lane id :: rest →
    let u : State := { s with script := rest, cur := id }
    let w := e.word.toNat
    u.laneRuns → u.team.laneq = e :: es →
    (∀ p, u.selectedBy u.team w = some p → decodeLane w = .ok i →
      step s = thenDo (exec i u) fun v =>
        ((v.takePipe u.team.gq p u.team.slot (max v.team.lastIssue (u.cycle + 1)) (w / 2 ^ 92 % 16 == 15)).afterLane u.team e).endCycle)
    ∧ (u.selectedBy u.team w = none → step s = .next u.endCycle)

/-- R49, R314: a pipe that is free selects a Ready team of its quarter, the next resident slot after the one that it selected
last, in round-robin order; a busy pipe selects none. A team whose head neither pipe selects does not issue; classes 8 to A
issue on pipe Y alone, and a pair word when X selects its team. -/
def Sys2Proof.Claims.PipeSelection : Prop :=
  ∀ (s : State) (gq p slot : Nat),
    let x := s.pipe gq p
    let ready (n : Nat) : Prop := ∃ t ∈ s.teams, t.2.gq = gq ∧ t.2.slot = n ∧ s.laneReady p t.2 = true
    (s.cycle < x.free → s.picks gq p = none)
    ∧ (x.free ≤ s.cycle → (s.picks gq p = some slot ↔
        ∃ d, 1 ≤ d ∧ d ≤ 16 ∧ slot = (x.last + d) % 16 ∧ ready slot ∧ ∀ e, 1 ≤ e → e < d → ¬ ready ((x.last + e) % 16)))
    ∧ (∀ (t : Team) (w : Nat), s.selectedBy t w = some p →
        s.picks t.gq p = some t.slot ∧ (w / 2 ^ 92 % 16 = 15 → p = 0) ∧ (8 ≤ w / 2 ^ 92 % 16 → w / 2 ^ 92 % 16 ≤ 10 → p = 1))

/-- A hardware event that is next runs on its subject, and a write of the host at an offset of a BAR that names a register is
a write of that register. -/
def Sys2Proof.Claims.EventSteps : Prop :=
  ∀ (s : State) (rest : List Act),
    (∀ i unit item, s.script = .event i unit item :: rest →
      step s = thenDo (exec i { s with script := rest, unit := unit, item := item }) State.endCycle)
    ∧ ∀ fn two off x reg, s.script = .bar fn two off x :: rest → barReg fn two off = some reg →
      step s = thenDo (exec (.registerWrite fn reg x) { s with script := rest }) State.endCycle

/-- A step runs the decoded instruction. What is next, the script of State, is the model's own input (log entry 1). -/
def Obligations.StepRunsDecoded : Prop :=
  Claims.ScalarSteps ∧ Claims.ScalarCompletion ∧ Claims.LaneSteps ∧ Claims.PipeSelection ∧ Claims.EventSteps

/-! ### Reset -/

/-- What the registers and the tables hold right after reset: the values of the Reset columns. -/
def Obligations.ResetState : Prop :=
  let s := State.reset
  Canonical s ∧ (∀ id, s.teamAt id = {}) ∧ (∀ k, s.byte k = 0) ∧ s.ticks = 0 ∧ s.now = 0 ∧ s.boot.done = false
    ∧ (∀ kind n, (s.owner kind n).tag = 0) ∧ (∀ n, (s.keySlot n).valid = false)
        ∧ (∀ e, (s.post e).state = 0 ∧ (s.post e).gen = 0)
    ∧ (∀ q off, s.readRegister .pf (.queue q off)
        = if off = 0x00 then 0xFF else if off = 0x10 then 4000000 else if off = 0x20 then 40000 else if off = 0x28 then 400000
          else 0)
    ∧ (∀ off, s.readRegister .mgmt (.mgmt off) = 0)
    ∧ (∀ core off, s.readRegister .pf (.debug core off)
        = if off = 0x100 ∨ off = 0x120 ∨ off = 0x140 then 0xFFFF
          else if off = 0x300 ∨ off = 0x340 ∨ off = 0x380 ∨ off = 0x3C0 then 16 else 0)
    ∧ (∀ vf off, s.readRegister (.vf vf) (.errors vf off) = 0)
    ∧ (∀ vf off, s.readRegister (.vf vf) (.time vf off) = if off = 0x10 then 0x100000000 else 0)
    ∧ (∀ off, s.readRegister .pf (.telemetry off) = if off = 0 then 2800 else if off = 0x40 then 4000 else 0)
    ∧ (∀ tag n, s.readRegister .pf (.launchTable tag n) = 0) ∧ ∀ n w, s.readRegister .mgmt (.route n w) = 0

/-! ### Whole-machine rules -/

/-- Every step keeps the tables of the machine in their canonical form: memory, translation buffers, teams and groups. -/
def Obligations.StepKeepsCanonical : Prop :=
  ∀ s s' : State, Canonical s → step s = .next s' → Canonical s'

namespace Sys2Proof.Machine

/-- Instructions whose own step reaches beyond their team: a barrier and an end release others, and `launch` and `halt` store
a status and a completion word. -/
def Instr.reachesOut : Instr → Bool
  | .bar _ _ | .barGang _ _ | .halt | .launch _ _ => true
  | _ => false

/-- A crewed matrix instruction (R291): when its tile has been seized, the commands of the crew's other members are cancelled.
-/
def Instr.crewedCommand : Instr → Bool
  | .mma f | .mmloop f => f.mod.getLsbD 5
  | _ => false

end Sys2Proof.Machine

/-- R20, R122, R304: an instruction of a team, when it executes, changes no byte of memory (what it stores stands in the
store-delay queue), no other team (but for the tokens that fall when a crewed matrix instruction whose tile has been seized is
cancelled in every member, the choice of log entry 79), no ownership entry, no tile, and no translation entry but by `tlbw`
and `tlbi`; it never changes the TAG, the WORLD or the place of its team. Where it reads a line whose tag fails (R412), the
frame is marked POISON and INTEGRITY pends in other teams, and nothing else of either changes. -/
def Obligations.InstructionsStayInside : Prop :=
  ∀ (i : Instr) (s s' : State), i.nbits ≠ 0 → Instr.reachesOut i = false → exec i s = .next s' →
    (s.tampers = [] → s'.mem = s.mem ∧ s'.owners = s.owners
      ∧ (Instr.crewedCommand i = false → ∀ id, id ≠ s.cur → s'.teamAt id = s.teamAt id)
      ∧ ∀ id, id ≠ s.cur → ∃ a b c, s'.teamAt id = { s.teamAt id with tok := a, pend := b, frame := c })
    ∧ (∀ id, id ≠ s.cur → ∃ a b c d, s'.teamAt id = { s.teamAt id with tok := a, pend := b, frame := c, async := d })
    ∧ (∀ kind n, ∃ b, s'.owner kind n = { s.owner kind n with poison := b }) ∧ s'.tiles = s.tiles
    ∧ ((∀ d a b, i ≠ .tlbw d a b) → (∀ a, i ≠ .tlbi a) → s'.tlb = s.tlb)
    ∧ s'.team.pstat.tag = s.team.pstat.tag ∧ s'.team.pstat.world = s.team.pstat.world
    ∧ s'.team.core = s.team.core ∧ s'.team.quarter = s.team.quarter ∧ s'.team.slot = s.team.slot
    ∧ (s.team.pstat.pl = 0#2 → s'.team.pstat.pl = 0#2
        ∨ (s'.team.pstat.inh = true ∧ s'.team.pc = (s.groupAt s.team.group).handler))
end

