-- ==== Sys2Proof/Laws/Canonical.lean ====
section
/-!
SUPPORT. Laws/Canonical.lean: every operation over memory and every other shared operation of State keeps the canonical form
of memory, of the TLB and of the tables of teams and groups: one lemma per operation, named after it.
-/

set_option maxRecDepth 100000

namespace Sys2Proof.Laws

set_option Elab.async false

open Sys2Proof Sys2Proof.Machine

variable {s : State}

/-- A state that differs in other tables only is canonical too. -/
theorem canonical_congr {s s' : State} (h : Canonical s) (hm : s'.mem = s.mem) (ht : s'.tlb = s.tlb) (hts : s'.teams =
    s.teams) (hg : s'.groups = s.groups) : Canonical s' :=
  ⟨hm ▸ h.mem, ht ▸ h.tlb, hts ▸ h.teams, hg ▸ h.groups⟩

/-- Memory after reset lists nothing, so it is in the form. -/
theorem memory_reset_wf : Memory.wf State.reset.mem := by decide

/-- The canonical form, table by table. -/
theorem canonical_iff (s : State) : Canonical s ↔ Memory.wf s.mem ∧ Store.wf ({} : TlbEntry) s.tlb = true ∧ Store.wf
    ({} : Team) s.teams = true ∧ Store.wf ({} : Group) s.groups = true :=
  ⟨fun h => ⟨h.mem, h.tlb, h.teams, h.groups⟩, fun ⟨a, b, c, d⟩ => ⟨a, b, c, d⟩⟩

/-- A fold keeps what each of its steps keeps. -/
theorem canonical_foldl {α : Type} (l : List α) (f : State → α → State) (hf : ∀ s a, Canonical s → Canonical (f s a))
    (s : State) (h : Canonical s) :
    Canonical (l.foldl f s) := by
  induction l generalizing s with
  | nil => exact h
  | cons a l ih => exact ih _ (hf s a h)

theorem canonical_putTeam (a b) (h : Canonical s) : Canonical (State.putTeam s a b) :=
  ⟨h.mem, h.tlb, Store.wf_set _ _ _ _ h.teams, h.groups⟩

theorem canonical_modTeam (a b) (h : Canonical s) : Canonical (State.modTeam s a b) := by
  unfold State.modTeam
  grind -ring -linarith -lia -order -ac [canonical_iff, canonical_putTeam]

theorem canonical_setTeam (a) (h : Canonical s) : Canonical (State.setTeam s a) := by
  unfold State.setTeam
  grind -ring -linarith -lia -order -ac [canonical_iff, canonical_putTeam]

theorem canonical_upd (a) (h : Canonical s) : Canonical (State.upd s a) := by
  unfold State.upd
  grind -ring -linarith -lia -order -ac [canonical_iff, canonical_setTeam]

theorem canonical_putGroup (a b) (h : Canonical s) : Canonical (State.putGroup s a b) :=
  ⟨h.mem, h.tlb, h.teams, Store.wf_set _ _ _ _ h.groups⟩

theorem canonical_putTile (a b) (h : Canonical s) : Canonical (State.putTile s a b) := by
  unfold State.putTile
  grind -ring -linarith -lia -order -ac [canonical_iff]

theorem canonical_putChannel (a b) (h : Canonical s) : Canonical (State.putChannel s a b) := by
  unfold State.putChannel
  grind -ring -linarith -lia -order -ac [canonical_iff]

theorem canonical_putSequencer (a b) (h : Canonical s) : Canonical (State.putSequencer s a b) := by
  unfold State.putSequencer
  grind -ring -linarith -lia -order -ac [canonical_iff]

theorem canonical_putRedLines (a b) (h : Canonical s) : Canonical (State.putRedLines s a b) := by
  unfold State.putRedLines
  grind -ring -linarith -lia -order -ac [canonical_iff]

theorem canonical_putDbg (a b) (h : Canonical s) : Canonical (State.putDbg s a b) := by
  unfold State.putDbg
  grind -ring -linarith -lia -order -ac [canonical_iff]

theorem canonical_countErr (a b c) (h : Canonical s) : Canonical (State.countErr s a b c) := by
  refine canonical_foldl _ _ ?_ _ h; intro s f h; exact ⟨h.mem, h.tlb, h.teams, h.groups⟩

theorem canonical_countTags (a b c) (h : Canonical s) : Canonical (State.countTags s a b c) := by
  refine canonical_foldl _ _ ?_ _ h; intro s f h; exact ⟨h.mem, h.tlb, h.teams, h.groups⟩

theorem canonical_countLife (a b c d) (h : Canonical s) : Canonical (State.countLife s a b c d) := by
  unfold State.countLife
  grind -ring -linarith -lia -order -ac [canonical_iff]

theorem canonical_noteUnit (a b) (h : Canonical s) : Canonical (State.noteUnit s a b) := by
  unfold State.noteUnit
  grind -ring -linarith -lia -order -ac [canonical_iff]

theorem canonical_noteError (a b c) (h : Canonical s) : Canonical (State.noteError s a b c) := by
  unfold State.noteError
  grind -ring -linarith -lia -order -ac [canonical_iff, canonical_countLife, canonical_noteUnit]

theorem canonical_countEvent (a b c d) (h : Canonical s) : Canonical (State.countEvent s a b c d) := by
  unfold State.countEvent
  grind -ring -linarith -lia -order -ac [canonical_iff, canonical_putDbg]

theorem canonical_putPost (a b) (h : Canonical s) : Canonical (State.putPost s a b) := by
  unfold State.putPost
  grind -ring -linarith -lia -order -ac [canonical_iff, canonical_countEvent]

theorem canonical_traceTeam (a b c d e) (h : Canonical s) : Canonical (State.traceTeam s a b c d e) := by
  unfold State.traceTeam
  grind -ring -linarith -lia -order -ac [canonical_iff, canonical_setTeam]

theorem canonical_killWarp (a b) (h : Canonical s) : Canonical (State.killWarp s a b) := by
  unfold State.killWarp
  grind -ring -linarith -lia -order -ac [canonical_iff, canonical_putTeam, canonical_countErr, canonical_putGroup]

theorem canonical_fresh (h : Canonical s) : Canonical (State.fresh s) := by
  unfold State.fresh
  grind -ring -linarith -lia -order -ac [canonical_iff]

theorem canonical_cancelOrphans (h : Canonical s) : Canonical (State.cancelOrphans s) := by
  unfold State.cancelOrphans
  grind -ring -linarith -lia -order -ac [canonical_iff, canonical_putSequencer, canonical_setTeam]

theorem canonical_enterTrap (a) (h : Canonical s) : Canonical (State.enterTrap s a) := by
  unfold State.enterTrap
  grind -ring -linarith -lia -order -ac [canonical_iff, canonical_upd, canonical_traceTeam, canonical_countEvent]

theorem canonical_escalate (a b) (h : Canonical s) : Canonical (State.escalate s a b) := by
  unfold State.escalate
  grind -ring -linarith -lia -order -ac [canonical_iff, canonical_upd]

theorem canonical_completeEntry (h : Canonical s) : Canonical (State.completeEntry s) := by
  unfold State.completeEntry
  grind -ring -linarith -lia -order -ac [canonical_iff, canonical_escalate, canonical_cancelOrphans, canonical_enterTrap]

theorem canonical_raise (a) (h : Canonical s) : Canonical (State.raise s a) := by
  unfold State.raise
  grind -ring -linarith -lia -order -ac [canonical_iff, canonical_completeEntry, canonical_upd]

theorem canonical_trap (a b) (h : Canonical s) : Canonical (State.trap s a b) := by
  unfold State.trap
  grind -ring -linarith -lia -order -ac [canonical_iff, canonical_raise]

theorem canonical_trapHere (a b c) (h : Canonical s) : Canonical (State.trapHere s a b c) := canonical_raise _ h

theorem canonical_trapVec (a b c) (h : Canonical s) : Canonical (State.trapVec s a b c) := by
  unfold State.trapVec
  grind -ring -linarith -lia -order -ac [canonical_iff, canonical_raise]

theorem canonical_trapLane (a b c d) (h : Canonical s) : Canonical (State.trapLane s a b c d) := by
  unfold State.trapLane
  grind -ring -linarith -lia -order -ac [canonical_iff, canonical_upd, canonical_raise]

theorem canonical_trapEnqueue (a b c d e) (h : Canonical s) : Canonical (State.trapEnqueue s a b c d e) := by
  unfold State.trapEnqueue
  grind -ring -linarith -lia -order -ac [canonical_iff, canonical_raise]

theorem canonical_illegal (a) (h : Canonical s) : Canonical (State.illegal s a) := by
  unfold State.illegal
  grind -ring -linarith -lia -order -ac [canonical_iff, canonical_trap]

theorem canonical_priv (a) (h : Canonical s) : Canonical (State.priv s a) := by
  unfold State.priv
  grind -ring -linarith -lia -order -ac [canonical_iff, canonical_trap]

theorem canonical_setByte (a b) (h : Canonical s) : Canonical (State.setByte s a b) :=
  ⟨Store.wf_set _ _ _ _ h.mem, h.tlb, h.teams, h.groups⟩

theorem canonical_setBytes (a) (h : Canonical s) : Canonical (State.setBytes s a) :=
  ⟨Store.wf_setAll _ _ _ h.mem, h.tlb, h.teams, h.groups⟩

theorem canonical_setPoison (a b) (h : Canonical s) : Canonical (State.setPoison s a b) := by
  unfold State.setPoison
  grind -ring -linarith -lia -order -ac [canonical_iff]

theorem canonical_curePoison (a) (h : Canonical s) : Canonical (State.curePoison s a) := by
  unfold State.curePoison
  repeat' (first | with_reducible assumption | dsimp only | with_reducible apply canonical_setPoison |
    (with_reducible refine canonical_foldl _ _ ?_ _ ?_; intro s a h) | split)

theorem canonical_sendLines (a) (h : Canonical s) : Canonical (State.sendLines s a) := by
  unfold State.sendLines
  grind -ring -linarith -lia -order -ac [canonical_iff]

theorem canonical_setOwner (a b c) (h : Canonical s) : Canonical (State.setOwner s a b c) :=
  canonical_congr h rfl rfl rfl rfl

theorem canonical_sendTouched (a b) (h : Canonical s) : Canonical (State.sendTouched s a b) := by
  unfold State.sendTouched
  grind -ring -linarith -lia -order -ac [canonical_iff, canonical_sendLines]

theorem canonical_poisonSectors (a) (h : Canonical s) : Canonical (State.poisonSectors s a) := by
  unfold State.poisonSectors
  repeat' (first | with_reducible assumption | dsimp only | with_reducible apply canonical_countErr | with_reducible apply
      canonical_setPoison |
    (with_reducible refine canonical_foldl _ _ ?_ _ ?_; intro s a h))

theorem canonical_deliverCause (a b c) (h : Canonical s) : Canonical (State.deliverCause s a b c) := by
  unfold State.deliverCause
  grind -ring -linarith -lia -order -ac [canonical_iff, canonical_putTeam, canonical_setBytes]

theorem canonical_frameFails (a b) (h : Canonical s) : Canonical (State.frameFails s a b) := by
  unfold State.frameFails
  repeat' (first | with_reducible assumption | dsimp only | with_reducible apply canonical_deliverCause | with_reducible
      apply canonical_countErr | with_reducible apply canonical_noteError | with_reducible apply canonical_setPoison |
      with_reducible apply canonical_setOwner |
    (with_reducible refine canonical_foldl _ _ ?_ _ ?_; intro s a h))

theorem canonical_integrity (a) (h : Canonical s) : Canonical (State.integrity s a) := canonical_frameFails _ _ h

/-- The list of changed lines is in no table. -/
theorem canonical_noteTamper (l) (h : Canonical s) : Canonical { s with tampers := l } := canonical_congr h rfl rfl rfl rfl

theorem canonical_tagFails (a) (h : Canonical s) : Canonical (State.tagFails s a) := by
  unfold State.tagFails
  split
  · exact canonical_frameFails _ _ (canonical_noteTamper _ h)
  · exact h

theorem canonical_checkTags (a) (h : Canonical s) : Canonical (State.checkTags s a) :=
  canonical_foldl _ _ (fun _ _ h => canonical_tagFails _ h) _ h

theorem canonical_freshTags (a) (h : Canonical s) : Canonical (State.freshTags s a) := canonical_noteTamper _ h

theorem canonical_regOp (a b c d) (h : Canonical s) : Canonical (State.regOp s a b c d) := by
  unfold State.regOp
  grind -ring -linarith -lia -order -ac [canonical_iff, canonical_upd]

theorem canonical_regOp1 (a b c) (h : Canonical s) : Canonical (State.regOp1 s a b c) := by
  unfold State.regOp1
  grind -ring -linarith -lia -order -ac [canonical_iff, canonical_upd]

theorem canonical_divOp (a b c d) (h : Canonical s) : Canonical (State.divOp s a b c d) := by
  unfold State.divOp
  grind -ring -linarith -lia -order -ac [canonical_iff, canonical_trap, canonical_regOp]

theorem canonical_addImm (a b c d) (h : Canonical s) : Canonical (State.addImm s a b c d) := by
  unfold State.addImm
  grind -ring -linarith -lia -order -ac [canonical_iff, canonical_upd]

theorem canonical_cmpImm (a b c) (h : Canonical s) : Canonical (State.cmpImm s a b c) := by
  unfold State.cmpImm
  grind -ring -linarith -lia -order -ac [canonical_iff, canonical_upd]

theorem canonical_immOp (a b c d e) (h : Canonical s) : Canonical (State.immOp s a b c d e) := by
  unfold State.immOp
  grind -ring -linarith -lia -order -ac [canonical_iff, canonical_upd]

theorem canonical_fpOp (a b c d e) (h : Canonical s) : Canonical (State.fpOp s a b c d e) := by
  unfold State.fpOp
  grind -ring -linarith -lia -order -ac [canonical_iff, canonical_upd]

theorem canonical_fpMinMax (a b c d) (h : Canonical s) : Canonical (State.fpMinMax s a b c d) := by
  unfold State.fpMinMax
  grind -ring -linarith -lia -order -ac [canonical_iff, canonical_upd]

theorem canonical_breakpoint (a) (h : Canonical s) : Canonical (State.breakpoint s a).1 := by
  unfold State.breakpoint
  grind -ring -linarith -lia -order -ac [canonical_iff, canonical_upd, canonical_traceTeam]

theorem canonical_jumpTo (a b) (h : Canonical s) : Canonical (State.jumpTo s a b) := by
  unfold State.jumpTo
  grind -ring -linarith -lia -order -ac [canonical_iff, canonical_trap, canonical_upd]

theorem canonical_poisonStop (a b) (h : Canonical s) : Canonical (State.poisonStop s a b) := by
  unfold State.poisonStop
  grind -ring -linarith -lia -order -ac [canonical_iff, canonical_escalate, canonical_checkTags]

theorem canonical_prefixed (a b) (h : Canonical s) : Canonical (State.prefixed s a b) := by
  unfold State.prefixed
  grind -ring -linarith -lia -order -ac [canonical_iff, canonical_addImm, canonical_immOp, canonical_cmpImm,
      canonical_illegal]

theorem canonical_enqueueOne (a b) (h : Canonical s) : Canonical (State.enqueueOne s a b).1 := by
  unfold State.enqueueOne
  grind -ring -linarith -lia -order -ac [canonical_iff, canonical_upd, canonical_checkTags, canonical_sendTouched, canonical_trapEnqueue, canonical_escalate, canonical_setTeam]

theorem canonical_enqueueFrom (a b c) (h : Canonical s) : Canonical (State.enqueueFrom s a b c) := by
  induction b generalizing s c with
  | zero => exact canonical_upd _ h
  | succ n ih =>
    have hb := canonical_breakpoint (some c) h
    unfold State.enqueueFrom
    repeat' (first | with_reducible assumption | dsimp only | with_reducible apply canonical_upd | with_reducible apply ih |
      with_reducible apply canonical_enqueueOne | split)

theorem canonical_runBlock (a b) (h : Canonical s) : Canonical (State.runBlock s a b) := by
  unfold State.runBlock
  grind -ring -linarith -lia -order -ac [canonical_iff, canonical_checkTags, canonical_sendTouched, canonical_enqueueFrom, canonical_trapHere, canonical_escalate,
      canonical_upd]

theorem canonical_endLane (a b c) (h : Canonical s) : Canonical (State.endLane s a b c) := by
  unfold State.endLane
  grind -ring -linarith -lia -order -ac [canonical_iff, canonical_countEvent, canonical_fresh, canonical_setTeam]

/-- Where a lane instruction does not start (R404, R158, R49), its trap keeps the form. -/
theorem canonical_beginLane {i : Instr} {o : LaneOp} {quad : Bool} {rl : Ctx → BitVec 8 → Pass → List Nat}
    {wl : Ctx → Pass → List Nat} {s' : State} (h : Canonical s) (hb : s.beginLane i o quad rl wl = .error s') : Canonical
        s' := by
  unfold State.beginLane at hb
  dsimp only at hb
  repeat' (split at hb)
  all_goals (try cases hb)
  all_goals (first | exact h | exact canonical_trapLane _ _ _ _ h | exact canonical_sendTouched _ _ h)

theorem canonical_issueFixed (a b c) (h : Canonical s) : Canonical (State.issueFixed s a b c) := by
  unfold State.issueFixed
  split
  · next hb => exact canonical_beginLane h hb
  · clear * - h
    repeat' (first | with_reducible assumption | dsimp only | with_reducible apply canonical_checkTags | with_reducible apply canonical_trapLane |
      with_reducible apply canonical_sendTouched |
      with_reducible apply canonical_killWarp | with_reducible apply canonical_endLane |
      (with_reducible refine canonical_foldl _ _ ?_ _ ?_; intro s a h) | split)

theorem canonical_issuePair (a b c d e) (h : Canonical s) : Canonical (State.issuePair s a b c d e) := by
  unfold State.issuePair
  grind -ring -linarith -lia -order -ac [canonical_iff, canonical_trapLane, canonical_countEvent, canonical_fresh,
      canonical_setTeam]

theorem canonical_forwardWrite (a) (h : Canonical s) : Canonical (State.forwardWrite s a) := by
  unfold State.forwardWrite
  repeat' (first | with_reducible assumption | dsimp only | with_reducible apply canonical_putPost |
    (with_reducible refine canonical_foldl _ _ ?_ _ ?_; intro s a h) | split)

theorem canonical_wakeWatchers (a) (h : Canonical s) : Canonical (State.wakeWatchers s a) := by
  unfold State.wakeWatchers
  repeat' (first | with_reducible assumption | dsimp only | with_reducible apply canonical_putTeam |
    (with_reducible refine canonical_foldl _ _ ?_ _ ?_; intro s a h) | split)

theorem canonical_perform (a b) (h : Canonical s) : Canonical (State.perform s a b) := by
  unfold State.perform
  grind -ring -linarith -lia -order -ac [canonical_iff, canonical_freshTags, canonical_wakeWatchers, canonical_curePoison,
      canonical_setBytes, canonical_forwardWrite]

theorem canonical_wakeStile (a b) (h : Canonical s) : Canonical (State.wakeStile s a b) := by
  unfold State.wakeStile
  repeat' (first | with_reducible assumption | dsimp only | with_reducible apply canonical_putTeam |
    (with_reducible refine canonical_foldl _ _ ?_ _ ?_; intro s a h) | split)

theorem canonical_putStile (a b) (h : Canonical s) : Canonical (State.putStile s a b) := by
  unfold State.putStile
  grind -ring -linarith -lia -order -ac [canonical_iff, canonical_perform]

theorem canonical_changeStile (a b) (h : Canonical s) : Canonical (State.changeStile s a b) := by
  unfold State.changeStile
  grind -ring -linarith -lia -order -ac [canonical_iff, canonical_putStile, canonical_wakeStile]

theorem canonical_expectBytes (a b c d) (h : Canonical s) : Canonical (State.expectBytes s a b c d) := by
  unfold State.expectBytes
  grind -ring -linarith -lia -order -ac [canonical_iff, canonical_putStile, canonical_changeStile]

theorem canonical_arriveStile (a b c) (h : Canonical s) : Canonical (State.arriveStile s a b c) := by
  unfold State.arriveStile
  grind -ring -linarith -lia -order -ac [canonical_iff, canonical_putStile, canonical_changeStile]

theorem canonical_countBytes (a b c d e) (h : Canonical s) : Canonical (State.countBytes s a b c d e) := by
  unfold State.countBytes
  grind -ring -linarith -lia -order -ac [canonical_iff, canonical_changeStile]

theorem canonical_settleStile (a) (h : Canonical s) : Canonical (State.settleStile s a) := by
  unfold State.settleStile
  grind -ring -linarith -lia -order -ac [canonical_iff, canonical_arriveStile, canonical_countBytes]

/-- The waiting stile writes are in no table. -/
theorem canonical_stileWaits (l) (h : Canonical s) : Canonical { s with stileWaits := l } := canonical_congr h rfl rfl rfl rfl

theorem canonical_laterStile (a) (h : Canonical s) : Canonical (State.laterStile s a) := by
  unfold State.laterStile
  split
  · exact canonical_stileWaits _ h
  · exact canonical_settleStile _ h

theorem canonical_retryStiles (h : Canonical s) : Canonical (State.retryStiles s) :=
  canonical_foldl _ _ (fun _ _ h => canonical_laterStile _ h) _ (canonical_stileWaits _ h)

theorem canonical_stileWrite (a b c d) (h : Canonical s) : Canonical (State.stileWrite s a b c d) := by
  unfold State.stileWrite
  grind -ring -linarith -lia -order -ac [canonical_iff, canonical_trap, canonical_poisonStop, canonical_setTeam]

theorem canonical_stileTest (a b c d) (h : Canonical s) : Canonical (State.stileTest s a b c d) := by
  unfold State.stileTest
  grind -ring -linarith -lia -order -ac [canonical_iff, canonical_trap, canonical_poisonStop, canonical_setTeam]

theorem canonical_closeCards (a) (h : Canonical s) : Canonical (State.closeCards s a) := by
  unfold State.closeCards
  repeat' (first | with_reducible assumption | dsimp only | with_reducible apply canonical_putPost |
    (with_reducible refine canonical_foldl _ _ ?_ _ ?_; intro s a h) | split)

theorem canonical_fenceWait (a b) (h : Canonical s) : ∀ s', (State.fenceWait s a b) = some s' → Canonical s' := by
  unfold State.fenceWait
  grind -ring -linarith -lia -order -ac [canonical_iff, canonical_sendLines, canonical_closeCards]

theorem canonical_tryBarrier (a b) (h : Canonical s) : Canonical (State.tryBarrier s a b) := by
  unfold State.tryBarrier
  repeat' (first | with_reducible assumption | dsimp only | with_reducible apply canonical_putGroup |
    with_reducible apply canonical_modTeam | (with_reducible refine canonical_foldl _ _ ?_ _ ?_; intro s a h) | split)

theorem canonical_barrier (a b c d) (h : Canonical s) : Canonical (State.barrier s a b c d) := by
  unfold State.barrier
  grind -ring -linarith -lia -order -ac [canonical_iff, canonical_illegal, canonical_fenceWait, canonical_putGroup,
      canonical_tryBarrier, canonical_upd]

theorem canonical_yieldTest (a b c) (h : Canonical s) : Canonical (State.yieldTest s a b c) := by
  unfold State.yieldTest
  grind -ring -linarith -lia -order -ac [canonical_iff, canonical_setTeam, canonical_trap, canonical_poisonStop]

theorem canonical_postEnd (a b c d) (h : Canonical s) : Canonical (State.postEnd s a b c d) := by
  unfold State.postEnd
  repeat' (first | with_reducible assumption | dsimp only | with_reducible apply canonical_upd |
    with_reducible apply canonical_illegal | with_reducible apply canonical_trap | with_reducible apply canonical_putPost | (split) |
    grind -ring -linarith -lia -order -ac [canonical_iff, canonical_upd, canonical_illegal, canonical_trap,
      canonical_putPost, Store.wf_set, Store.wf_setAll, Store.wf_filter])

theorem canonical_windowStore (a b c d) (h : Canonical s) : Canonical (State.windowStore s a b c d) := by
  unfold State.windowStore
  grind -ring -linarith -lia -order -ac [canonical_iff, canonical_setTeam, canonical_trap, canonical_trapVec,
      canonical_putChannel]

theorem canonical_putWord (a b) (h : Canonical s) : Canonical (State.putWord s a b) := by
  unfold State.putWord
  grind -ring -linarith -lia -order -ac [canonical_iff, canonical_perform]

theorem canonical_recordLost (a b) (h : Canonical s) : Canonical (State.recordLost s a b) := by
  unfold State.recordLost
  split
  · exact h
  · dsimp only
    split
    · exact canonical_congr (canonical_fresh (canonical_perform _ _ h)) rfl rfl rfl rfl
    · exact canonical_putWord _ _ h

theorem canonical_invalidateSlot (a) (h : Canonical s) : Canonical (State.invalidateSlot s a) :=
  ⟨h.mem, Store.wf_set _ _ _ _ h.tlb, h.teams, h.groups⟩

theorem canonical_putTenant (a b) (h : Canonical s) : Canonical (State.putTenant s a b) := by
  unfold State.putTenant
  grind -ring -linarith -lia -order -ac [canonical_iff]

theorem canonical_countRetired (a b) (h : Canonical s) : Canonical (State.countRetired s a b) := by
  unfold State.countRetired
  grind -ring -linarith -lia -order -ac [canonical_iff, canonical_countErr]

/-- Noting a torn entry in the waits for it keeps the canonical form of the teams. -/
theorem teams_flush_wf (f : Nat × Bool → Nat × Bool) (ts : List (Nat × Team)) (h : Store.wf ({} : Team) ts = true) :
    Store.wf ({} : Team) (ts.map fun t => (t.1, { t.2 with flush := t.2.flush.map f })) = true := by
  refine Store.wf_map _ _ _ (fun _ => rfl) ?_ h
  rintro ⟨k, t⟩ he
  have hf : t.flush = none := by simpa using congrArg Team.flush he
  have : { t with flush := t.flush.map f } = t := by rw [hf]; cases t; simp_all
  exact this.symm.trans he

theorem canonical_tearDown (a) (h : Canonical s) : Canonical (State.tearDown s a) := by
  unfold State.tearDown
  dsimp only
  split
  · exact h
  · have hp : Canonical (s.putPost a { s.post a with
        state := 2, openCard := none, closed := [], dropped := BitVec.ofNat 32 ((s.post a).closed.length + (if (s.post a).openCard.isSome then 1 else 0)) }) :=
      canonical_putPost _ _ h
    exact canonical_countErr _ _ _ ⟨hp.mem, hp.tlb, teams_flush_wf _ _ hp.teams, hp.groups⟩

theorem canonical_recordTorn (a b c) (h : Canonical s) : Canonical (State.recordTorn s a b c) :=
  canonical_recordLost _ _ h

theorem canonical_unmap (a b) (h : Canonical s) : Canonical (State.unmap s a b) :=
  ⟨h.mem, Store.wf_setAll _ _ _ rfl, h.teams, h.groups⟩

theorem canonical_takeEntry (a b c) (h : Canonical s) : Canonical (State.takeEntry s a b c) := by
  unfold State.takeEntry
  dsimp only
  split
  · exact canonical_congr (canonical_unmap _ _ h) rfl rfl rfl rfl
  split
  · exact canonical_tearDown _ h
  apply canonical_setOwner
  split
  · exact canonical_unmap _ _ h
  split
  · exact canonical_invalidateSlot _ h
  · exact h

theorem canonical_seize (a) (h : Canonical s) : Canonical (State.seize s a).1 :=
  canonical_countRetired _ _ (canonical_takeEntry _ _ _ h)

theorem canonical_takeReply (a b) (h : Canonical s) : Canonical (State.takeReply s a b) := by
  unfold State.takeReply
  refine canonical_foldl _ _ ?_ _ (canonical_congr h rfl rfl rfl rfl)
  intro s r h
  dsimp only
  split
  · exact h
  · exact canonical_congr (canonical_seize _ h) rfl rfl rfl rfl

theorem canonical_noteReply (a b) (h : Canonical s) : Canonical (State.noteReply s a b) := by
  unfold State.noteReply
  split
  · exact h
  · refine canonical_foldl _ _ ?_ _ h
    intro s p h
    exact canonical_takeReply _ _ (canonical_congr h rfl rfl rfl rfl)

theorem canonical_atUnit (h : Canonical s) : Canonical (State.atUnit s) := by
  unfold State.atUnit
  grind -ring -linarith -lia -order -ac [canonical_iff]

theorem canonical_killAll (a) (h : Canonical s) : Canonical (State.killAll s a) := by
  unfold State.killAll
  repeat' (first | with_reducible assumption | dsimp only | with_reducible apply canonical_killWarp |
    (with_reducible refine canonical_foldl _ _ ?_ _ ?_; intro s a h))

theorem canonical_noteOlds (a) (h : Canonical s) : Canonical (State.noteOlds s a) := by
  unfold State.noteOlds
  grind -ring -linarith -lia -order -ac [canonical_iff, canonical_putSequencer]

theorem canonical_deliver (a) (h : Canonical s) : Canonical (State.deliver s a) := by
  unfold State.deliver
  grind -ring -linarith -lia -order -ac [canonical_iff, canonical_noteOlds, canonical_setTeam, canonical_killAll]

theorem canonical_deliverKind (a) (h : Canonical s) : Canonical (State.deliverKind s a) := by
  unfold State.deliverKind
  grind -ring -linarith -lia -order -ac [canonical_iff, canonical_atUnit, canonical_deliver]

theorem canonical_countDrain (a b) (h : Canonical s) : Canonical (State.countDrain s a b) := by
  unfold State.countDrain
  grind -ring -linarith -lia -order -ac [canonical_iff]

theorem canonical_loseWrite (a b) (h : Canonical s) : Canonical (State.loseWrite s a b) := by
  unfold State.loseWrite
  grind -ring -linarith -lia -order -ac [canonical_iff, canonical_countDrain, canonical_trap, canonical_setTeam]

theorem canonical_bufferReduction (a b) (h : Canonical s) : Canonical (State.bufferReduction s a b) := by
  unfold State.bufferReduction
  grind -ring -linarith -lia -order -ac [canonical_iff, canonical_setTeam, canonical_putRedLines, canonical_sendLines]

theorem canonical_releaseWait (a) (h : Canonical s) : ∀ s', (State.releaseWait s a) = some s' → Canonical s' := by
  unfold State.releaseWait
  grind -ring -linarith -lia -order -ac [canonical_iff, canonical_sendLines, canonical_closeCards]

theorem canonical_depart (a b) (h : Canonical s) : Canonical (State.depart s a b) := by
  unfold State.depart
  grind -ring -linarith -lia -order -ac [canonical_iff, canonical_bufferReduction, canonical_releaseWait,
      canonical_setTeam, canonical_putChannel, canonical_loseWrite]

theorem canonical_performAtomic (a b) (h : Canonical s) : Canonical (State.performAtomic s a b) := by
  unfold State.performAtomic
  grind -ring -linarith -lia -order -ac [canonical_iff, canonical_checkTags, canonical_setTeam, canonical_poisonStop, canonical_perform]

theorem canonical_performElem (a b) (h : Canonical s) : Canonical (State.performElem s a b) := by
  unfold State.performElem
  grind -ring -linarith -lia -order -ac [canonical_iff, canonical_checkTags, canonical_countErr, canonical_perform]

theorem canonical_traceOut (a b) (h : Canonical s) : Canonical (State.traceOut s a b) := by
  unfold State.traceOut
  grind -ring -linarith -lia -order -ac [canonical_iff, canonical_putDbg, canonical_perform]

theorem canonical_performWrite (a) (h : Canonical s) : Canonical (State.performWrite s a) := by
  unfold State.performWrite
  grind -ring -linarith -lia -order -ac [canonical_iff, canonical_performAtomic, canonical_setTeam, canonical_noteReply,
      canonical_perform, canonical_countErr, canonical_performElem, canonical_putChannel, canonical_arriveStile,
      canonical_expectBytes, canonical_traceOut]

theorem canonical_countFinding (a b) (h : Canonical s) : Canonical (State.countFinding s a b) := by
  unfold State.countFinding
  grind -ring -linarith -lia -order -ac [canonical_iff, canonical_countErr, canonical_noteError]

theorem canonical_setCmd (a b) (h : Canonical s) : Canonical (State.setCmd s a b) := by
  unfold State.setCmd
  grind -ring -linarith -lia -order -ac [canonical_iff, canonical_putSequencer]

theorem canonical_dropCmd (a b) (h : Canonical s) : Canonical (State.dropCmd s a b) := by
  unfold State.dropCmd
  grind -ring -linarith -lia -order -ac [canonical_iff, canonical_putSequencer]

theorem canonical_noteReads (a b) (h : Canonical s) : Canonical (State.noteReads s a b) := canonical_putTeam _ _ h

theorem canonical_cancelCmd (a b) (h : Canonical s) : Canonical (State.cancelCmd s a b) := by
  unfold State.cancelCmd
  grind -ring -linarith -lia -order -ac [canonical_iff, canonical_dropCmd, canonical_putTeam, canonical_noteReads]

theorem canonical_cancelCrew (a b) (h : Canonical s) : Canonical (State.cancelCrew s a b) := by
  unfold State.cancelCrew
  repeat' (first | with_reducible assumption | dsimp only | with_reducible apply canonical_cancelCmd |
    with_reducible apply canonical_putGroup | (with_reducible refine canonical_foldl _ _ ?_ _ ?_; intro s a h) | split)

theorem canonical_issueMatrix (a b c d) (h : Canonical s) : Canonical (State.issueMatrix s a b c d) := by
  unfold State.issueMatrix
  dsimp only
  repeat' (first | with_reducible assumption | with_reducible apply canonical_trapLane |
    with_reducible apply canonical_cancelCrew | with_reducible apply canonical_endLane |
    with_reducible apply canonical_putSequencer | split)

theorem canonical_startCmd (a b) (h : Canonical s) : Canonical (State.startCmd s a b) := by
  unfold State.startCmd
  grind -ring -linarith -lia -order -ac [canonical_iff, canonical_fresh, canonical_putTeam, canonical_setCmd]

theorem canonical_commandWaits (a) (h : Canonical s) : ∀ s', (State.commandWaits s a) = some s' → Canonical s' := by
  unfold State.commandWaits
  grind -ring -linarith -lia -order -ac [canonical_iff, canonical_sendLines]

theorem canonical_stepCmd (a b c d) (h : Canonical s) : Canonical (State.stepCmd s a b c d) := by
  unfold State.stepCmd
  grind -ring -linarith -lia -order -ac [canonical_iff, canonical_noteError, canonical_countErr, canonical_putTile, canonical_countEvent,
      canonical_setCmd]

theorem canonical_endCmd (a b c d) (h : Canonical s) : Canonical (State.endCmd s a b c d) := by
  unfold State.endCmd
  grind -ring -linarith -lia -order -ac [canonical_iff, canonical_dropCmd, canonical_deliver]

theorem canonical_writeLines (a b c) (h : Canonical s) : Canonical (State.writeLines a b c s) := by
  induction c generalizing s with
  | nil => exact canonical_endCmd _ _ _ _ (canonical_setCmd _ _ h)
  | cons x rest ih =>
    unfold State.writeLines
    split
    · exact canonical_setCmd _ _ h
    · exact ih (canonical_poisonSectors _ (canonical_perform _ _ h))

theorem canonical_drain (a b) (h : Canonical s) : Canonical (State.drain s a b) := by
  unfold State.drain
  repeat' (first | with_reducible assumption | dsimp only | with_reducible apply canonical_modTeam |
    with_reducible apply canonical_countFinding | with_reducible apply canonical_putTile |
    with_reducible apply canonical_writeLines | with_reducible apply canonical_endCmd |
    (with_reducible refine canonical_foldl _ _ ?_ _ ?_; intro s a h) | split)

theorem canonical_checkTile (a b) (h : Canonical s) : Canonical (State.checkTile s a b) := by
  unfold State.checkTile
  repeat' (first | with_reducible assumption | dsimp only | with_reducible apply canonical_countFinding |
    with_reducible apply canonical_putTile | with_reducible apply canonical_endCmd |
    (with_reducible refine canonical_foldl _ _ ?_ _ ?_; intro s a h))

theorem canonical_putQueue (a b) (h : Canonical s) : Canonical (State.putQueue s a b) := by
  unfold State.putQueue
  grind -ring -linarith -lia -order -ac [canonical_iff]

theorem canonical_putGrid (a b) (h : Canonical s) : Canonical (State.putGrid s a b) := by
  unfold State.putGrid
  grind -ring -linarith -lia -order -ac [canonical_iff]

theorem canonical_endReplace (a) (h : Canonical s) : Canonical (State.endReplace s a) := by
  unfold State.endReplace
  grind -ring -linarith -lia -order -ac [canonical_iff, canonical_upd, canonical_sendLines]

theorem canonical_replaceSlots (a b) (h : Canonical s) : Canonical (State.replaceSlots s a b) := by
  unfold State.replaceSlots
  dsimp only
  split
  · exact h
  · exact canonical_endReplace _ (canonical_setTeam _ ⟨h.mem, Store.wf_setAll _ _ _ h.tlb, h.teams, h.groups⟩)

theorem canonical_tlbOp (a b) (h : Canonical s) (hf : ∀ t, Canonical (b t)) : Canonical (State.tlbOp s a b) := by
  unfold State.tlbOp
  dsimp only
  split
  · exact canonical_priv _ h
  split
  · exact canonical_endReplace _ h
  · exact hf _

theorem canonical_tlbRead (a b c d) (h : Canonical s) : Canonical (State.tlbRead s a b c d) := by
  unfold State.tlbRead
  grind -ring -linarith -lia -order -ac [canonical_iff, canonical_priv, canonical_illegal, canonical_trap, canonical_setTeam]

theorem canonical_takeCause (h : Canonical s) : ∀ s', (State.takeCause s) = some s' → Canonical s' := by
  unfold State.takeCause
  grind -ring -linarith -lia -order -ac [canonical_iff, canonical_setTeam, canonical_trapLane, canonical_trapHere]

theorem canonical_afterStep (h : Canonical s) : Canonical (State.afterStep s) := by
  unfold State.afterStep
  have h := canonical_upd (fun t => t.addAsync cStep 0) h
  generalize s.upd _ = s at h ⊢
  dsimp only
  split
  · exact h
  · cases hc : s.takeCause with
    | none => exact h
    | some s' => exact canonical_takeCause h s' hc

theorem canonical_afterScalar (a) (h : Canonical s) : Canonical (State.afterScalar s a) := by
  unfold State.afterScalar
  grind -ring -linarith -lia -order -ac [canonical_iff, canonical_setTeam, canonical_afterStep]

theorem canonical_afterLane (a b) (h : Canonical s) : Canonical (State.afterLane s a b) := by
  unfold State.afterLane
  grind -ring -linarith -lia -order -ac [canonical_iff, canonical_afterStep]

theorem canonical_storeDone (a) (h : Canonical s) : Canonical (State.storeDone s a) := by
  unfold State.storeDone
  dsimp only
  split
  · exact h
  · split
    · exact canonical_putWord _ _ h
    · exact canonical_recordLost _ _ h

theorem canonical_freeTiles (a b) (h : Canonical s) : Canonical (State.freeTiles s a b) := by
  refine canonical_foldl _ _ ?_ _ h
  intro s i h
  dsimp only
  split
  · exact canonical_setOwner _ _ _ h
  · exact h

theorem canonical_grantTiles (a b) (h : Canonical s) : Canonical (State.grantTiles s a b) := by
  refine canonical_foldl _ _ ?_ _ h
  intro s i h
  exact canonical_putTile _ _ (canonical_setOwner _ _ _ h)

theorem canonical_endGrid (a) (h : Canonical s) : Canonical (State.endGrid s a) := by
  unfold State.endGrid
  dsimp only
  split
  · exact h
  split
  · exact canonical_closeCards _ h
  · exact canonical_storeDone _ (canonical_putGrid _ _ h)

theorem canonical_endGroup (a) (h : Canonical s) : Canonical (State.endGroup s a) := by
  have h1 : Canonical (((s.groupAt a).quarters.foldl (fun (s : State) q => s.freeTiles a q) s).putGroup a
      { s.groupAt a with alive := false, quarters := [] }) :=
    canonical_putGroup _ _ (canonical_foldl _ _ (fun s q h => canonical_freeTiles _ _ h) _ h)
  have h2 := canonical_congr (s' := { ((s.groupAt a).quarters.foldl (fun (s : State) q => s.freeTiles a q) s).putGroup a
      { s.groupAt a with alive := false, quarters := [] } with roundDue := true }) h1 rfl rfl rfl rfl
  unfold State.endGroup
  dsimp only
  split
  · exact canonical_endGrid _ (canonical_putGrid _ _ h2)
  · exact canonical_putGrid _ _ h2

theorem canonical_freeSack (a) (h : Canonical s) : Canonical (State.freeSack s a) := by
  unfold State.freeSack
  split
  · exact h
  · refine canonical_foldl _ _ ?_ _ h
    intro s i h
    dsimp only
    split
    · exact canonical_setOwner _ _ _ h
    · exact h

theorem canonical_noteSaved (a) (h : Canonical s) : Canonical (State.noteSaved s a) := by
  unfold State.noteSaved
  grind -ring -linarith -lia -order -ac [canonical_iff, canonical_putQueue]

theorem canonical_tryEnd (a) (h : Canonical s) : Canonical (State.tryEnd s a) := by
  unfold State.tryEnd
  split
  · exact canonical_noteSaved _ (canonical_endGroup _ h)
  · exact h

theorem canonical_endGrids (h : Canonical s) : Canonical (State.endGrids s) := by
  refine canonical_foldl _ _ (fun s g h => ?_) _ (canonical_foldl _ _ (fun s g h => ?_) _ h)
  all_goals split
  · exact canonical_endGrid _ h
  · exact h
  · exact h
  · exact canonical_tryEnd _ h

theorem canonical_exitTeam (a b c d) (h : Canonical s) : Canonical (State.exitTeam s a b c d) := by
  unfold State.exitTeam
  repeat' (first | with_reducible assumption | dsimp only | with_reducible apply canonical_traceOut |
    with_reducible apply canonical_putTeam | with_reducible apply canonical_freeSack |
    with_reducible apply canonical_sendLines | with_reducible apply canonical_putGroup |
    with_reducible apply canonical_tryBarrier | with_reducible apply canonical_endGroup |
    with_reducible apply canonical_noteSaved | (with_reducible refine canonical_foldl _ _ ?_ _ ?_; intro s a h) | split)

theorem canonical_setP (a) (h : Canonical s) : Canonical (State.setP s a) := by
  unfold State.setP
  grind -ring -linarith -lia -order -ac [canonical_iff, canonical_putTeam]

theorem canonical_resumeCount (a) (h : Canonical s) : Canonical (State.resumeCount s a) := by
  unfold State.resumeCount
  grind -ring -linarith -lia -order -ac [canonical_iff, canonical_putTeam]

theorem canonical_writeRange (a b c) (h : Canonical s) : Canonical (State.writeRange s a b c) :=
  ⟨Store.wf_setAll _ _ _ (Store.wf_filter _ _ _ h.mem), h.tlb, h.teams, h.groups⟩

theorem canonical_cancelUnstarted (h : Canonical s) : Canonical (State.cancelUnstarted s) := by
  unfold State.cancelUnstarted
  repeat' (first | with_reducible assumption | dsimp only | with_reducible apply canonical_cancelCrew |
    with_reducible apply canonical_cancelCmd | (with_reducible refine canonical_foldl _ _ ?_ _ ?_; intro s a h) | split)

theorem canonical_stopForSave (a) (h : Canonical s) : Canonical (State.stopForSave s a) := by
  unfold State.stopForSave
  grind -ring -linarith -lia -order -ac [canonical_iff, canonical_cancelUnstarted, canonical_upd]

theorem canonical_writeRucksack (a b) (h : Canonical s) : Canonical (State.writeRucksack s a b) := by
  unfold State.writeRucksack
  grind -ring -linarith -lia -order -ac [canonical_iff, canonical_writeRange, canonical_traceOut, canonical_putTeam,
      canonical_putGroup, canonical_freeTiles, canonical_noteSaved]

theorem canonical_pushEscalation (a) (h : Canonical s) : ∀ s', (State.pushEscalation s a) = some s' → Canonical s' := by
  unfold State.pushEscalation
  grind -ring -linarith -lia -order -ac [canonical_iff, canonical_perform]

theorem canonical_recordEscalation (a) (h : Canonical s) : Canonical (State.recordEscalation s a) := by
  unfold State.recordEscalation
  grind -ring -linarith -lia -order -ac [canonical_iff, canonical_pushEscalation, canonical_putTeam]

theorem canonical_loadImages (a) (h : Canonical s) : Canonical (State.loadImages s a) := by
  unfold State.loadImages
  repeat' (first | with_reducible assumption | dsimp only | with_reducible apply canonical_putTile |
    (with_reducible refine canonical_foldl _ _ ?_ _ ?_; intro s a h))

theorem canonical_takeBack (a b c) (h : Canonical s) : Canonical (State.takeBack s a b c) := by
  unfold State.takeBack
  repeat' (first | with_reducible assumption | dsimp only | with_reducible apply canonical_putTeam |
    with_reducible apply canonical_exitTeam | with_reducible apply canonical_recordEscalation |
    with_reducible apply canonical_modTeam | with_reducible apply canonical_traceOut |
    with_reducible apply canonical_killWarp | (with_reducible refine canonical_foldl _ _ ?_ _ ?_; intro s a h) | split)

theorem canonical_restoreTeam (a b c) (h : Canonical s) : Canonical (State.restoreTeam s a b c) :=
  canonical_checkTags _ (canonical_takeBack _ _ _ h)

theorem canonical_submit (a b c d) (h : Canonical s) : Canonical (State.submit s a b c d).1 := by
  unfold State.submit
  grind -ring -linarith -lia -order -ac [canonical_iff, canonical_putQueue, canonical_putGrid, canonical_putWord]

theorem canonical_writePins (a b) (h : Canonical s) : Canonical (State.writePins s a b) := by
  unfold State.writePins
  repeat' (first | with_reducible assumption | dsimp only |
    (with_reducible refine canonical_foldl _ _ ?_ _ ?_; intro s a h) | split |
    grind -ring -linarith -lia -order -ac [canonical_iff, Store.wf_set, Store.wf_setAll, Store.wf_filter])

theorem canonical_holdQuarter (a b) (h : Canonical s) : Canonical (State.holdQuarter s a b) := by
  unfold State.holdQuarter
  grind -ring -linarith -lia -order -ac [canonical_iff, canonical_putGroup, canonical_grantTiles]

theorem canonical_assignSack (a b) (h : Canonical s) : Canonical (State.assignSack s a b) := by
  refine canonical_foldl _ _ ?_ _ h
  intro s i h
  refine canonical_congr (canonical_setOwner 2 i { s.owner 2 i with world := a } (s := if Store.get false s.flash.scrubbed i
    then s else s.writeRange (i * 2 ^ 16) (2 ^ 16) []) ?_) rfl rfl rfl rfl
  split
  · exact h
  · exact canonical_writeRange _ _ _ h

theorem canonical_giveSack (a b) (h : Canonical s) : Canonical (State.giveSack s a b) := by
  unfold State.giveSack
  split
  · exact h
  · exact canonical_modTeam _ _ (canonical_assignSack _ _ h)

/-- The next identifier is in no table. -/
theorem canonical_nextId (n : Nat) (h : Canonical s) : Canonical { s with nextId := n } := canonical_congr h rfl rfl rfl rfl

theorem canonical_startGroup (a b c) (h : Canonical s) : Canonical (State.startGroup s a b c) := by
  unfold State.startGroup
  dsimp only
  refine canonical_foldl _ _ ?_ _ ?_
  · intro s t h
    have h1 := canonical_giveSack t.1 (s.gridAt a).world h
    repeat' (first | with_reducible assumption | dsimp only | with_reducible apply canonical_giveSack |
      with_reducible apply canonical_putTeam | with_reducible apply canonical_traceOut | split)
  · refine canonical_foldl _ _ (fun s q h => canonical_writePins _ _ (canonical_holdQuarter _ _ h)) _ ?_
    exact canonical_nextId _ (canonical_putGrid _ _ (canonical_putGroup _ _ h))

theorem canonical_placeGroup {s s' : State} {a c : Nat} {l : List Nat} (h : Canonical s) (hp : s.placeGroup a l = some
    (s', c)) :
    Canonical s' := by
  obtain ⟨l₁, x, l₂, rfl, hx, -⟩ := List.findSome?_eq_some_iff.mp hp
  obtain ⟨qs, -, he⟩ := Option.map_eq_some_iff.mp hx
  cases he
  exact canonical_startGroup _ _ _ h

theorem canonical_placeGang (a b c d e) (h : Canonical s) : ∀ s', (State.placeGang a b c d s e) = some s' → Canonical
    s' := by
  induction d generalizing s e with
  | zero => rintro s' ⟨⟩; exact h
  | succ n ih =>
    intro s' hs
    unfold State.placeGang at hs
    split at hs
    · cases hs
    · next hp => exact ih _ (canonical_placeGroup h hp) _ hs

theorem canonical_restoreGroup (a) (h : Canonical s) : ∀ s', (State.restoreGroup s a) = some s' → Canonical s' := by
  intro s' hs
  unfold State.restoreGroup at hs
  dsimp only at hs
  split at hs
  · cases hs
  · cases hs
    repeat' (first | with_reducible assumption | dsimp only | with_reducible apply canonical_writePins |
      with_reducible apply canonical_holdQuarter | with_reducible apply canonical_loadImages | with_reducible apply
          canonical_modTeam |
      with_reducible apply canonical_restoreTeam |
      (with_reducible refine canonical_foldl _ _ ?_ _ ?_; intro s a h) | split)

theorem canonical_restoreAll (a) (h : Canonical s) : ∀ s', (State.restoreAll a s) = some s' → Canonical s' := by
  induction a generalizing s with
  | nil => rintro s' ⟨⟩; exact h
  | cons g gs ih =>
    intro s' hs
    obtain ⟨s1, h1, h2⟩ := Option.bind_eq_some_iff.mp hs
    exact ih (canonical_restoreGroup g h s1 h1) s' h2

theorem canonical_preemptUnit (a) (h : Canonical s) : Canonical (State.preemptUnit s a) := by
  unfold State.preemptUnit
  repeat' (first | with_reducible assumption | dsimp only | with_reducible apply canonical_setP |
    (with_reducible refine canonical_foldl _ _ ?_ _ ?_; intro s a h))

theorem canonical_preemptFor (a b c) (h : Canonical s) : Canonical (State.preemptFor s a b c) := by
  unfold State.preemptFor
  repeat' (first | with_reducible assumption | dsimp only | with_reducible apply canonical_preemptUnit |
    (with_reducible refine canonical_foldl _ _ ?_ _ ?_; intro s a h))

theorem canonical_tryHead (a b) (h : Canonical s) : ∀ s', (State.tryHead s a b) = some s' → Canonical s' := by
  intro s' hs
  unfold State.tryHead at hs
  dsimp only at hs
  split at hs
  · split at hs
    · cases hs
    · obtain ⟨s1, h1, rfl⟩ := Option.map_eq_some_iff.mp hs
      exact canonical_putQueue _ _ (canonical_restoreAll _ h s1 h1)
  · obtain ⟨s1, h1, rfl⟩ := Option.map_eq_some_iff.mp hs
    have hc : Canonical s1 := by
      split at h1
      · obtain ⟨_, r, _, _, hr, _⟩ := List.findSome?_eq_some_iff.mp h1
        exact canonical_placeGang _ _ _ _ _ h s1 hr
      · obtain ⟨⟨s2, c⟩, h2, rfl⟩ := Option.map_eq_some_iff.mp h1
        exact canonical_placeGroup h h2
    split
    · exact canonical_putQueue _ _ hc
    · exact hc

theorem canonical_ageHead (a b c) (h : Canonical s) : Canonical (State.ageHead s a b c) := by
  unfold State.ageHead
  grind -ring -linarith -lia -order -ac [canonical_iff, canonical_putQueue, canonical_preemptFor]

theorem canonical_blockHead (a b c) (h : Canonical s) : Canonical (State.blockHead s a b c) :=
  canonical_ageHead _ _ _ (canonical_putQueue _ _ h)

theorem canonical_queueRound (a b c) (h : Canonical s) : Canonical (State.queueRound a b c s) := by
  induction c generalizing s with
  | zero => exact h
  | succ n ih =>
    unfold State.queueRound
    split
    · exact h
    · split
      · exact h
      · split
        · next hs => exact ih (canonical_tryHead _ _ h _ hs)
        · exact canonical_blockHead _ _ _ h

theorem canonical_round (h : Canonical s) : Canonical (State.round s) := by
  unfold State.round
  repeat' (first | with_reducible assumption | dsimp only | with_reducible apply canonical_queueRound |
    (with_reducible refine canonical_foldl _ _ ?_ _ ?_; intro s a h) | split |
    grind -ring -linarith -lia -order -ac [canonical_iff, canonical_queueRound, Store.wf_set, Store.wf_setAll,
      Store.wf_filter])

theorem canonical_charge (h : Canonical s) : Canonical (State.charge s) := by
  unfold State.charge
  repeat' (first | with_reducible assumption | dsimp only | with_reducible apply canonical_putQueue |
    (with_reducible refine canonical_foldl _ _ ?_ _ ?_; intro s a h))

theorem canonical_zeroRange (a b) (h : Canonical s) : Canonical (State.zeroRange s a b) := by
  unfold State.zeroRange
  grind -ring -linarith -lia -order -ac [canonical_iff, canonical_writeRange]

theorem canonical_cancelTransfer (a) (h : Canonical s) : Canonical (State.cancelTransfer s a) := by
  unfold State.cancelTransfer
  grind -ring -linarith -lia -order -ac [canonical_iff, canonical_laterStile, canonical_putChannel, canonical_countBytes]

theorem canonical_wakeBank (a) (h : Canonical s) : Canonical (State.wakeBank s a) := by
  unfold State.wakeBank
  repeat' (first | with_reducible assumption | dsimp only | with_reducible apply canonical_wakeStile |
    (with_reducible refine canonical_foldl _ _ ?_ _ ?_; intro s a h) | split)

/-- A fold over pairs keeps what each of its steps keeps. -/
theorem canonical_foldl_fst {α β : Type} (l : List α) (f : State × β → α → State × β)
    (hf : ∀ x a, Canonical x.1 → Canonical (f x a).1) (x : State × β) (h : Canonical x.1) : Canonical (l.foldl f x).1 := by
  induction l generalizing x with
  | nil => exact h
  | cons a l ih => exact ih _ (hf x a h)

theorem canonical_dropBins (a) (h : Canonical s) : Canonical (State.dropBins s a).1 := by
  refine canonical_foldl_fst _ _ ?_ (s, 0) h
  intro x a h
  dsimp only
  split
  · exact h
  · exact canonical_countErr _ _ _ (canonical_putTeam _ _ h)

theorem canonical_toHamper (a b c d) (h : Canonical s) : Canonical (State.toHamper s a b c d).1 := by
  unfold State.toHamper
  grind -ring -linarith -lia -order -ac [canonical_iff, canonical_putWord, canonical_perform]

theorem canonical_clearTemplate (a) (h : Canonical s) : Canonical (State.clearTemplate s a) := by
  unfold State.clearTemplate
  grind -ring -linarith -lia -order -ac [canonical_iff]

theorem canonical_clearRange (a) (h : Canonical s) : Canonical (State.clearRange s a) := by
  unfold State.clearRange
  grind -ring -linarith -lia -order -ac [canonical_iff]

theorem canonical_beginSeizure (a b) (h : Canonical s) : Canonical (State.beginSeizure s a b) := by
  unfold State.beginSeizure
  dsimp only
  split
  · refine canonical_congr (s := if a.cause = 2 ∧ a.resource.toNat / 2 ^ 60 < 8 then
      s.setOwner (a.resource.toNat / 2 ^ 60) (a.resource.toNat % 2 ^ 60)
        { s.owner (a.resource.toNat / 2 ^ 60) (a.resource.toNat % 2 ^ 60) with retired := true } else s) ?_ rfl rfl rfl rfl
    split
    · exact canonical_setOwner _ _ _ h
    · exact h
  · exact canonical_congr (canonical_seize a h) rfl rfl rfl rfl

theorem canonical_foldl_lost {α : Type} (l : List α) (f : Lost → α → Lost) (hf : ∀ x a, Canonical x.s → Canonical (f x a).s)
    (x : Lost) (h : Canonical x.s) : Canonical (l.foldl f x).s := by
  induction l generalizing x with
  | nil => exact h
  | cons a l ih => exact ih _ (hf x a h)

variable {l : Lost}

theorem canonical_lostTransfers (p : Nat → Transfer → Bool) (h : Canonical l.s) : Canonical (l.transfers p).s := by
  refine canonical_foldl_lost _ _ ?_ l h
  intro x a h
  split
  · split
    · exact canonical_cancelTransfer _ h
    · exact h
  · exact h

theorem canonical_lostCommands (gq : Nat) (p : MatCmd → Bool) (h : Canonical l.s) : Canonical (l.commands gq p).s := by
  refine canonical_foldl_lost _ _ ?_ l h
  intro x a h
  dsimp only
  split
  · show Canonical (match a.crewN with | some n => x.s.cancelCrew a.team n | none => x.s.cancelCmd gq a)
    split
    · exact canonical_cancelCrew _ _ h
    · exact canonical_cancelCmd _ _ h
  · exact h

theorem canonical_lostBank (x : Seizure) (idx : Nat) (tag : BitVec 16) (h : Canonical l.s) :
    Canonical (l.bank x idx tag).s := by
  unfold Lost.bank
  dsimp only
  generalize l.s.span 1 idx = r
  have h1 : Canonical (Lost.transfers { l with
      s := (List.range 1536).foldl (fun (s : State) i =>
        if (s.post i).inBank idx then (s.tearDown i).recordTorn i x.reqid x.time else s) l.s }
      (fun _ x => x.touches r)).s := by
    apply canonical_lostTransfers
    dsimp only
    refine canonical_foldl _ _ ?_ _ h
    intro s a h
    split
    · exact canonical_recordTorn _ _ _ (canonical_tearDown _ h)
    · exact h
  have h2 := canonical_foldl_lost (List.range 4) (fun (l : Lost) q => l.commands (4 * (idx / 64) + q)
    fun c => c.touches (idx / 64) r) (fun x a h => canonical_lostCommands _ _ h) _ h1
  have h3 := canonical_dropBins r (canonical_wakeBank r h2)
  split
  · exact h3
  · exact canonical_recordLost _ _ h3

theorem canonical_lostAct (x : Seizure) (kind idx : Nat) (old : Owner) (h : Canonical l.s) :
    Canonical (l.act x kind idx old).s := by
  unfold Lost.act
  split
  · exact canonical_lostBank _ _ _ h
  split
  · exact canonical_lostTransfers _ h
  split
  · exact canonical_lostCommands _ _ h
  split
  · exact canonical_lostTransfers _ h
  split
  · exact canonical_clearTemplate _ h
  split
  · exact canonical_clearRange _ h
  exact h

theorem canonical_endSeizure (a b c) (h : Canonical s) : Canonical (State.endSeizure s a b c) := by
  have hl := canonical_lostAct (l := { s := s }) a (a.resource.toNat / 2 ^ 60) (a.resource.toNat % 2 ^ 60) b h
  unfold State.endSeizure
  dsimp only
  generalize Lost.act _ _ _ _ _ = l at hl ⊢
  split
  · exact h
  split
  · exact canonical_sendLines _ h
  split
  · exact h
  split
  · refine canonical_congr (s := if a.record then (s.recordTorn (a.resource.toNat % 2 ^ 60) a.reqid a.time).recordLost b.tag.toNat
      { resource := a.resource.toNat, reqid := a.reqid, cause := a.cause, time := a.time }
      else s.recordTorn (a.resource.toNat % 2 ^ 60) a.reqid a.time) ?_ rfl rfl rfl rfl
    split
    · exact canonical_recordLost _ _ (canonical_recordTorn _ _ _ h)
    · exact canonical_recordTorn _ _ _ h
  split
  · exact canonical_congr hl rfl rfl rfl rfl
  · refine canonical_congr (canonical_recordLost _ _ ?_) rfl rfl rfl rfl
    split
    · exact hl
    · exact canonical_toHamper _ _ _ _ hl

theorem canonical_endRecord (a b) (h : Canonical s) : Canonical (State.endRecord s a b) := by
  have h1 : Canonical { s with records := b } := canonical_congr h rfl rfl rfl rfl
  unfold State.endRecord
  dsimp only
  split
  · exact h1
  · exact canonical_putWord _ _ (canonical_perform _ _ h1)

theorem canonical_abortStep (h : Canonical s) : Canonical (State.abortStep s) := by
  unfold State.abortStep
  split
  · exact canonical_endRecord _ _ h
  split
  · exact h
  split
  · exact canonical_beginSeizure _ _ h
  · exact canonical_endSeizure _ _ _ h

theorem canonical_arriveMailbox (a b) (h : Canonical s) : Canonical (State.arriveMailbox s a b) := by
  unfold State.arriveMailbox
  grind -ring -linarith -lia -order -ac [canonical_iff, canonical_laterStile, canonical_arriveStile]

theorem canonical_saveCounters (a b) (h : Canonical s) : Canonical (State.saveCounters s a b) := by
  unfold State.saveCounters
  grind -ring -linarith -lia -order -ac [canonical_iff, canonical_perform]

theorem canonical_countCycles (h : Canonical s) : Canonical (State.countCycles s) := by
  unfold State.countCycles
  grind -ring -linarith -lia -order -ac [canonical_iff]

theorem canonical_countEnded (h : Canonical s) : Canonical (State.countEnded s) := by
  unfold State.countEnded
  repeat' (first | with_reducible assumption | dsimp only | with_reducible apply canonical_countEvent |
    with_reducible apply canonical_putTeam | (with_reducible refine canonical_foldl _ _ ?_ _ ?_; intro s a h) | split)

theorem canonical_haltctl (a b c d e) (h : Canonical s) (hf : ∀ s i, Canonical s → Canonical (e s i)) : Canonical
    (State.haltctl s a b c d e) := by
  unfold State.haltctl; grind -ring -linarith -lia -order -ac

theorem canonical_endHalt (a b) (h : Canonical s) : Canonical (State.endHalt s a b) := by
  unfold State.endHalt
  grind -ring -linarith -lia -order -ac [canonical_iff, canonical_resumeCount, canonical_modTeam]

theorem canonical_putLink (a b) (h : Canonical s) : Canonical (State.putLink s a b) := by
  unfold State.putLink
  grind -ring -linarith -lia -order -ac [canonical_iff]

theorem canonical_noteLink (a) (h : Canonical s) : Canonical (State.noteLink s a) := by
  unfold State.noteLink
  grind -ring -linarith -lia -order -ac [canonical_iff, canonical_countTags, canonical_noteUnit]

theorem canonical_writeNotices (h : Canonical s) : Canonical (State.writeNotices s) := by
  unfold State.writeNotices
  repeat' (first | with_reducible assumption | dsimp only | with_reducible apply canonical_perform |
    (with_reducible refine canonical_foldl _ _ ?_ _ ?_; intro s a h) | split)

theorem canonical_markDead (a) (h : Canonical s) : Canonical (State.markDead s a) := by
  unfold State.markDead
  grind -ring -linarith -lia -order -ac [canonical_iff]

theorem canonical_accTrap (a b) (h : Canonical s) : ∀ s', (State.accTrap s a b) = some s' → Canonical s' := by
  intro s' hs
  obtain ⟨f, _, rfl⟩ := Option.map_eq_some_iff.mp hs
  exact canonical_trapLane _ _ _ _ h

theorem canonical_laneAtomic (a b c d) (h : Canonical s) : Canonical (State.laneAtomic s a b c d) := by
  unfold State.laneAtomic
  split
  · next hb => exact canonical_beginLane h hb
  · dsimp only
    split
    · next ha => exact canonical_accTrap _ _ h _ ha
    · repeat' (first | with_reducible assumption | with_reducible apply canonical_endLane | split)

theorem canonical_laneReduction (a b c d) (h : Canonical s) : Canonical (State.laneReduction s a b c d) := by
  unfold State.laneReduction
  split
  · next hb => exact canonical_beginLane h hb
  · dsimp only
    split
    · next ha => exact canonical_accTrap _ _ h _ ha
    · repeat' (first | with_reducible assumption | with_reducible apply canonical_endLane | split)

theorem canonical_laneReduce (a b c d) (h : Canonical s) : Canonical (State.laneReduce s a b c d) := by
  unfold State.laneReduce
  split
  · next hb => exact canonical_beginLane h hb
  · clear * - h
    repeat' (first | with_reducible assumption | dsimp only | with_reducible apply canonical_checkTags | with_reducible apply canonical_trapLane |
      with_reducible apply canonical_sendTouched |
      with_reducible apply canonical_killWarp | with_reducible apply canonical_endLane |
      (with_reducible refine canonical_foldl _ _ ?_ _ ?_; intro s a h) | split)

theorem canonical_putKeySlot (a b) (h : Canonical s) : Canonical (State.putKeySlot s a b) := by
  unfold State.putKeySlot
  grind -ring -linarith -lia -order -ac [canonical_iff]

theorem canonical_loadKeys (a b) (h : Canonical s) : Canonical (State.loadKeys s a b) := by
  unfold State.loadKeys
  grind -ring -linarith -lia -order -ac [canonical_iff, canonical_putKeySlot]

theorem canonical_startRotation (a) (h : Canonical s) : Canonical (State.startRotation s a) := by
  unfold State.startRotation
  grind -ring -linarith -lia -order -ac [canonical_iff, canonical_putKeySlot]

theorem canonical_writeWctl (a b) (h : Canonical s) : Canonical (State.writeWctl s a b) := by
  unfold State.writeWctl
  grind -ring -linarith -lia -order -ac [canonical_iff, canonical_loadKeys, canonical_putKeySlot, canonical_startRotation]

theorem canonical_resets (h : Canonical s) : Canonical (State.resets s) :=
  ⟨Store.wf_filter _ _ _ h.mem, rfl, rfl, rfl⟩

theorem canonical_startReplay (a) (h : Canonical s) : Canonical (State.startReplay s a) := by
  unfold State.startReplay
  dsimp only
  refine canonical_congr (canonical_foldl (s.teamsOn a) _ (fun s id h => canonical_modTeam _ _ h) _ h) rfl rfl rfl rfl

/-- The rollbacks and the quarters held by them are in no table. -/
theorem canonical_noteRollback (r l) (h : Canonical s) : Canonical { s with rollbacks := r, held := l } :=
  canonical_congr h rfl rfl rfl rfl

theorem canonical_rollback (a) (h : Canonical s) : Canonical (State.rollback s a) := by
  have h' := canonical_countTags ((s.teamsOn a).map fun id => (s.teamAt id).pstat.tag.toNat) eCorr 1
    (canonical_countLife .quarter a 0 1 (canonical_noteError .quarter a 1 h))
  unfold State.rollback
  extract_lets ts s1 near s2
  have h2 : Canonical s2 := canonical_noteRollback _ _ h'
  split
  · exact h2
  · exact canonical_startReplay _ h2

theorem canonical_correctError (a b c d) (h : Canonical s) : Canonical (State.correctError s a b c d) := by
  unfold State.correctError
  grind -ring -linarith -lia -order -ac [canonical_iff, canonical_countTags, canonical_noteError]

theorem canonical_spoilSector (a b c d) (h : Canonical s) : Canonical (State.spoilSector s a b c d) := by
  unfold State.spoilSector
  grind -ring -linarith -lia -order -ac [canonical_iff, canonical_countTags, canonical_noteError, canonical_setPoison]

theorem canonical_upsetTile (a b c) (h : Canonical s) : Canonical (State.upsetTile s a b c) := by
  unfold State.upsetTile
  grind -ring -linarith -lia -order -ac [canonical_iff, canonical_putTile]

theorem canonical_upsetParity (a b) (h : Canonical s) : Canonical (State.upsetParity s a b) := by
  unfold State.upsetParity
  grind -ring -linarith -lia -order -ac [canonical_iff, canonical_putTile]

theorem canonical_askCrew (a) (h : Canonical s) : Canonical (State.askCrew s a) := by
  unfold State.askCrew
  repeat' (first | with_reducible assumption | dsimp only | with_reducible apply canonical_setP |
    (with_reducible refine canonical_foldl _ _ ?_ _ ?_; intro s a h))

theorem canonical_postWanted (a b) (h : Canonical s) : Canonical (State.postWanted s a b) := by
  induction b generalizing s with
  | zero => exact h
  | succ n ih =>
    unfold State.postWanted
    dsimp only
    split
    · exact h
    split
    · next s' he =>
      have h' : Canonical s' := by
        unfold execRevocationRequest at he
        injection he with he
        subst he
        repeat' (first | with_reducible assumption | dsimp only | with_reducible apply canonical_deliverCause |
          with_reducible apply canonical_arriveMailbox | with_reducible apply canonical_perform |
          with_reducible apply canonical_putTenant | split)
      split
      · exact h
      · exact ih (canonical_putTenant _ _ h')
    · exact h

theorem canonical_requestRetired (a b) (h : Canonical s) : Canonical (State.requestRetired s a b) :=
  canonical_postWanted _ _ (canonical_putTenant _ _ h)

theorem canonical_retireResources (a) (h : Canonical s) : Canonical (State.retireResources s a) := by
  unfold State.retireResources
  dsimp only
  refine canonical_foldl _ _ (fun s t h => canonical_requestRetired _ _ h) _ ?_
  exact canonical_foldl _ _ (fun s r h => canonical_setOwner _ _ _ h) _ h

theorem canonical_retireUnit (a b) (h : Canonical s) : Canonical (State.retireUnit s a b) := by
  have h1 : Canonical { s with retired := Store.set false s.retired (unitKey a b) true } := canonical_congr h rfl rfl rfl rfl
  unfold State.retireUnit
  dsimp only
  split
  · exact canonical_retireResources _ h1
  · exact canonical_retireResources _ (canonical_foldl _ _ (fun s id h => canonical_askCrew _ h) _ h1)
  · exact h1

theorem canonical_flush (h : Canonical s) : Canonical (State.flush s) := by
  unfold State.flush
  grind -ring -linarith -lia -order -ac [canonical_iff]

theorem canonical_countStolen (a) (h : Canonical s) : Canonical (State.countStolen s a) := by
  unfold State.countStolen
  repeat' (first | with_reducible assumption | dsimp only |
    (with_reducible refine canonical_foldl _ _ ?_ _ ?_; intro s a h) | split |
    grind -ring -linarith -lia -order -ac [canonical_iff, Store.wf_set, Store.wf_setAll, Store.wf_filter])

theorem canonical_passTime (h : Canonical s) : Canonical (State.passTime s) := by
  unfold State.passTime
  grind -ring -linarith -lia -order -ac [canonical_iff, canonical_countStolen]

theorem canonical_after (a) (h : Canonical s) (ha : ∀ t, a = .next t → Canonical t) : Canonical (after a s) := by
  unfold after; grind -ring -linarith -lia -order -ac

theorem canonical_writeBreakpoint (a b c d e) (h : Canonical s) : Canonical (State.writeBreakpoint s a b c d e) := by
  unfold State.writeBreakpoint
  grind -ring -linarith -lia -order -ac [canonical_iff, canonical_putDbg]

theorem canonical_writeTime (a b c) (h : Canonical s) : Canonical (State.writeTime s a b c) := by
  unfold State.writeTime
  grind -ring -linarith -lia -order -ac [canonical_iff]

theorem canonical_maskOp (a b c d) (h : Canonical s) : Canonical (State.maskOp s a b c d) := by
  unfold State.maskOp
  grind -ring -linarith -lia -order -ac [canonical_iff, canonical_upd]

theorem canonical_maskRead (a b c) (h : Canonical s) : Canonical (State.maskRead s a b c) := by
  unfold State.maskRead
  grind -ring -linarith -lia -order -ac [canonical_iff, canonical_upd]

theorem canonical_checkTrap (a) (h : Canonical s) : ∀ s', (State.checkTrap s a) = some s' → Canonical s' := by
  intro s' hs
  obtain ⟨f, _, rfl⟩ := Option.map_eq_some_iff.mp hs
  exact canonical_trapVec _ _ _ h

theorem canonical_scalarLoad (a b c d e) (h : Canonical s) : Canonical (State.scalarLoad s a b c d e) := by
  unfold State.scalarLoad
  grind -ring -linarith -lia -order -ac [canonical_iff, canonical_checkTrap, canonical_trap, canonical_setTeam,
      canonical_sendTouched, canonical_poisonStop]

theorem canonical_scalarStore (a b c d e f) (h : Canonical s) : Canonical (State.scalarStore s a b c d e f) := by
  unfold State.scalarStore
  grind -ring -linarith -lia -order -ac [canonical_iff, canonical_checkTrap, canonical_trap, canonical_windowStore,
      canonical_setTeam]

theorem canonical_scalarAtomic (a b c d e f g) (h : Canonical s) : Canonical (State.scalarAtomic s a b c d e f g) := by
  unfold State.scalarAtomic
  grind -ring -linarith -lia -order -ac [canonical_iff, canonical_trap, canonical_checkTrap, canonical_poisonStop,
      canonical_setTeam]

theorem canonical_unpark (h : Canonical s) : Canonical (State.unpark s) := by
  unfold State.unpark
  grind -ring -linarith -lia -order -ac [canonical_iff, canonical_setTeam]

theorem canonical_assignQuarter (a b) (h : Canonical s) : Canonical (State.assignQuarter s a b) := by
  unfold State.assignQuarter
  grind -ring -linarith -lia -order -ac [canonical_iff]

theorem canonical_createTenant (a b c) (h : Canonical s) : Canonical (State.createTenant s a b c) := by
  unfold State.createTenant
  grind -ring -linarith -lia -order -ac [canonical_iff, canonical_putTenant]

theorem canonical_writeFlash (a b) (h : Canonical s) : Canonical (State.writeFlash s a b) := by
  unfold State.writeFlash
  grind -ring -linarith -lia -order -ac [canonical_iff]

theorem canonical_passUnit (a b c) (h : Canonical s) : Canonical (State.passUnit s a b c) := by
  unfold State.passUnit
  dsimp only
  split
  · exact canonical_foldl _ _ (fun s id h => canonical_endHalt _ _ h) _ (canonical_putDbg _ _ h)
  · exact canonical_putDbg _ _ h

theorem canonical_claimTogether (a b c) (h : Canonical s) : Canonical (State.claimTogether s a b c) := by
  unfold State.claimTogether
  split
  · exact h
  split
  · next s' he =>
    unfold execClaimRequest at he
    repeat' (split at he)
    all_goals (try cases he)
    all_goals (repeat' (first | with_reducible assumption | dsimp only | with_reducible apply canonical_passUnit |
      with_reducible apply canonical_putDbg | with_reducible apply canonical_putWord | split))
  · exact h

theorem canonical_tamper (a b c) (h : Canonical s) : Canonical (State.tamper s a b c) := by
  unfold State.tamper
  dsimp only
  split
  · exact h
  split
  · exact canonical_noteTamper _ (canonical_setBytes _ h)
  · exact canonical_noteTamper _ h

theorem canonical_scrub (a) (h : Canonical s) : Canonical (State.scrub s a) :=
  canonical_congr (canonical_zeroRange _ _ h) rfl rfl rfl rfl

theorem canonical_scrubFirst (a) (h : Canonical s) : Canonical (State.scrubFirst s a) := by
  unfold State.scrubFirst
  split
  · exact h
  · exact canonical_scrub _ h

theorem canonical_takePipe (a b c d e) (h : Canonical s) : Canonical (State.takePipe s a b c d e) :=
  canonical_congr h rfl rfl rfl rfl

theorem canonical_tryWrites (a) (h : Canonical s) : Canonical (State.tryWrites s a) := by
  induction a generalizing s with
  | nil => exact h
  | cons bs rest ih =>
    unfold State.tryWrites
    dsimp only
    apply ih
    split
    · exact canonical_congr h rfl rfl rfl rfl
    · exact canonical_perform _ _ h

theorem canonical_outsideWrite (a) (h : Canonical s) : Canonical (State.outsideWrite s a) :=
  canonical_tryWrites _ (canonical_congr h rfl rfl rfl rfl)

/-- An event at a unit keeps the form where the event does. -/
theorem canonical_on (a) (f : State → Out) (h : Canonical s) (hf : ∀ s s', Canonical s → f s = .next s' → Canonical s') :
    Canonical (State.on s a f) := by
  unfold State.on
  split
  · next s' he => exact canonical_congr (hf { s with unit := a } s' (canonical_congr h rfl rfl rfl rfl) he) rfl rfl rfl rfl
  · exact h

theorem canonical_placed (a b) (h : Canonical s) : Canonical (State.placed s a b) := by
  unfold State.placed
  dsimp only
  split
  · exact ⟨Store.wf_setAll _ _ _ h.mem, rfl, rfl, h.groups⟩
  · exact ⟨h.mem, h.tlb, rfl, h.groups⟩

end Sys2Proof.Laws
end

