-- ==== Sys2Proof/Laws/Crypto.lean ====
section
/-!
SUPPORT. Laws/Crypto.lean: the decryption of AES-256 and of XTS-AES-256 undoes the encryption, so that a line written back
under the keys it was read under holds the bytes it held.
-/

namespace Sys2Proof.Machine

/-! ### Bytes and numbers -/

@[simp] theorem leBytes_length (n x : Nat) : (leBytes n x).length = n := by
  induction n generalizing x with
  | zero => rfl
  | succ n ih => simp [leBytes, ih]

theorem leNat_leBytes (n x : Nat) : leNat (leBytes n x) = x % 256 ^ n := by
  induction n generalizing x with
  | zero => simp [leBytes, leNat, Nat.mod_one]
  | succ n ih => simp [leBytes, leNat, ih, Nat.pow_succ', Nat.mod_mul]

theorem leBytes_leNat (bs : List Byte) : leBytes bs.length (leNat bs) = bs := by
  induction bs with
  | nil => rfl
  | cons b bs ih =>
    have h1 : (b.toNat + 256 * leNat bs) / 256 = leNat bs := by have := b.isLt; omega
    have h2 : BitVec.ofNat 8 (b.toNat + 256 * leNat bs) = b := by
      apply BitVec.eq_of_toNat_eq
      have := b.isLt
      simp only [BitVec.toNat_ofNat]
      omega
    simp [leBytes, leNat, h1, h2, ih]

theorem leNat_lt (bs : List Byte) : leNat bs < 256 ^ bs.length := by
  induction bs with
  | nil => simp [leNat]
  | cons b bs ih => have := b.isLt; simp [leNat, Nat.pow_succ']; omega

/-! ### Lists in pieces -/

theorem chunks_flatten (k n : Nat) (xs : List Byte) (h : xs.length = (k + 1) * n) : (chunks (k + 1) n xs).flatten = xs := by
  induction n generalizing xs with
  | zero => simp_all [chunks]
  | succ n ih =>
    have : xs.isEmpty = false := by cases xs <;> simp_all [Nat.mul_succ]
    simp [chunks, this, ih (xs.drop (k + 1)) (by rw [List.length_drop, h, Nat.mul_succ]; omega)]

theorem chunks_mem_length {α : Type} (k n : Nat) (xs : List α) (h : xs.length = (k + 1) * n) :
    ∀ b ∈ chunks (k + 1) n xs, b.length = k + 1 := by
  induction n generalizing xs with
  | zero => simp_all [chunks]
  | succ n ih =>
    have : xs.isEmpty = false := by cases xs <;> simp_all [Nat.mul_succ]
    simp only [chunks, this, Bool.false_eq_true, if_false, List.mem_cons]
    rintro b (rfl | hb)
    · rw [List.length_take, h, Nat.mul_succ]; omega
    · exact ih (xs.drop (k + 1)) (by rw [List.length_drop, h, Nat.mul_succ]; omega) b hb

theorem chunks_mem {α : Type} (k n : Nat) (xs : List α) : ∀ b ∈ chunks k n xs, ∀ x ∈ b, x ∈ xs := by
  induction n generalizing xs with
  | zero => simp [chunks]
  | succ n ih =>
    intro b hb x hx
    unfold chunks at hb
    split at hb
    · simp at hb
    · rcases List.mem_cons.mp hb with rfl | hb
      · exact List.mem_of_mem_take hx
      · exact List.mem_of_mem_drop (ih _ b hb x hx)

theorem chunks_length {α : Type} (k n : Nat) (xs : List α) (h : xs.length = (k + 1) * n) : (chunks (k + 1) n xs).length = n := by
  induction n generalizing xs with
  | zero => simp_all [chunks]
  | succ n ih =>
    have : xs.isEmpty = false := by cases xs <;> simp_all [Nat.mul_succ]
    simp [chunks, this, ih (xs.drop (k + 1)) (by rw [List.length_drop, h, Nat.mul_succ]; omega)]

/-! ### The steps of a round -/

@[simp] theorem xorBytes_length (a b : List Byte) : (xorBytes a b).length = min a.length b.length := by simp [xorBytes]
@[simp] theorem subBytes_length (box s : List Byte) : (subBytes box s).length = s.length := by simp [subBytes]
@[simp] theorem shiftRows_length (k : Nat) (s : List Byte) : (shiftRows k s).length = 16 := by simp [shiftRows]
@[simp] theorem mixColumns_length (m s : List Byte) : (mixColumns m s).length = 16 := by simp [mixColumns]

theorem xorBytes_cancel (a b : List Byte) (h : a.length ≤ b.length) : xorBytes (xorBytes a b) b = a := by
  induction a generalizing b with
  | nil => simp [xorBytes]
  | cons x a ih => cases b with
    | nil => simp at h
    | cons y b =>
      have := ih b (by simpa using h)
      simp_all [xorBytes, BitVec.xor_assoc]

theorem invSbox_sbox (b : Byte) : invSbox.getD (sbox.getD b.toNat 0).toNat 0 = b := by
  have h : ∀ i : Fin 256, invSbox.getD (sbox.getD (BitVec.ofFin i : Byte).toNat 0).toNat 0 = BitVec.ofFin i := by
    decide +kernel
  exact h b.toFin

theorem subBytes_inv (s : List Byte) : subBytes invSbox (subBytes sbox s) = s := by
  simp only [subBytes, List.map_map]
  refine (List.map_congr_left (g := id) fun b _ => invSbox_sbox b).trans (List.map_id s)

theorem block_cases {s : List Byte} (h : s.length = 16) : ∃ a b c d e f g i j k l m n o p q, s =
    [a, b, c, d, e, f, g, i, j, k, l, m, n, o, p, q] := by
  match s, h with
  | [a, b, c, d, e, f, g, i, j, k, l, m, n, o, p, q], _ => exact ⟨a, b, c, d, e, f, g, i, j, k, l, m, n, o, p, q, rfl⟩

theorem shiftRows_inv {s : List Byte} (h : s.length = 16) : shiftRows 3 (shiftRows 1 s) = s := by
  obtain ⟨a, b, c, d, e, f, g, i, j, k, l, m, n, o, p, q, rfl⟩ := block_cases h
  rfl

/-- One step of a product in GF(2^8). -/
theorem gmul_fold (b : Byte) (l : List Nat) (x p : Byte) :
    (l.foldl (fun (x : Byte × Byte) i => (if b.getLsbD i then x.1 ^^^ x.2 else x.1, xtime x.2)) (x, p)).1
      = x ^^^ (l.foldl (fun (x : Byte × Byte) i => (if b.getLsbD i then x.1 ^^^ x.2 else x.1, xtime x.2)) (0#8, p)).1 := by
  induction l generalizing x p with
  | nil => simp
  | cons i l ih =>
    simp only [List.foldl_cons]
    rw [ih, ih (if b.getLsbD i then 0#8 ^^^ p else 0#8)]
    split <;> simp [BitVec.xor_assoc]

/-- A product is linear in its second factor. -/
theorem gmul_xor (a b c : Byte) : gmul a (b ^^^ c) = gmul a b ^^^ gmul a c := by
  have h (l : List Nat) (p : Byte) :
      (l.foldl (fun (x : Byte × Byte) i => (if (b ^^^ c).getLsbD i then x.1 ^^^ x.2 else x.1, xtime x.2)) (0#8, p)).1
      = (l.foldl (fun (x : Byte × Byte) i => (if b.getLsbD i then x.1 ^^^ x.2 else x.1, xtime x.2)) (0#8, p)).1
        ^^^ (l.foldl (fun (x : Byte × Byte) i => (if c.getLsbD i then x.1 ^^^ x.2 else x.1, xtime x.2)) (0#8, p)).1 := by
    induction l generalizing p with
    | nil => simp
    | cons i l ih =>
      simp only [List.foldl_cons]
      rw [gmul_fold, gmul_fold b, gmul_fold c, ih, BitVec.getLsbD_xor]
      generalize (List.foldl _ (0#8, xtime p) l).1 = u
      generalize (List.foldl _ (0#8, xtime p) l).1 = v
      cases b.getLsbD i <;> cases c.getLsbD i <;> simp
      · ac_rfl
      · ac_rfl
      · rw [show p ^^^ u ^^^ (p ^^^ v) = (p ^^^ p) ^^^ (u ^^^ v) by ac_rfl]; simp
  exact h _ a

/-- Two linear functions that agree on the powers of two are equal. -/
theorem linear_ext (f g : Byte → Byte) (hf : ∀ x y, f (x ^^^ y) = f x ^^^ f y) (hg : ∀ x y, g (x ^^^ y) = g x ^^^ g y)
    (h : ∀ i : Fin 8, f (BitVec.ofNat 8 (2 ^ i.val)) = g (BitVec.ofNat 8 (2 ^ i.val))) (b : Byte) : f b = g b := by
  have zero (k : Byte → Byte) (hk : ∀ x y, k (x ^^^ y) = k x ^^^ k y) : k 0 = 0 := by
    have := hk 0 0
    simpa using this
  have bits : ∀ i : Fin 256, (BitVec.ofFin i : Byte) = (List.finRange 8).foldr (fun j x =>
      (if (BitVec.ofFin i : Byte).getLsbD j.val then BitVec.ofNat 8 (2 ^ j.val) else 0) ^^^ x) 0 := by decide +kernel
  rw [show b = BitVec.ofFin b.toFin from rfl, bits b.toFin]
  generalize List.finRange 8 = l
  induction l with
  | nil => exact (zero f hf).trans (zero g hg).symm
  | cons j l ih =>
    simp only [List.foldr_cons, hf, hg, ih]
    split
    · rw [h j]
    · rw [zero f hf, zero g hg]

/-- A column's own byte comes back from the two matrices of the columns. -/
theorem columns_own (b : Byte) :
    gmul 14 (gmul 2 b) ^^^ gmul 11 (gmul 1 b) ^^^ gmul 13 (gmul 1 b) ^^^ gmul 9 (gmul 3 b) = b :=
  linear_ext (fun b => gmul 14 (gmul 2 b) ^^^ gmul 11 (gmul 1 b) ^^^ gmul 13 (gmul 1 b) ^^^ gmul 9 (gmul 3 b)) id
    (fun x y => by simp only [gmul_xor]; ac_rfl) (fun _ _ => rfl) (by decide +kernel) b

/-- The column's other bytes give nothing. -/
theorem columns_next (b : Byte) :
    gmul 14 (gmul 3 b) ^^^ gmul 11 (gmul 2 b) ^^^ gmul 13 (gmul 1 b) ^^^ gmul 9 (gmul 1 b) = 0 :=
  linear_ext (fun b => gmul 14 (gmul 3 b) ^^^ gmul 11 (gmul 2 b) ^^^ gmul 13 (gmul 1 b) ^^^ gmul 9 (gmul 1 b)) (fun _ => 0)
    (fun x y => by simp only [gmul_xor]; ac_rfl) (fun _ _ => rfl) (by decide +kernel) b

theorem columns_opposite (b : Byte) :
    gmul 14 (gmul 1 b) ^^^ gmul 11 (gmul 3 b) ^^^ gmul 13 (gmul 2 b) ^^^ gmul 9 (gmul 1 b) = 0 :=
  linear_ext (fun b => gmul 14 (gmul 1 b) ^^^ gmul 11 (gmul 3 b) ^^^ gmul 13 (gmul 2 b) ^^^ gmul 9 (gmul 1 b)) (fun _ => 0)
    (fun x y => by simp only [gmul_xor]; ac_rfl) (fun _ _ => rfl) (by decide +kernel) b

theorem columns_last (b : Byte) :
    gmul 14 (gmul 1 b) ^^^ gmul 11 (gmul 1 b) ^^^ gmul 13 (gmul 3 b) ^^^ gmul 9 (gmul 2 b) = 0 :=
  linear_ext (fun b => gmul 14 (gmul 1 b) ^^^ gmul 11 (gmul 1 b) ^^^ gmul 13 (gmul 3 b) ^^^ gmul 9 (gmul 2 b)) (fun _ => 0)
    (fun x y => by simp only [gmul_xor]; ac_rfl) (fun _ _ => rfl) (by decide +kernel) b

/-- One column, its own byte first. -/
theorem column_inv (a b c d : Byte) :
    gmul 14 (gmul 2 a ^^^ gmul 3 b ^^^ gmul 1 c ^^^ gmul 1 d) ^^^ gmul 11 (gmul 1 a ^^^ gmul 2 b ^^^ gmul 3 c ^^^ gmul 1 d)
      ^^^ gmul 13 (gmul 1 a ^^^ gmul 1 b ^^^ gmul 2 c ^^^ gmul 3 d)
      ^^^ gmul 9 (gmul 3 a ^^^ gmul 1 b ^^^ gmul 1 c ^^^ gmul 2 d) = a := by
  simp only [gmul_xor]
  refine Eq.trans (b := (gmul 14 (gmul 2 a) ^^^ gmul 11 (gmul 1 a) ^^^ gmul 13 (gmul 1 a) ^^^ gmul 9 (gmul 3 a))
    ^^^ (gmul 14 (gmul 3 b) ^^^ gmul 11 (gmul 2 b) ^^^ gmul 13 (gmul 1 b) ^^^ gmul 9 (gmul 1 b))
    ^^^ (gmul 14 (gmul 1 c) ^^^ gmul 11 (gmul 3 c) ^^^ gmul 13 (gmul 2 c) ^^^ gmul 9 (gmul 1 c))
    ^^^ (gmul 14 (gmul 1 d) ^^^ gmul 11 (gmul 1 d) ^^^ gmul 13 (gmul 3 d) ^^^ gmul 9 (gmul 2 d))) ?_ ?_
  · ac_rfl
  · rw [columns_own, columns_next, columns_opposite, columns_last]
    simp

/-- A list of four columns of four bytes times a circulant matrix. -/
theorem mixColumns_cons (w x y z a b c d e f g i j k l m n o p q : Byte) :
    mixColumns [w, x, y, z] [a, b, c, d, e, f, g, i, j, k, l, m, n, o, p, q] =
      ([(a, b, c, d), (e, f, g, i), (j, k, l, m), (n, o, p, q)].map fun v : Byte × Byte × Byte × Byte =>
        [gmul w v.1 ^^^ gmul x v.2.1 ^^^ gmul y v.2.2.1 ^^^ gmul z v.2.2.2,
         gmul z v.1 ^^^ gmul w v.2.1 ^^^ gmul x v.2.2.1 ^^^ gmul y v.2.2.2,
         gmul y v.1 ^^^ gmul z v.2.1 ^^^ gmul w v.2.2.1 ^^^ gmul x v.2.2.2,
         gmul x v.1 ^^^ gmul y v.2.1 ^^^ gmul z v.2.2.1 ^^^ gmul w v.2.2.2]).flatten := by
  simp [mixColumns, List.range_succ]

theorem mixColumns_inv {s : List Byte} (h : s.length = 16) :
    mixColumns [14, 11, 13, 9] (mixColumns [2, 3, 1, 1] s) = s := by
  have r1 (a b c d : Byte) := (.trans (by ac_rfl) (column_inv b c d a) :
    gmul 9 (gmul 2 a ^^^ gmul 3 b ^^^ gmul 1 c ^^^ gmul 1 d) ^^^ gmul 14 (gmul 1 a ^^^ gmul 2 b ^^^ gmul 3 c ^^^ gmul 1 d)
      ^^^ gmul 11 (gmul 1 a ^^^ gmul 1 b ^^^ gmul 2 c ^^^ gmul 3 d)
      ^^^ gmul 13 (gmul 3 a ^^^ gmul 1 b ^^^ gmul 1 c ^^^ gmul 2 d) = b)
  have r2 (a b c d : Byte) := (.trans (by ac_rfl) (column_inv c d a b) :
    gmul 13 (gmul 2 a ^^^ gmul 3 b ^^^ gmul 1 c ^^^ gmul 1 d) ^^^ gmul 9 (gmul 1 a ^^^ gmul 2 b ^^^ gmul 3 c ^^^ gmul 1 d)
      ^^^ gmul 14 (gmul 1 a ^^^ gmul 1 b ^^^ gmul 2 c ^^^ gmul 3 d)
      ^^^ gmul 11 (gmul 3 a ^^^ gmul 1 b ^^^ gmul 1 c ^^^ gmul 2 d) = c)
  have r3 (a b c d : Byte) := (.trans (by ac_rfl) (column_inv d a b c) :
    gmul 11 (gmul 2 a ^^^ gmul 3 b ^^^ gmul 1 c ^^^ gmul 1 d) ^^^ gmul 13 (gmul 1 a ^^^ gmul 2 b ^^^ gmul 3 c ^^^ gmul 1 d)
      ^^^ gmul 9 (gmul 1 a ^^^ gmul 1 b ^^^ gmul 2 c ^^^ gmul 3 d)
      ^^^ gmul 14 (gmul 3 a ^^^ gmul 1 b ^^^ gmul 1 c ^^^ gmul 2 d) = d)
  obtain ⟨a, b, c, d, e, f, g, i, j, k, l, m, n, o, p, q, rfl⟩ := block_cases h
  rw [mixColumns_cons]
  simp only [List.map_cons, List.map_nil, List.flatten_cons, List.flatten_nil, List.cons_append, List.nil_append]
  rw [mixColumns_cons]
  simp only [List.map_cons, List.map_nil, List.flatten_cons, List.flatten_nil, List.cons_append, List.nil_append, column_inv,
    r1, r2, r3]

/-! ### A block -/

/-- The state after `n` rounds of an encryption. -/
theorem aes_inv (ks : List (List Byte)) (hk : ∀ i, i < 15 → (ks.getD i []).length = 16) {b : List Byte}
    (hb : b.length = 16) : aesDecrypt ks (aesEncrypt ks b) = b := by
  let enc (n : Nat) : List Byte := (List.range n).foldl (fun s i =>
    xorBytes (mixColumns [2, 3, 1, 1] (shiftRows 1 (subBytes sbox s))) (ks.getD (i + 1) [])) (xorBytes b (ks.getD 0 []))
  let rows (n : Nat) : List Byte := shiftRows 1 (subBytes sbox (enc n))
  have henc (n : Nat) : enc (n + 1) = xorBytes (mixColumns [2, 3, 1, 1] (rows n)) (ks.getD (n + 1) []) := by
    simp only [enc, rows, List.range_succ, List.foldl_append, List.foldl_cons, List.foldl_nil]
  have hlen (n : Nat) (hn : n ≤ 13) : (enc n).length = 16 := by
    cases n with
    | zero => simp only [enc, List.range_zero, List.foldl_nil, xorBytes_length, hb, hk 0 (by omega), Nat.min_self]
    | succ n => simp only [henc, xorBytes_length, mixColumns_length, hk (n + 1) (by omega), Nat.min_self]
  have back (n : Nat) (hn : n ≤ 13) : subBytes invSbox (shiftRows 3 (rows n)) = enc n := by
    rw [shiftRows_inv (by simp [hlen n hn]), subBytes_inv]
  have dec (n : Nat) (hn : n ≤ 13) : (List.range n).foldl (fun s i =>
      mixColumns [14, 11, 13, 9] (xorBytes (subBytes invSbox (shiftRows 3 s)) (ks.getD (13 - i) []))) (rows 13)
      = rows (13 - n) := by
    induction n with
    | zero => rfl
    | succ n ih =>
      rw [List.range_succ, List.foldl_append, ih (by omega), List.foldl_cons, List.foldl_nil, back _ (by omega)]
      obtain ⟨k, hk'⟩ : ∃ k, 13 - n = k + 1 := ⟨12 - n, by omega⟩
      rw [hk', henc, show 13 - (n + 1) = k by omega, xorBytes_cancel _ _ (Nat.le_of_eq (by rw [hk (k + 1) (by omega), mixColumns_length])),
        mixColumns_inv (by simp [rows])]
  have h13 : aesEncrypt ks b = xorBytes (rows 13) (ks.getD 14 []) := rfl
  unfold aesDecrypt
  rw [h13, xorBytes_cancel _ _ (Nat.le_of_eq (by rw [hk 14 (by omega), shiftRows_length]))]
  show xorBytes (subBytes invSbox (shiftRows 3 ((List.range 13).foldl _ (rows 13)))) _ = b
  rw [dec 13 (by omega), Nat.sub_self, back 0 (by omega)]
  exact xorBytes_cancel _ _ (Nat.le_of_eq (by rw [hb, hk 0 (by omega)]))

theorem aesEncrypt_length (ks : List (List Byte)) (hk : (ks.getD 14 []).length = 16) (b : List Byte) :
    (aesEncrypt ks b).length = 16 := by
  unfold aesEncrypt
  rw [xorBytes_length, shiftRows_length, hk, Nat.min_self]

/-! ### The round keys -/

theorem keyWord_lengths (n i : Nat) (w : List (List Byte)) (hw : w.length = n + 8) (h : ∀ x ∈ w, x.length = 4) :
    (keyWord w i).length = n + 9 ∧ ∀ x ∈ keyWord w i, x.length = 4 := by
  have get (k : Nat) (hk : k < n + 8) : (w.getD k []).length = 4 := by
    rw [List.getD_eq_getElem?_getD, List.getElem?_eq_getElem (by omega), Option.getD_some]
    exact h _ (List.getElem_mem _)
  have h0 := get 0 (by omega)
  unfold keyWord
  dsimp only
  refine ⟨by simp [hw], ?_⟩
  intro x hx
  rcases List.mem_cons.mp hx with rfl | hx
  · rw [xorBytes_length, get 7 (by omega)]
    split
    · have hr : ((w.getD 0 []).rotateLeft 1).length = 4 := by
        generalize w.getD 0 [] = t at h0
        match t, h0 with
        | [a, b, c, d], _ => rfl
      simp only [xorBytes_length, subBytes_length, hr, List.length_cons, List.length_nil]
      rfl
    split
    · rw [subBytes_length, h0, Nat.min_self]
    · rw [h0, Nat.min_self]
  · exact h x hx

theorem keyWords_lengths (n : Nat) (w : List (List Byte)) (hw : w.length = 8) (h : ∀ x ∈ w, x.length = 4) :
    ((List.range n).foldl (fun w i => keyWord w (i + 8)) w).length = n + 8
    ∧ ∀ x ∈ (List.range n).foldl (fun w i => keyWord w (i + 8)) w, x.length = 4 := by
  induction n with
  | zero => exact ⟨by simpa using hw, h⟩
  | succ n ih =>
    rw [List.range_succ, List.foldl_append, List.foldl_cons, List.foldl_nil]
    have := keyWord_lengths n (n + 8) _ ih.1 ih.2
    exact ⟨by omega, this.2⟩

/-- Every round key of a 32-byte key is a block. -/
theorem roundKeys_length {key : List Byte} (hk : key.length = 32) (i : Nat) (hi : i < 15) :
    ((roundKeys key).getD i []).length = 16 := by
  have h0 : (chunks 4 8 key).reverse.length = 8 := by rw [List.length_reverse, chunks_length 3 8 key (by omega)]
  have h1 : ∀ x ∈ (chunks 4 8 key).reverse, x.length = 4 := fun x hx =>
    chunks_mem_length 3 8 key (by omega) x (List.mem_reverse.mp hx)
  obtain ⟨h2, h3⟩ := keyWords_lengths 52 _ h0 h1
  unfold roundKeys
  dsimp only
  generalize hw : ((List.range 52).foldl (fun w i => keyWord w (i + 8)) (chunks 4 8 key).reverse).reverse = ws
  have h4 : ws.length = 60 := by rw [← hw, List.length_reverse]; omega
  have h5 : ∀ x ∈ ws, x.length = 4 := fun x hx => h3 x (by rw [← hw] at hx; exact List.mem_reverse.mp hx)
  have h6 : (chunks 4 15 ws).length = 15 := chunks_length 3 15 ws (by omega)
  rw [List.getD_eq_getElem?_getD, List.getElem?_map, List.getElem?_eq_getElem (by omega), Option.map_some, Option.getD_some]
  have hm : (chunks 4 15 ws)[i]'(by omega) ∈ chunks 4 15 ws := List.getElem_mem _
  have h7 := chunks_mem_length 3 15 ws (by omega) _ hm
  have h8 := chunks_mem 4 15 ws _ hm
  generalize (chunks 4 15 ws)[i]'(by omega) = g at h7 h8
  match g, h7 with
  | [a, b, c, d], _ =>
    have ha := h5 a (h8 a (by simp))
    have hb := h5 b (h8 b (by simp))
    have hc := h5 c (h8 c (by simp))
    have hd := h5 d (h8 d (by simp))
    simp [ha, hb, hc, hd]

/-! ### A line -/

@[simp] theorem nextTweak_length (t : List Byte) : (nextTweak t).length = 16 := by simp [nextTweak]

/-- The blocks of an encrypted unit decrypt to the blocks it was made of. -/
theorem xtsBlocks_inv (f g : List Byte → List Byte) (hg : ∀ b, (g b).length = 16) (hf : ∀ b, b.length = 16 → f (g b) = b)
    (bs : List (List Byte)) (hb : ∀ b ∈ bs, b.length = 16) (t : List Byte) (ht : t.length = 16) :
    xtsBlocks f (chunks 16 bs.length (xtsBlocks g bs t)) t = bs.flatten := by
  induction bs generalizing t with
  | nil => rfl
  | cons b bs ih =>
    have hb0 := hb b (by simp)
    have hx : (xorBytes (g (xorBytes b t)) t).length = 16 := by simp [hg, ht]
    have he : (xtsBlocks g (b :: bs) t).isEmpty = false := by
      unfold xtsBlocks
      generalize xorBytes (g (xorBytes b t)) t = x at hx
      cases x <;> simp_all
    have hc : chunks 16 (b :: bs).length (xtsBlocks g (b :: bs) t) = xorBytes (g (xorBytes b t)) t
        :: chunks 16 bs.length (xtsBlocks g bs (nextTweak t)) := by
      rw [List.length_cons, chunks, he, if_neg (by simp), xtsBlocks, ← hx, List.take_left, List.drop_left, hx]
    rw [hc, xtsBlocks, xorBytes_cancel _ _ (by simp [hg, ht]), hf _ (by simp [hb0, ht]), xorBytes_cancel _ _ (by simp [hb0, ht]),
      ih (fun c hm => hb c (by simp [hm])) _ (nextTweak_length t), List.flatten_cons]

theorem xtsBlocks_length (g : List Byte → List Byte) (hg : ∀ b, (g b).length = 16) (bs : List (List Byte)) (t : List Byte)
    (ht : t.length = 16) : (xtsBlocks g bs t).length = 16 * bs.length := by
  induction bs generalizing t with
  | nil => rfl
  | cons b bs ih =>
    rw [xtsBlocks, List.length_append, ih _ (nextTweak_length t), xorBytes_length, hg, ht, List.length_cons]
    omega

/-- A line encrypted under a pair of keys decrypts under them to what it held. -/
theorem xtsLine_inv (k1 k2 : BitVec 256) (line : Nat) (x : BitVec 1024) :
    xtsLine false k1 k2 line (xtsLine true k1 k2 line x) = x := by
  have hk := fun k : BitVec 256 => roundKeys_length (key := leBytes 32 k.toNat) (leBytes_length 32 _)
  unfold xtsLine
  dsimp only
  generalize ht : aesEncrypt (roundKeys (leBytes 32 k2.toNat)) (leBytes 16 line) = t
  have ht : t.length = 16 := by rw [← ht]; exact aesEncrypt_length _ (hk k2 14 (by omega)) _
  have hk := hk k1
  generalize roundKeys (leBytes 32 k1.toNat) = ks at hk ⊢
  have hg := aesEncrypt_length ks (hk 14 (by omega))
  have hl : (leBytes 128 x.toNat).length = (15 + 1) * 8 := leBytes_length 128 _
  have hn := chunks_length 15 8 _ hl
  have h1 : (xtsBlocks (aesEncrypt ks) (chunks 16 8 (leBytes 128 x.toNat)) t).length = 128 := by
    rw [xtsBlocks_length _ hg _ _ ht, hn]
  have h2 : (BitVec.ofNat 1024 (leNat (xtsBlocks (aesEncrypt ks) (chunks 16 8 (leBytes 128 x.toNat)) t))).toNat
      = leNat (xtsBlocks (aesEncrypt ks) (chunks 16 8 (leBytes 128 x.toNat)) t) := by
    rw [BitVec.toNat_ofNat, Nat.mod_eq_of_lt]
    have := leNat_lt (xtsBlocks (aesEncrypt ks) (chunks 16 8 (leBytes 128 x.toNat)) t)
    rw [h1] at this
    exact Nat.lt_of_lt_of_eq this (by decide +kernel)
  have h3 := leBytes_leNat (xtsBlocks (aesEncrypt ks) (chunks 16 8 (leBytes 128 x.toNat)) t)
  have h4 := xtsBlocks_inv (aesDecrypt ks) (aesEncrypt ks) hg (fun b hb => aes_inv ks hk hb) _
    (chunks_mem_length 15 8 _ hl) t ht
  rw [h1] at h3
  rw [hn, chunks_flatten 15 8 _ hl] at h4
  simp only [Bool.false_eq_true, if_false, if_true]
  rw [h2, h3, h4, leNat_leBytes, Nat.mod_eq_of_lt (Nat.lt_of_lt_of_eq x.isLt (by decide +kernel)), BitVec.ofNat_toNat,
    BitVec.setWidth_eq]

end Sys2Proof.Machine
end

