-- ==== Sys2Proof/Laws/PerInstr.lean ====
section
/-!
SUPPORT. Laws/PerInstr.lean: the family Fits: the word of an instruction lies in the 32 bits of a scalar word or the 96 bits of
a lane word (R140, R152), and a hardware event has none. One lemma per constructor.
-/

set_option Elab.async false

namespace Sys2Proof

/-- A field occupies its own bits. -/
theorem put_le {n : Nat} (x : BitVec n) (lo : Nat) : put x lo ≤ (2 ^ n - 1) * 2 ^ lo :=
  Nat.mul_le_mul_right _ (Nat.le_sub_one_of_lt x.isLt)

theorem encodeLane_lt (cls op : Nat) (f : LaneFields) (hc : cls < 16) (ho : op < 256) : encodeLane cls op f < 2 ^ 96 := by
  have h1 := put_le f.mask 80
  have h2 := put_le f.rnd 77
  have h3 := put_le f.ty 73
  have h4 := put_le f.sat 72
  have h5 := put_le f.d 64
  have h6 := put_le f.a 56
  have h7 := put_le f.b 48
  have h8 := put_le f.stall 44
  have h9 := put_le f.post 39
  have h10 := put_le f.reuse 38
  have h11 := put_le f.mod 32
  have h12 := put_le f.imm 0
  unfold encodeLane
  omega

theorem encodeHalf_lt (h : PairHalf) : encodeHalf h < 2 ^ 46 := by
  have h1 := put_le h.op6 40
  have h2 := put_le h.mask 36
  have h3 := put_le h.rnd2 34
  have h4 := put_le h.ty3 31
  have h5 := put_le h.d 23
  have h6 := put_le h.a 15
  have h7 := put_le h.b 7
  have h8 := put_le h.stall 3
  have h9 := put_le h.rsvd 0
  unfold encodeHalf
  omega

end Sys2Proof

namespace Sys2Proof.Laws.Fits

open Sys2Proof

/-- The word of an instruction fits the bits it occupies; an event occupies no bits, and its word is 0. -/
def Statement (i : Instr) : Prop := encode i < 2 ^ i.nbits

theorem iadd : ∀ d a b, Statement (.iadd d a b) := by
  intro d a b
  have h1 := put_le d 20
  have h2 := put_le a 14
  have h3 := put_le b 8
  simp only [Statement, encode, Instr.nbits]
  omega

theorem isub : ∀ d a b, Statement (.isub d a b) := by
  intro d a b
  have h1 := put_le d 20
  have h2 := put_le a 14
  have h3 := put_le b 8
  simp only [Statement, encode, Instr.nbits]
  omega

theorem imul : ∀ d a b, Statement (.imul d a b) := by
  intro d a b
  have h1 := put_le d 20
  have h2 := put_le a 14
  have h3 := put_le b 8
  simp only [Statement, encode, Instr.nbits]
  omega

theorem imulh : ∀ d a b, Statement (.imulh d a b) := by
  intro d a b
  have h1 := put_le d 20
  have h2 := put_le a 14
  have h3 := put_le b 8
  simp only [Statement, encode, Instr.nbits]
  omega

theorem imulhu : ∀ d a b, Statement (.imulhu d a b) := by
  intro d a b
  have h1 := put_le d 20
  have h2 := put_le a 14
  have h3 := put_le b 8
  simp only [Statement, encode, Instr.nbits]
  omega

theorem idiv : ∀ d a b, Statement (.idiv d a b) := by
  intro d a b
  have h1 := put_le d 20
  have h2 := put_le a 14
  have h3 := put_le b 8
  simp only [Statement, encode, Instr.nbits]
  omega

theorem idivu : ∀ d a b, Statement (.idivu d a b) := by
  intro d a b
  have h1 := put_le d 20
  have h2 := put_le a 14
  have h3 := put_le b 8
  simp only [Statement, encode, Instr.nbits]
  omega

theorem irem : ∀ d a b, Statement (.irem d a b) := by
  intro d a b
  have h1 := put_le d 20
  have h2 := put_le a 14
  have h3 := put_le b 8
  simp only [Statement, encode, Instr.nbits]
  omega

theorem iremu : ∀ d a b, Statement (.iremu d a b) := by
  intro d a b
  have h1 := put_le d 20
  have h2 := put_le a 14
  have h3 := put_le b 8
  simp only [Statement, encode, Instr.nbits]
  omega

theorem and : ∀ d a b, Statement (.and d a b) := by
  intro d a b
  have h1 := put_le d 20
  have h2 := put_le a 14
  have h3 := put_le b 8
  simp only [Statement, encode, Instr.nbits]
  omega

theorem or : ∀ d a b, Statement (.or d a b) := by
  intro d a b
  have h1 := put_le d 20
  have h2 := put_le a 14
  have h3 := put_le b 8
  simp only [Statement, encode, Instr.nbits]
  omega

theorem xor : ∀ d a b, Statement (.xor d a b) := by
  intro d a b
  have h1 := put_le d 20
  have h2 := put_le a 14
  have h3 := put_le b 8
  simp only [Statement, encode, Instr.nbits]
  omega

theorem shl : ∀ d a b, Statement (.shl d a b) := by
  intro d a b
  have h1 := put_le d 20
  have h2 := put_le a 14
  have h3 := put_le b 8
  simp only [Statement, encode, Instr.nbits]
  omega

theorem shr : ∀ d a b, Statement (.shr d a b) := by
  intro d a b
  have h1 := put_le d 20
  have h2 := put_le a 14
  have h3 := put_le b 8
  simp only [Statement, encode, Instr.nbits]
  omega

theorem sar : ∀ d a b, Statement (.sar d a b) := by
  intro d a b
  have h1 := put_le d 20
  have h2 := put_le a 14
  have h3 := put_le b 8
  simp only [Statement, encode, Instr.nbits]
  omega

theorem imin : ∀ d a b, Statement (.imin d a b) := by
  intro d a b
  have h1 := put_le d 20
  have h2 := put_le a 14
  have h3 := put_le b 8
  simp only [Statement, encode, Instr.nbits]
  omega

theorem imax : ∀ d a b, Statement (.imax d a b) := by
  intro d a b
  have h1 := put_le d 20
  have h2 := put_le a 14
  have h3 := put_le b 8
  simp only [Statement, encode, Instr.nbits]
  omega

theorem iminu : ∀ d a b, Statement (.iminu d a b) := by
  intro d a b
  have h1 := put_le d 20
  have h2 := put_le a 14
  have h3 := put_le b 8
  simp only [Statement, encode, Instr.nbits]
  omega

theorem imaxu : ∀ d a b, Statement (.imaxu d a b) := by
  intro d a b
  have h1 := put_le d 20
  have h2 := put_le a 14
  have h3 := put_le b 8
  simp only [Statement, encode, Instr.nbits]
  omega

theorem cmp : ∀ a b, Statement (.cmp a b) := by
  intro a b
  have h1 := put_le a 14
  have h2 := put_le b 8
  simp only [Statement, encode, Instr.nbits]
  omega

theorem sxt8 : ∀ d a, Statement (.sxt8 d a) := by
  intro d a
  have h1 := put_le d 20
  have h2 := put_le a 14
  simp only [Statement, encode, Instr.nbits]
  omega

theorem sxt16 : ∀ d a, Statement (.sxt16 d a) := by
  intro d a
  have h1 := put_le d 20
  have h2 := put_le a 14
  simp only [Statement, encode, Instr.nbits]
  omega

theorem sxt32 : ∀ d a, Statement (.sxt32 d a) := by
  intro d a
  have h1 := put_le d 20
  have h2 := put_le a 14
  simp only [Statement, encode, Instr.nbits]
  omega

theorem selCc : ∀ d a b c, Statement (.selCc d a b c) := by
  intro d a b c
  have h1 := put_le d 20
  have h2 := put_le a 14
  have h3 := put_le b 8
  have h4 := put_le c 0
  simp only [Statement, encode, Instr.nbits]
  omega

theorem iaddi : ∀ d a i, Statement (.iaddi d a i) := by
  intro d a i
  have h1 := put_le d 20
  have h2 := put_le a 14
  have h3 := put_le i 0
  simp only [Statement, encode, Instr.nbits]
  omega

theorem imuli : ∀ d a i, Statement (.imuli d a i) := by
  intro d a i
  have h1 := put_le d 20
  have h2 := put_le a 14
  have h3 := put_le i 0
  simp only [Statement, encode, Instr.nbits]
  omega

theorem andi : ∀ d a i, Statement (.andi d a i) := by
  intro d a i
  have h1 := put_le d 20
  have h2 := put_le a 14
  have h3 := put_le i 0
  simp only [Statement, encode, Instr.nbits]
  omega

theorem ori : ∀ d a i, Statement (.ori d a i) := by
  intro d a i
  have h1 := put_le d 20
  have h2 := put_le a 14
  have h3 := put_le i 0
  simp only [Statement, encode, Instr.nbits]
  omega

theorem xori : ∀ d a i, Statement (.xori d a i) := by
  intro d a i
  have h1 := put_le d 20
  have h2 := put_le a 14
  have h3 := put_le i 0
  simp only [Statement, encode, Instr.nbits]
  omega

theorem shli : ∀ d a n, Statement (.shli d a n) := by
  intro d a n
  have h1 := put_le d 20
  have h2 := put_le a 14
  have h3 := put_le n 0
  simp only [Statement, encode, Instr.nbits]
  omega

theorem shri : ∀ d a n, Statement (.shri d a n) := by
  intro d a n
  have h1 := put_le d 20
  have h2 := put_le a 14
  have h3 := put_le n 0
  simp only [Statement, encode, Instr.nbits]
  omega

theorem sari : ∀ d a n, Statement (.sari d a n) := by
  intro d a n
  have h1 := put_le d 20
  have h2 := put_le a 14
  have h3 := put_le n 0
  simp only [Statement, encode, Instr.nbits]
  omega

theorem cmpi : ∀ a i, Statement (.cmpi a i) := by
  intro a i
  have h1 := put_le a 14
  have h2 := put_le i 0
  simp only [Statement, encode, Instr.nbits]
  omega

theorem brCc : ∀ c d, Statement (.brCc c d) := by
  intro c d
  have h1 := put_le c 22
  have h2 := put_le d 0
  simp only [Statement, encode, Instr.nbits]
  omega

theorem call : ∀ d, Statement (.call d) := by
  intro d
  have h1 := put_le d 0
  simp only [Statement, encode, Instr.nbits]
  omega

theorem jr : ∀ a, Statement (.jr a) := by
  intro a
  have h1 := put_le a 14
  simp only [Statement, encode, Instr.nbits]
  omega

theorem callr : ∀ a, Statement (.callr a) := by
  intro a
  have h1 := put_le a 14
  simp only [Statement, encode, Instr.nbits]
  omega

theorem ret : Statement (.ret) := by
  simp only [Statement, encode, Instr.nbits]
  omega

theorem dbnz : ∀ d i, Statement (.dbnz d i) := by
  intro d i
  have h1 := put_le d 20
  have h2 := put_le i 0
  simp only [Statement, encode, Instr.nbits]
  omega

theorem ldS : ∀ d a b s c z, Statement (.ldS d a b s c z) := by
  intro d a b s c z
  have h1 := put_le d 20
  have h2 := put_le a 14
  have h3 := put_le b 8
  have h4 := put_le s 4
  have h5 := put_le c 2
  have h6 := put_le z 0
  simp only [Statement, encode, Instr.nbits]
  omega

theorem ldG : ∀ d a b s c z, Statement (.ldG d a b s c z) := by
  intro d a b s c z
  have h1 := put_le d 20
  have h2 := put_le a 14
  have h3 := put_le b 8
  have h4 := put_le s 4
  have h5 := put_le c 2
  have h6 := put_le z 0
  simp only [Statement, encode, Instr.nbits]
  omega

theorem stS : ∀ d a b s c z, Statement (.stS d a b s c z) := by
  intro d a b s c z
  have h1 := put_le d 20
  have h2 := put_le a 14
  have h3 := put_le b 8
  have h4 := put_le s 4
  have h5 := put_le c 2
  have h6 := put_le z 0
  simp only [Statement, encode, Instr.nbits]
  omega

theorem stG : ∀ d a b s c z, Statement (.stG d a b s c z) := by
  intro d a b s c z
  have h1 := put_le d 20
  have h2 := put_le a 14
  have h3 := put_le b 8
  have h4 := put_le s 4
  have h5 := put_le c 2
  have h6 := put_le z 0
  simp only [Statement, encode, Instr.nbits]
  omega

theorem atomAddS : ∀ d a b z, Statement (.atomAddS d a b z) := by
  intro d a b z
  have h1 := put_le d 20
  have h2 := put_le a 14
  have h3 := put_le b 8
  have h4 := put_le z 3
  simp only [Statement, encode, Instr.nbits]
  omega

theorem atomMinS : ∀ d a b z, Statement (.atomMinS d a b z) := by
  intro d a b z
  have h1 := put_le d 20
  have h2 := put_le a 14
  have h3 := put_le b 8
  have h4 := put_le z 3
  simp only [Statement, encode, Instr.nbits]
  omega

theorem atomMaxS : ∀ d a b z, Statement (.atomMaxS d a b z) := by
  intro d a b z
  have h1 := put_le d 20
  have h2 := put_le a 14
  have h3 := put_le b 8
  have h4 := put_le z 3
  simp only [Statement, encode, Instr.nbits]
  omega

theorem atomMinuS : ∀ d a b z, Statement (.atomMinuS d a b z) := by
  intro d a b z
  have h1 := put_le d 20
  have h2 := put_le a 14
  have h3 := put_le b 8
  have h4 := put_le z 3
  simp only [Statement, encode, Instr.nbits]
  omega

theorem atomMaxuS : ∀ d a b z, Statement (.atomMaxuS d a b z) := by
  intro d a b z
  have h1 := put_le d 20
  have h2 := put_le a 14
  have h3 := put_le b 8
  have h4 := put_le z 3
  simp only [Statement, encode, Instr.nbits]
  omega

theorem atomAndS : ∀ d a b z, Statement (.atomAndS d a b z) := by
  intro d a b z
  have h1 := put_le d 20
  have h2 := put_le a 14
  have h3 := put_le b 8
  have h4 := put_le z 3
  simp only [Statement, encode, Instr.nbits]
  omega

theorem atomOrS : ∀ d a b z, Statement (.atomOrS d a b z) := by
  intro d a b z
  have h1 := put_le d 20
  have h2 := put_le a 14
  have h3 := put_le b 8
  have h4 := put_le z 3
  simp only [Statement, encode, Instr.nbits]
  omega

theorem atomXorS : ∀ d a b z, Statement (.atomXorS d a b z) := by
  intro d a b z
  have h1 := put_le d 20
  have h2 := put_le a 14
  have h3 := put_le b 8
  have h4 := put_le z 3
  simp only [Statement, encode, Instr.nbits]
  omega

theorem atomExchS : ∀ d a b z, Statement (.atomExchS d a b z) := by
  intro d a b z
  have h1 := put_le d 20
  have h2 := put_le a 14
  have h3 := put_le b 8
  have h4 := put_le z 3
  simp only [Statement, encode, Instr.nbits]
  omega

theorem atomCasS : ∀ d a b z, Statement (.atomCasS d a b z) := by
  intro d a b z
  have h1 := put_le d 20
  have h2 := put_le a 14
  have h3 := put_le b 8
  have h4 := put_le z 3
  simp only [Statement, encode, Instr.nbits]
  omega

theorem atomFaddS : ∀ d a b, Statement (.atomFaddS d a b) := by
  intro d a b
  have h1 := put_le d 20
  have h2 := put_le a 14
  have h3 := put_le b 8
  simp only [Statement, encode, Instr.nbits]
  omega

theorem atomFmaxS : ∀ d a b, Statement (.atomFmaxS d a b) := by
  intro d a b
  have h1 := put_le d 20
  have h2 := put_le a 14
  have h3 := put_le b 8
  simp only [Statement, encode, Instr.nbits]
  omega

theorem atomFminS : ∀ d a b, Statement (.atomFminS d a b) := by
  intro d a b
  have h1 := put_le d 20
  have h2 := put_le a 14
  have h3 := put_le b 8
  simp only [Statement, encode, Instr.nbits]
  omega

theorem atomAddG : ∀ d a b z, Statement (.atomAddG d a b z) := by
  intro d a b z
  have h1 := put_le d 20
  have h2 := put_le a 14
  have h3 := put_le b 8
  have h4 := put_le z 3
  simp only [Statement, encode, Instr.nbits]
  omega

theorem atomMinG : ∀ d a b z, Statement (.atomMinG d a b z) := by
  intro d a b z
  have h1 := put_le d 20
  have h2 := put_le a 14
  have h3 := put_le b 8
  have h4 := put_le z 3
  simp only [Statement, encode, Instr.nbits]
  omega

theorem atomMaxG : ∀ d a b z, Statement (.atomMaxG d a b z) := by
  intro d a b z
  have h1 := put_le d 20
  have h2 := put_le a 14
  have h3 := put_le b 8
  have h4 := put_le z 3
  simp only [Statement, encode, Instr.nbits]
  omega

theorem atomMinuG : ∀ d a b z, Statement (.atomMinuG d a b z) := by
  intro d a b z
  have h1 := put_le d 20
  have h2 := put_le a 14
  have h3 := put_le b 8
  have h4 := put_le z 3
  simp only [Statement, encode, Instr.nbits]
  omega

theorem atomMaxuG : ∀ d a b z, Statement (.atomMaxuG d a b z) := by
  intro d a b z
  have h1 := put_le d 20
  have h2 := put_le a 14
  have h3 := put_le b 8
  have h4 := put_le z 3
  simp only [Statement, encode, Instr.nbits]
  omega

theorem atomAndG : ∀ d a b z, Statement (.atomAndG d a b z) := by
  intro d a b z
  have h1 := put_le d 20
  have h2 := put_le a 14
  have h3 := put_le b 8
  have h4 := put_le z 3
  simp only [Statement, encode, Instr.nbits]
  omega

theorem atomOrG : ∀ d a b z, Statement (.atomOrG d a b z) := by
  intro d a b z
  have h1 := put_le d 20
  have h2 := put_le a 14
  have h3 := put_le b 8
  have h4 := put_le z 3
  simp only [Statement, encode, Instr.nbits]
  omega

theorem atomXorG : ∀ d a b z, Statement (.atomXorG d a b z) := by
  intro d a b z
  have h1 := put_le d 20
  have h2 := put_le a 14
  have h3 := put_le b 8
  have h4 := put_le z 3
  simp only [Statement, encode, Instr.nbits]
  omega

theorem atomExchG : ∀ d a b z, Statement (.atomExchG d a b z) := by
  intro d a b z
  have h1 := put_le d 20
  have h2 := put_le a 14
  have h3 := put_le b 8
  have h4 := put_le z 3
  simp only [Statement, encode, Instr.nbits]
  omega

theorem atomCasG : ∀ d a b z, Statement (.atomCasG d a b z) := by
  intro d a b z
  have h1 := put_le d 20
  have h2 := put_le a 14
  have h3 := put_le b 8
  have h4 := put_le z 3
  simp only [Statement, encode, Instr.nbits]
  omega

theorem atomFaddG : ∀ d a b, Statement (.atomFaddG d a b) := by
  intro d a b
  have h1 := put_le d 20
  have h2 := put_le a 14
  have h3 := put_le b 8
  simp only [Statement, encode, Instr.nbits]
  omega

theorem atomFmaxG : ∀ d a b, Statement (.atomFmaxG d a b) := by
  intro d a b
  have h1 := put_le d 20
  have h2 := put_le a 14
  have h3 := put_le b 8
  simp only [Statement, encode, Instr.nbits]
  omega

theorem atomFminG : ∀ d a b, Statement (.atomFminG d a b) := by
  intro d a b
  have h1 := put_le d 20
  have h2 := put_le a 14
  have h3 := put_le b 8
  simp only [Statement, encode, Instr.nbits]
  omega

theorem faddF32 : ∀ d a b r, Statement (.faddF32 d a b r) := by
  intro d a b r
  have h1 := put_le d 20
  have h2 := put_le a 14
  have h3 := put_le b 8
  have h4 := put_le r 0
  simp only [Statement, encode, Instr.nbits]
  omega

theorem fsubF32 : ∀ d a b r, Statement (.fsubF32 d a b r) := by
  intro d a b r
  have h1 := put_le d 20
  have h2 := put_le a 14
  have h3 := put_le b 8
  have h4 := put_le r 0
  simp only [Statement, encode, Instr.nbits]
  omega

theorem fmulF32 : ∀ d a b r, Statement (.fmulF32 d a b r) := by
  intro d a b r
  have h1 := put_le d 20
  have h2 := put_le a 14
  have h3 := put_le b 8
  have h4 := put_le r 0
  simp only [Statement, encode, Instr.nbits]
  omega

theorem ffmaF32 : ∀ d a b r, Statement (.ffmaF32 d a b r) := by
  intro d a b r
  have h1 := put_le d 20
  have h2 := put_le a 14
  have h3 := put_le b 8
  have h4 := put_le r 0
  simp only [Statement, encode, Instr.nbits]
  omega

theorem fminF32 : ∀ d a b, Statement (.fminF32 d a b) := by
  intro d a b
  have h1 := put_le d 20
  have h2 := put_le a 14
  have h3 := put_le b 8
  simp only [Statement, encode, Instr.nbits]
  omega

theorem fmaxF32 : ∀ d a b, Statement (.fmaxF32 d a b) := by
  intro d a b
  have h1 := put_le d 20
  have h2 := put_le a 14
  have h3 := put_le b 8
  simp only [Statement, encode, Instr.nbits]
  omega

theorem fcmpF32 : ∀ a b, Statement (.fcmpF32 a b) := by
  intro a b
  have h1 := put_le a 14
  have h2 := put_le b 8
  simp only [Statement, encode, Instr.nbits]
  omega

theorem cvtF32S32 : ∀ d a r, Statement (.cvtF32S32 d a r) := by
  intro d a r
  have h1 := put_le d 20
  have h2 := put_le a 14
  have h3 := put_le r 0
  simp only [Statement, encode, Instr.nbits]
  omega

theorem cvtS32F32 : ∀ d a r, Statement (.cvtS32F32 d a r) := by
  intro d a r
  have h1 := put_le d 20
  have h2 := put_le a 14
  have h3 := put_le r 0
  simp only [Statement, encode, Instr.nbits]
  omega

theorem lrun : ∀ d, Statement (.lrun d) := by
  intro d
  have h1 := put_le d 0
  simp only [Statement, encode, Instr.nbits]
  omega

theorem lrunr : ∀ a, Statement (.lrunr a) := by
  intro a
  have h1 := put_le a 14
  simp only [Statement, encode, Instr.nbits]
  omega

theorem lsync : Statement (.lsync) := by
  simp only [Statement, encode, Instr.nbits]
  omega

theorem lqcnt : ∀ d, Statement (.lqcnt d) := by
  intro d
  have h1 := put_le d 20
  simp only [Statement, encode, Instr.nbits]
  omega

theorem wait : ∀ k n, Statement (.wait k n) := by
  intro k n
  have h1 := put_le k 20
  have h2 := put_le n 0
  simp only [Statement, encode, Instr.nbits]
  omega

theorem tkrd : ∀ d k, Statement (.tkrd d k) := by
  intro d k
  have h1 := put_le d 20
  have h2 := put_le k 0
  simp only [Statement, encode, Instr.nbits]
  omega

theorem fmtset : ∀ a, Statement (.fmtset a) := by
  intro a
  have h1 := put_le a 14
  simp only [Statement, encode, Instr.nbits]
  omega

theorem fmtget : ∀ d, Statement (.fmtget d) := by
  intro d
  have h1 := put_le d 20
  simp only [Statement, encode, Instr.nbits]
  omega

theorem srseed : ∀ a b, Statement (.srseed a b) := by
  intro a b
  have h1 := put_le a 14
  have h2 := put_le b 8
  simp only [Statement, encode, Instr.nbits]
  omega

theorem mand : ∀ d a b, Statement (.mand d a b) := by
  intro d a b
  have h1 := put_le d 20
  have h2 := put_le a 14
  have h3 := put_le b 8
  simp only [Statement, encode, Instr.nbits]
  omega

theorem mor : ∀ d a b, Statement (.mor d a b) := by
  intro d a b
  have h1 := put_le d 20
  have h2 := put_le a 14
  have h3 := put_le b 8
  simp only [Statement, encode, Instr.nbits]
  omega

theorem mxor : ∀ d a b, Statement (.mxor d a b) := by
  intro d a b
  have h1 := put_le d 20
  have h2 := put_le a 14
  have h3 := put_le b 8
  simp only [Statement, encode, Instr.nbits]
  omega

theorem mnot : ∀ d a, Statement (.mnot d a) := by
  intro d a
  have h1 := put_le d 20
  have h2 := put_le a 14
  simp only [Statement, encode, Instr.nbits]
  omega

theorem mcount : ∀ d a, Statement (.mcount d a) := by
  intro d a
  have h1 := put_le d 20
  have h2 := put_le a 14
  simp only [Statement, encode, Instr.nbits]
  omega

theorem mfirst : ∀ d a, Statement (.mfirst d a) := by
  intro d a
  have h1 := put_le d 20
  have h2 := put_le a 14
  simp only [Statement, encode, Instr.nbits]
  omega

theorem mtest : ∀ a, Statement (.mtest a) := by
  intro a
  have h1 := put_le a 14
  simp only [Statement, encode, Instr.nbits]
  omega

theorem mset : ∀ d a b, Statement (.mset d a b) := by
  intro d a b
  have h1 := put_le d 20
  have h2 := put_le a 14
  have h3 := put_le b 8
  simp only [Statement, encode, Instr.nbits]
  omega

theorem qset : ∀ a b f, Statement (.qset a b f) := by
  intro a b f
  have h1 := put_le a 14
  have h2 := put_le b 8
  have h3 := put_le f 0
  simp only [Statement, encode, Instr.nbits]
  omega

theorem qget : ∀ d b f, Statement (.qget d b f) := by
  intro d b f
  have h1 := put_le d 20
  have h2 := put_le b 8
  have h3 := put_le f 0
  simp only [Statement, encode, Instr.nbits]
  omega

theorem bar : ∀ d n, Statement (.bar d n) := by
  intro d n
  have h1 := put_le d 20
  have h2 := put_le n 0
  simp only [Statement, encode, Instr.nbits]
  omega

theorem barGang : ∀ d n, Statement (.barGang d n) := by
  intro d n
  have h1 := put_le d 20
  have h2 := put_le n 0
  simp only [Statement, encode, Instr.nbits]
  omega

theorem stexp : ∀ a b, Statement (.stexp a b) := by
  intro a b
  have h1 := put_le a 14
  have h2 := put_le b 8
  simp only [Statement, encode, Instr.nbits]
  omega

theorem starr : ∀ a s, Statement (.starr a s) := by
  intro a s
  have h1 := put_le a 14
  have h2 := put_le s 4
  simp only [Statement, encode, Instr.nbits]
  omega

theorem sttest : ∀ d a b s, Statement (.sttest d a b s) := by
  intro d a b s
  have h1 := put_le d 20
  have h2 := put_le a 14
  have h3 := put_le b 8
  have h4 := put_le s 4
  simp only [Statement, encode, Instr.nbits]
  omega

theorem stwait : ∀ d a b s, Statement (.stwait d a b s) := by
  intro d a b s
  have h1 := put_le d 20
  have h2 := put_le a 14
  have h3 := put_le b 8
  have h4 := put_le s 4
  simp only [Statement, encode, Instr.nbits]
  omega

theorem yield : ∀ d a b, Statement (.yield d a b) := by
  intro d a b
  have h1 := put_le d 20
  have h2 := put_le a 14
  have h3 := put_le b 8
  simp only [Statement, encode, Instr.nbits]
  omega

theorem mwait : ∀ d a b, Statement (.mwait d a b) := by
  intro d a b
  have h1 := put_le d 20
  have h2 := put_le a 14
  have h3 := put_le b 8
  simp only [Statement, encode, Instr.nbits]
  omega

theorem fence : ∀ s c, Statement (.fence s c) := by
  intro s c
  have h1 := put_le s 4
  have h2 := put_le c 2
  simp only [Statement, encode, Instr.nbits]
  omega

theorem sub : ∀ d a b, Statement (.sub d a b) := by
  intro d a b
  have h1 := put_le d 20
  have h2 := put_le a 14
  have h3 := put_le b 8
  simp only [Statement, encode, Instr.nbits]
  omega

theorem unsub : ∀ d a, Statement (.unsub d a) := by
  intro d a
  have h1 := put_le d 20
  have h2 := put_le a 14
  simp only [Statement, encode, Instr.nbits]
  omega

theorem subflush : ∀ d a, Statement (.subflush d a) := by
  intro d a
  have h1 := put_le d 20
  have h2 := put_le a 14
  simp only [Statement, encode, Instr.nbits]
  omega

theorem launch : ∀ d a, Statement (.launch d a) := by
  intro d a
  have h1 := put_le d 20
  have h2 := put_le a 14
  simp only [Statement, encode, Instr.nbits]
  omega

theorem cget : ∀ d r, Statement (.cget d r) := by
  intro d r
  have h1 := put_le d 20
  have h2 := put_le r 8
  simp only [Statement, encode, Instr.nbits]
  omega

theorem cset : ∀ a r, Statement (.cset a r) := by
  intro a r
  have h1 := put_le a 14
  have h2 := put_le r 8
  simp only [Statement, encode, Instr.nbits]
  omega

theorem tlbw : ∀ d a b, Statement (.tlbw d a b) := by
  intro d a b
  have h1 := put_le d 20
  have h2 := put_le a 14
  have h3 := put_le b 8
  simp only [Statement, encode, Instr.nbits]
  omega

theorem tlbi : ∀ a, Statement (.tlbi a) := by
  intro a
  have h1 := put_le a 14
  simp only [Statement, encode, Instr.nbits]
  omega

theorem tlbrW0 : ∀ d a, Statement (.tlbrW0 d a) := by
  intro d a
  have h1 := put_le d 20
  have h2 := put_le a 14
  simp only [Statement, encode, Instr.nbits]
  omega

theorem tlbrW1 : ∀ d a, Statement (.tlbrW1 d a) := by
  intro d a
  have h1 := put_le d 20
  have h2 := put_le a 14
  simp only [Statement, encode, Instr.nbits]
  omega

theorem nop : Statement (.nop) := by
  simp only [Statement, encode, Instr.nbits]
  omega

theorem halt : Statement (.halt) := by
  simp only [Statement, encode, Instr.nbits]
  omega

theorem eret : Statement (.eret) := by
  simp only [Statement, encode, Instr.nbits]
  omega

theorem brk : Statement (.brk) := by
  simp only [Statement, encode, Instr.nbits]
  omega

theorem trap : ∀ a b, Statement (.trap a b) := by
  intro a b
  have h1 := put_le a 14
  have h2 := put_le b 8
  simp only [Statement, encode, Instr.nbits]
  omega

theorem mark : ∀ a, Statement (.mark a) := by
  intro a
  have h1 := put_le a 14
  simp only [Statement, encode, Instr.nbits]
  omega

theorem ext : ∀ i, Statement (.ext i) := by
  intro i
  have h1 := put_le i 0
  simp only [Statement, encode, Instr.nbits]
  omega

theorem unassignedScalarWord : ∀ word, Statement (.unassignedScalarWord word) := by
  intro word
  simp only [Statement, encode, Instr.nbits]
  omega

theorem laneIadd : ∀ f, Statement (.laneIadd f) := fun f => encodeLane_lt 0x0 0x00 f (by decide) (by decide)

theorem laneIsub : ∀ f, Statement (.laneIsub f) := fun f => encodeLane_lt 0x0 0x01 f (by decide) (by decide)

theorem laneImul : ∀ f, Statement (.laneImul f) := fun f => encodeLane_lt 0x0 0x02 f (by decide) (by decide)

theorem laneImulhi : ∀ f, Statement (.laneImulhi f) := fun f => encodeLane_lt 0x0 0x03 f (by decide) (by decide)

theorem laneImad : ∀ f, Statement (.laneImad f) := fun f => encodeLane_lt 0x0 0x04 f (by decide) (by decide)

theorem laneIdiv : ∀ f, Statement (.laneIdiv f) := fun f => encodeLane_lt 0x0 0x05 f (by decide) (by decide)

theorem laneIrem : ∀ f, Statement (.laneIrem f) := fun f => encodeLane_lt 0x0 0x06 f (by decide) (by decide)

theorem laneImin : ∀ f, Statement (.laneImin f) := fun f => encodeLane_lt 0x0 0x07 f (by decide) (by decide)

theorem laneImax : ∀ f, Statement (.laneImax f) := fun f => encodeLane_lt 0x0 0x08 f (by decide) (by decide)

theorem laneIabs : ∀ f, Statement (.laneIabs f) := fun f => encodeLane_lt 0x0 0x09 f (by decide) (by decide)

theorem laneIneg : ∀ f, Statement (.laneIneg f) := fun f => encodeLane_lt 0x0 0x0A f (by decide) (by decide)

theorem laneMov : ∀ f, Statement (.laneMov f) := fun f => encodeLane_lt 0x0 0x0B f (by decide) (by decide)

theorem laneLfn3 : ∀ f, Statement (.laneLfn3 f) := fun f => encodeLane_lt 0x1 0x00 f (by decide) (by decide)

theorem laneIshl : ∀ f, Statement (.laneIshl f) := fun f => encodeLane_lt 0x1 0x01 f (by decide) (by decide)

theorem laneIshr : ∀ f, Statement (.laneIshr f) := fun f => encodeLane_lt 0x1 0x02 f (by decide) (by decide)

theorem laneIsar : ∀ f, Statement (.laneIsar f) := fun f => encodeLane_lt 0x1 0x03 f (by decide) (by decide)

theorem laneIrot : ∀ f, Statement (.laneIrot f) := fun f => encodeLane_lt 0x1 0x04 f (by decide) (by decide)

theorem laneBfext : ∀ f, Statement (.laneBfext f) := fun f => encodeLane_lt 0x1 0x05 f (by decide) (by decide)

theorem laneBfins : ∀ f, Statement (.laneBfins f) := fun f => encodeLane_lt 0x1 0x06 f (by decide) (by decide)

theorem laneBfrev : ∀ f, Statement (.laneBfrev f) := fun f => encodeLane_lt 0x1 0x07 f (by decide) (by decide)

theorem lanePopc : ∀ f, Statement (.lanePopc f) := fun f => encodeLane_lt 0x1 0x08 f (by decide) (by decide)

theorem laneClz : ∀ f, Statement (.laneClz f) := fun f => encodeLane_lt 0x1 0x09 f (by decide) (by decide)

theorem laneCtz : ∀ f, Statement (.laneCtz f) := fun f => encodeLane_lt 0x1 0x0A f (by decide) (by decide)

theorem laneIcmp : ∀ f, Statement (.laneIcmp f) := fun f => encodeLane_lt 0x2 0x00 f (by decide) (by decide)

theorem laneFcmp : ∀ f, Statement (.laneFcmp f) := fun f => encodeLane_lt 0x2 0x01 f (by decide) (by decide)

theorem laneSel : ∀ f, Statement (.laneSel f) := fun f => encodeLane_lt 0x2 0x02 f (by decide) (by decide)

theorem laneVote : ∀ f, Statement (.laneVote f) := fun f => encodeLane_lt 0x2 0x03 f (by decide) (by decide)

theorem laneFadd : ∀ f, Statement (.laneFadd f) := fun f => encodeLane_lt 0x3 0x00 f (by decide) (by decide)

theorem laneFsub : ∀ f, Statement (.laneFsub f) := fun f => encodeLane_lt 0x3 0x01 f (by decide) (by decide)

theorem laneFmul : ∀ f, Statement (.laneFmul f) := fun f => encodeLane_lt 0x3 0x02 f (by decide) (by decide)

theorem laneFfma : ∀ f, Statement (.laneFfma f) := fun f => encodeLane_lt 0x3 0x03 f (by decide) (by decide)

theorem laneFmin : ∀ f, Statement (.laneFmin f) := fun f => encodeLane_lt 0x3 0x04 f (by decide) (by decide)

theorem laneFmax : ∀ f, Statement (.laneFmax f) := fun f => encodeLane_lt 0x3 0x05 f (by decide) (by decide)

theorem laneFabs : ∀ f, Statement (.laneFabs f) := fun f => encodeLane_lt 0x3 0x06 f (by decide) (by decide)

theorem laneFneg : ∀ f, Statement (.laneFneg f) := fun f => encodeLane_lt 0x3 0x07 f (by decide) (by decide)

theorem laneFclass : ∀ f, Statement (.laneFclass f) := fun f => encodeLane_lt 0x3 0x08 f (by decide) (by decide)

theorem laneFrcp : ∀ f, Statement (.laneFrcp f) := fun f => encodeLane_lt 0x4 0x00 f (by decide) (by decide)

theorem laneFrsq : ∀ f, Statement (.laneFrsq f) := fun f => encodeLane_lt 0x4 0x01 f (by decide) (by decide)

theorem laneFsqrt : ∀ f, Statement (.laneFsqrt f) := fun f => encodeLane_lt 0x4 0x02 f (by decide) (by decide)

theorem laneFexp2 : ∀ f, Statement (.laneFexp2 f) := fun f => encodeLane_lt 0x4 0x03 f (by decide) (by decide)

theorem laneFlog2 : ∀ f, Statement (.laneFlog2 f) := fun f => encodeLane_lt 0x4 0x04 f (by decide) (by decide)

theorem laneFsin : ∀ f, Statement (.laneFsin f) := fun f => encodeLane_lt 0x4 0x05 f (by decide) (by decide)

theorem laneFcos : ∀ f, Statement (.laneFcos f) := fun f => encodeLane_lt 0x4 0x06 f (by decide) (by decide)

theorem laneFtanh : ∀ f, Statement (.laneFtanh f) := fun f => encodeLane_lt 0x4 0x07 f (by decide) (by decide)

theorem laneCvt : ∀ f, Statement (.laneCvt f) := fun f => encodeLane_lt 0x5 0x00 f (by decide) (by decide)

theorem laneFrnd : ∀ f, Statement (.laneFrnd f) := fun f => encodeLane_lt 0x5 0x01 f (by decide) (by decide)

theorem laneBpack : ∀ f, Statement (.laneBpack f) := fun f => encodeLane_lt 0x6 0x00 f (by decide) (by decide)

theorem laneBunpack : ∀ f, Statement (.laneBunpack f) := fun f => encodeLane_lt 0x6 0x01 f (by decide) (by decide)

theorem laneBscale : ∀ f, Statement (.laneBscale f) := fun f => encodeLane_lt 0x6 0x02 f (by decide) (by decide)

theorem laneFpres : ∀ f, Statement (.laneFpres f) := fun f => encodeLane_lt 0x6 0x03 f (by decide) (by decide)

theorem laneFdflt : ∀ f, Statement (.laneFdflt f) := fun f => encodeLane_lt 0x6 0x04 f (by decide) (by decide)

theorem laneHist : ∀ f, Statement (.laneHist f) := fun f => encodeLane_lt 0x6 0x05 f (by decide) (by decide)

theorem laneShfl : ∀ f, Statement (.laneShfl f) := fun f => encodeLane_lt 0x7 0x00 f (by decide) (by decide)

theorem laneQuad : ∀ f, Statement (.laneQuad f) := fun f => encodeLane_lt 0x7 0x01 f (by decide) (by decide)

theorem laneWred : ∀ f, Statement (.laneWred f) := fun f => encodeLane_lt 0x7 0x02 f (by decide) (by decide)

theorem laneTred : ∀ f, Statement (.laneTred f) := fun f => encodeLane_lt 0x7 0x03 f (by decide) (by decide)

theorem laneLd : ∀ f, Statement (.laneLd f) := fun f => encodeLane_lt 0x8 0x00 f (by decide) (by decide)

theorem laneSt : ∀ f, Statement (.laneSt f) := fun f => encodeLane_lt 0x8 0x01 f (by decide) (by decide)

theorem lanePref : ∀ f, Statement (.lanePref f) := fun f => encodeLane_lt 0x8 0x02 f (by decide) (by decide)

theorem laneAtomAdd : ∀ f, Statement (.laneAtomAdd f) := fun f => encodeLane_lt 0x9 0x00 f (by decide) (by decide)

theorem laneAtomMin : ∀ f, Statement (.laneAtomMin f) := fun f => encodeLane_lt 0x9 0x01 f (by decide) (by decide)

theorem laneAtomMax : ∀ f, Statement (.laneAtomMax f) := fun f => encodeLane_lt 0x9 0x02 f (by decide) (by decide)

theorem laneAtomAnd : ∀ f, Statement (.laneAtomAnd f) := fun f => encodeLane_lt 0x9 0x03 f (by decide) (by decide)

theorem laneAtomOr : ∀ f, Statement (.laneAtomOr f) := fun f => encodeLane_lt 0x9 0x04 f (by decide) (by decide)

theorem laneAtomXor : ∀ f, Statement (.laneAtomXor f) := fun f => encodeLane_lt 0x9 0x05 f (by decide) (by decide)

theorem laneAtomExch : ∀ f, Statement (.laneAtomExch f) := fun f => encodeLane_lt 0x9 0x06 f (by decide) (by decide)

theorem laneAtomCas : ∀ f, Statement (.laneAtomCas f) := fun f => encodeLane_lt 0x9 0x07 f (by decide) (by decide)

theorem laneAtomFadd : ∀ f, Statement (.laneAtomFadd f) := fun f => encodeLane_lt 0x9 0x08 f (by decide) (by decide)

theorem laneAtomFmax : ∀ f, Statement (.laneAtomFmax f) := fun f => encodeLane_lt 0x9 0x09 f (by decide) (by decide)

theorem laneAtomFmin : ∀ f, Statement (.laneAtomFmin f) := fun f => encodeLane_lt 0x9 0x0A f (by decide) (by decide)

theorem laneRedAdd : ∀ f, Statement (.laneRedAdd f) := fun f => encodeLane_lt 0x9 0x10 f (by decide) (by decide)

theorem laneRedMin : ∀ f, Statement (.laneRedMin f) := fun f => encodeLane_lt 0x9 0x11 f (by decide) (by decide)

theorem laneRedMax : ∀ f, Statement (.laneRedMax f) := fun f => encodeLane_lt 0x9 0x12 f (by decide) (by decide)

theorem laneRedAnd : ∀ f, Statement (.laneRedAnd f) := fun f => encodeLane_lt 0x9 0x13 f (by decide) (by decide)

theorem laneRedOr : ∀ f, Statement (.laneRedOr f) := fun f => encodeLane_lt 0x9 0x14 f (by decide) (by decide)

theorem laneRedXor : ∀ f, Statement (.laneRedXor f) := fun f => encodeLane_lt 0x9 0x15 f (by decide) (by decide)

theorem laneRedFadd : ∀ f, Statement (.laneRedFadd f) := fun f => encodeLane_lt 0x9 0x18 f (by decide) (by decide)

theorem laneRedFmax : ∀ f, Statement (.laneRedFmax f) := fun f => encodeLane_lt 0x9 0x19 f (by decide) (by decide)

theorem laneRedFmin : ∀ f, Statement (.laneRedFmin f) := fun f => encodeLane_lt 0x9 0x1A f (by decide) (by decide)

theorem mma : ∀ f, Statement (.mma f) := fun f => encodeLane_lt 0xA 0x00 f (by decide) (by decide)

theorem mmloop : ∀ f, Statement (.mmloop f) := fun f => encodeLane_lt 0xA 0x01 f (by decide) (by decide)

theorem mmzero : ∀ f, Statement (.mmzero f) := fun f => encodeLane_lt 0xA 0x02 f (by decide) (by decide)

theorem mmdrain : ∀ f, Statement (.mmdrain f) := fun f => encodeLane_lt 0xA 0x03 f (by decide) (by decide)

theorem mmcheck : ∀ f, Statement (.mmcheck f) := fun f => encodeLane_lt 0xA 0x04 f (by decide) (by decide)

theorem pairWord : ∀ x y, Statement (.pairWord x y) := by
  intro x y
  have h1 := encodeHalf_lt x
  have h2 := encodeHalf_lt y
  simp only [Statement, encode, Instr.nbits]
  omega

theorem queueEnable : ∀ x0 x1, Statement (.queueEnable x0 x1) := by
  intros; exact Nat.one_pos

theorem submit : ∀ x0 x1 x2, Statement (.submit x0 x1 x2) := by
  intros; exact Nat.one_pos

theorem launchPacket : ∀ x0, Statement (.launchPacket x0) := by
  intros; exact Nat.one_pos

theorem revocationRequest : ∀ x0 x1, Statement (.revocationRequest x0 x1) := by
  intros; exact Nat.one_pos

theorem resourceSeizure : ∀ x0 x1 x2, Statement (.resourceSeizure x0 x1 x2) := by
  intros; exact Nat.one_pos

theorem resourceGrant : ∀ x0 x1 x2 x3, Statement (.resourceGrant x0 x1 x2 x3) := by
  intros; exact Nat.one_pos

theorem claimRequest : ∀ x0 x1 x2, Statement (.claimRequest x0 x1 x2) := by
  intros; exact Nat.one_pos

theorem claimRelease : ∀ x0 x1 x2, Statement (.claimRelease x0 x1 x2) := by
  intros; exact Nat.one_pos

theorem claimDeadline : ∀ x0 x1, Statement (.claimDeadline x0 x1) := by
  intros; exact Nat.one_pos

theorem haltctlHalt : ∀ x0 x1 x2 x3, Statement (.haltctlHalt x0 x1 x2 x3) := by
  intros; exact Nat.one_pos

theorem haltctlResume : ∀ x0 x1 x2 x3, Statement (.haltctlResume x0 x1 x2 x3) := by
  intros; exact Nat.one_pos

theorem haltctlStep : ∀ x0 x1 x2 x3, Statement (.haltctlStep x0 x1 x2 x3) := by
  intros; exact Nat.one_pos

theorem haltctlSave : ∀ x0 x1 x2 x3, Statement (.haltctlSave x0 x1 x2 x3) := by
  intros; exact Nat.one_pos

theorem traceEnable : ∀ x0 x1, Statement (.traceEnable x0 x1) := by
  intros; exact Nat.one_pos

theorem rollCallEnable : ∀ x0 x1 x2, Statement (.rollCallEnable x0 x1 x2) := by
  intros; exact Nat.one_pos

theorem counterSave : ∀ x0 x1, Statement (.counterSave x0 x1) := by
  intros; exact Nat.one_pos

theorem counterLoad : ∀ x0 x1, Statement (.counterLoad x0 x1) := by
  intros; exact Nat.one_pos

theorem strike : ∀ x0, Statement (.strike x0) := by
  intros; exact Nat.one_pos

theorem selfTest : ∀ x0 x1 x2, Statement (.selfTest x0 x1 x2) := by
  intros; exact Nat.one_pos

theorem partitionJoin : ∀ x0, Statement (.partitionJoin x0) := by
  intros; exact Nat.one_pos

theorem quiesce : ∀ x0 x1, Statement (.quiesce x0 x1) := by
  intros; exact Nat.one_pos

theorem ptmExchange : ∀ x0, Statement (.ptmExchange x0) := by
  intros; exact Nat.one_pos

theorem telemetryRefresh : ∀ x0, Statement (.telemetryRefresh x0) := by
  intros; exact Nat.one_pos

theorem registerWrite : ∀ x0 x1 x2, Statement (.registerWrite x0 x1 x2) := by
  intros; exact Nat.one_pos

theorem fixedLatencyWriteBack : Statement (.fixedLatencyWriteBack) := by
  exact Nat.one_pos

theorem loadDelivery : Statement (.loadDelivery) := by
  exact Nat.one_pos

theorem atomicReturn : Statement (.atomicReturn) := by
  exact Nat.one_pos

theorem reductionComplete : Statement (.reductionComplete) := by
  exact Nat.one_pos

theorem storeDelayDeparture : Statement (.storeDelayDeparture) := by
  exact Nat.one_pos

theorem writePerformed : Statement (.writePerformed) := by
  exact Nat.one_pos

theorem reductionLinePerformed : Statement (.reductionLinePerformed) := by
  exact Nat.one_pos

theorem matrixCommandStart : Statement (.matrixCommandStart) := by
  exact Nat.one_pos

theorem matrixStep : Statement (.matrixStep) := by
  exact Nat.one_pos

theorem matrixCommandComplete : Statement (.matrixCommandComplete) := by
  exact Nat.one_pos

theorem crewArrival : Statement (.crewArrival) := by
  exact Nat.one_pos

theorem ferryGo : Statement (.ferryGo) := by
  exact Nat.one_pos

theorem ferryLinePerformed : Statement (.ferryLinePerformed) := by
  exact Nat.one_pos

theorem postcardClose : Statement (.postcardClose) := by
  exact Nat.one_pos

theorem postcardApplication : Statement (.postcardApplication) := by
  exact Nat.one_pos

theorem trapEntry : Statement (.trapEntry) := by
  exact Nat.one_pos

theorem escalation : Statement (.escalation) := by
  exact Nat.one_pos

theorem dispatcherRound : Statement (.dispatcherRound) := by
  exact Nat.one_pos

theorem headAgeExpiry : Statement (.headAgeExpiry) := by
  exact Nat.one_pos

theorem yieldDeadline : Statement (.yieldDeadline) := by
  exact Nat.one_pos

theorem teamSave : Statement (.teamSave) := by
  exact Nat.one_pos

theorem queuePeriodExpiry : Statement (.queuePeriodExpiry) := by
  exact Nat.one_pos

theorem budgetOverrun : Statement (.budgetOverrun) := by
  exact Nat.one_pos

theorem revocationReply : Statement (.revocationReply) := by
  exact Nat.one_pos

theorem revocationDeadline : Statement (.revocationDeadline) := by
  exact Nat.one_pos

theorem escalationEnd : Statement (.escalationEnd) := by
  exact Nat.one_pos

theorem escalationResume : Statement (.escalationResume) := by
  exact Nat.one_pos

theorem escalationSave : Statement (.escalationSave) := by
  exact Nat.one_pos

theorem wctlKeyLoad : Statement (.wctlKeyLoad) := by
  exact Nat.one_pos

theorem wctlKeyErase : Statement (.wctlKeyErase) := by
  exact Nat.one_pos

theorem wctlGo : Statement (.wctlGo) := by
  exact Nat.one_pos

theorem rotationLine : Statement (.rotationLine) := by
  exact Nat.one_pos

theorem frameEvict : Statement (.frameEvict) := by
  exact Nat.one_pos

theorem frameReturn : Statement (.frameReturn) := by
  exact Nat.one_pos

theorem frameScrub : Statement (.frameScrub) := by
  exact Nat.one_pos

theorem boot : Statement (.boot) := by
  exact Nat.one_pos

theorem powerLoss : Statement (.powerLoss) := by
  exact Nat.one_pos

theorem thermalTrip : Statement (.thermalTrip) := by
  exact Nat.one_pos

theorem attestationReport : Statement (.attestationReport) := by
  exact Nat.one_pos

theorem rollCallSample : Statement (.rollCallSample) := by
  exact Nat.one_pos

theorem lifetimeFlush : Statement (.lifetimeFlush) := by
  exact Nat.one_pos

theorem errorBlockClear : Statement (.errorBlockClear) := by
  exact Nat.one_pos

theorem flitCrcFailure : Statement (.flitCrcFailure) := by
  exact Nat.one_pos

theorem linkUp : Statement (.linkUp) := by
  exact Nat.one_pos

theorem fabricRequestGiveUp : Statement (.fabricRequestGiveUp) := by
  exact Nat.one_pos

theorem stopped : Statement (.stopped) := by
  exact Nat.one_pos

theorem fabricResume : Statement (.fabricResume) := by
  exact Nat.one_pos

theorem clockReduction : Statement (.clockReduction) := by
  exact Nat.one_pos

theorem clockRaise : Statement (.clockRaise) := by
  exact Nat.one_pos

theorem prefetchFetchEnded : Statement (.prefetchFetchEnded) := by
  exact Nat.one_pos

theorem linkGoesDown : Statement (.linkGoesDown) := by
  exact Nat.one_pos

theorem orderlyShutdown : Statement (.orderlyShutdown) := by
  exact Nat.one_pos

end Sys2Proof.Laws.Fits
end

