-- ==== Sys2Proof/Tests/Slice0.lean ====
section
/-!
SUPPORT. Tests/Slice0.lean: the model's own tests. Ill-formed words that are refused, words of the spec written out bit by
bit with what they decode to, for every statement a state and operands that meet its hypotheses, with the outcome, and a few
results worked out by hand from the spec.
-/

namespace Sys2Proof.Tests

set_option maxRecDepth 100000
set_option Elab.async false

open Sys2Proof Sys2Proof.Machine

/-! ### Well-formedness -/

/-- A lane word's fields: type, D, A, B, POST, MOD and IMM, the others 0. -/
def lw (ty : BitVec 4) (d a b : BitVec 8) (post : BitVec 5) (mod : BitVec 6) (imm : BitVec 32) : LaneFields :=
  ⟨0, 0, ty, 0, d, a, b, 0, post, 0, mod, imm⟩

/-- One ill-formed term for each check of a scalar word, beside a well-formed neighbour. -/
theorem test_wf_scalar :
    ([.ldS 1 2 3 10 0 0, .ldG 1 2 3 0 2 0, .stS 1 2 3 0 1 0, .stG 1 2 3 10 2 0, .faddF32 1 2 3 6, .cvtS32F32 1 2 6, .mand 0 1 2,
      .mand 1 16 2, .mset 16 1 2, .qset 1 4 0, .qget 1 0 5, .starr 1 10, .sttest 1 2 3 10, .yield 1 0 2, .fence 10 3, .fence 4 0,
      .cget 1 16, .cset 1 16, .unassignedScalarWord 0x01208100] : List Instr).all (fun i => !i.wf) = true
    ∧ ([.ldS 1 2 3 9 0 0, .ldG 1 2 3 0 1 0, .stS 1 2 3 0 2 0, .stG 1 2 3 9 2 0, .faddF32 1 2 3 7, .cvtS32F32 1 2 5, .mand 1 0 2,
      .mand 1 15 2, .mset 15 1 2, .qset 1 3 0, .qget 1 0 4, .starr 1 9, .sttest 1 2 3 9, .yield 1 2 2, .fence 9 3, .fence 4 1,
      .cget 1 15, .cset 1 15, .unassignedScalarWord 0x28000000] : List Instr).all Instr.wf = true := by decide +kernel

/-- The uses of the common fields that R154 refuses: RND, TYPE, SAT, an unused operand, POST, REUSE, MOD, IMM. -/
theorem test_wf_common_fields :
    ([.laneFadd { lw 1 5 4 3 0 0 0 with rnd := 6 }, .laneIadd { lw 0xB 5 4 3 0 0 0 with rnd := 1 }, .laneIadd (lw 1 5 4 3 0 0 0),
      .laneImin { lw 0xB 5 4 3 0 0 0 with sat := 1 }, .laneIabs (lw 7 5 4 3 0 0 0), .laneIadd (lw 0xB 5 4 3 1 0 0),
      .laneLd (lw 1 3 0xF0 6 0 0 0), .laneIadd { lw 0xB 5 4 3 0 0 0 with reuse := 1 }, .laneIadd (lw 0xB 5 4 3 0 1 0),
      .laneIadd (lw 0xB 5 4 3 0 0 1), .laneIadd (lw 0xB 5 4 0xEF 0 0 0), .laneIadd (lw 0xB 5 0xF2 3 0 0 0)] : List Instr).all
      (fun i => !i.wf) = true
    ∧ ([.laneFadd { lw 1 5 4 3 0 0 0 with rnd := 7 }, .laneIadd (lw 0xB 5 4 3 0 0 0), .laneIabs (lw 7 5 4 0 0 0 0),
      .laneIadd (lw 0xB 5 4 3 16 0 0), .laneLd (lw 1 3 0xF0 6 16 0 0), .laneIadd (lw 0xB 5 4 0 0 32 1)] : List Instr).all
      Instr.wf = true := by decide +kernel

/-- Operands: pairs must be even, destinations are masks from m1, a slot is named once, captures come in order, an immediate
fits its type, tiles are below 16, and the fields of single instructions. -/
theorem test_wf_operands :
    ([.laneIadd (lw 0xC 5 4 6 0 0 0), .laneIcmp (lw 0xB 0 4 3 0 0 0), .laneIcmp (lw 9 13 4 3 0 0 0), .laneIcmp (lw 0xB 1 4 3 0 6 0),
      .laneFcmp (lw 1 1 4 3 0 7 0), .laneFadd (lw 1 5 0xE0 0xE0 0 0 0), .laneIadd (lw 0xB 5 0xF1 3 0 0 0),
      .laneIadd (lw 0xB 5 4 3 0 0 0x0100), .laneIadd (lw 9 5 4 0 0 32 256), .laneIadd (lw 0xB 5 0xF0 0 0 32 0),
      .laneFfma (lw 1 5 0xF0 3 0 0 7), .laneMov (lw 0xB 5 4 0 0 32 1), .laneLfn3 (lw 0 5 4 3 0 0 0x00010000),
      .laneBfins (lw 0xB 5 4 3 0 32 0), .laneVote (lw 0 1 4 0 0 4 0), .laneFrcp (lw 0 5 4 0 0 0 0), .laneCvt (lw 1 5 4 0 0 0xD 0),
      .laneBpack (lw 1 5 4 0 0 1 0), .laneBunpack (lw 1 5 0xE4 0 0 0xD 0), .laneBscale (lw 1 5 4 0 0 0 0), .laneFpres (lw 7 1 4 0 0 0 0),
      .laneHist (lw 1 1 4 0 0 0 0), .laneShfl (lw 0xB 5 4 0 0 0x21 32), .laneQuad (lw 0xB 5 4 0 0 3 4), .laneWred (lw 0xB 5 4 0 0 0 0),
      .laneTred (lw 0xB 5 4 0 16 6 0), .laneSt (lw 1 5 0xF0 6 0 4 0), .lanePref (lw 1 0 0xF0 6 0 0 0),
      .laneAtomAdd (lw 0xB 5 0xF0 0xEC 16 0 0), .laneRedAdd (lw 0xB 5 0xF0 3 0 0 0), .mma (lw 4 16 8 0 16 0 0),
      .mmzero (lw 0 1 2 0 16 0 0), .mmdrain (lw 1 8 16 0 16 0 0), .mmcheck (lw 0 1 0 0 0 0 0xE0)] : List Instr).all
      (fun i => !i.wf) = true
    ∧ ([.laneIadd (lw 0xC 4 4 6 0 0 0), .laneIcmp (lw 9 12 4 3 0 0 0), .laneFadd (lw 1 5 0xE0 0xE1 0 0 0),
      .laneIadd (lw 0xB 5 0xF0 0xF1 0 0 0x0302), .laneIadd (lw 9 5 4 0 0 32 255), .laneFfma (lw 1 5 4 3 0 0 7),
      .laneBfins (lw 0xB 5 4 3 0 0 2), .laneBpack (lw 0xD 5 4 0 0 1 0), .laneShfl (lw 0xB 5 4 0 0 0x21 31),
      .laneWred (lw 0xB 5 4 0 16 0 0), .laneSt (lw 1 5 0xF0 6 0 0 0), .lanePref (lw 1 0 0xF0 6 0 32 0),
      .laneAtomAdd (lw 0xB 5 0xF0 3 16 0 0), .laneRedAdd (lw 0xB 0 0xF0 3 0 0 0), .mma (lw 4 15 8 0 16 0 0),
      .mmcheck (lw 0 1 0 0 0 0 0xEC)] : List Instr).all Instr.wf = true := by decide +kernel

/-- The breaches of R163 and R164: a reserved OP6, a bad TYPE3, the type of a half, RND2 of an integer half; destination banks,
source count, width, forwarding, operand kind. Each is a change to the pair of R165's worked encoding. -/
theorem test_wf_pair :
    let x : PairHalf := ⟨0, 0, 0, 3, 1, 0xE4, 4, 3, 0⟩
    let y : PairHalf := ⟨0x12, 0, 0, 0, 2, 3, 3, 5, 0⟩
    pairOk x y = true ∧ pairOk { x with op6 := 7 } y = false ∧ pairOk { x with ty3 := 5 } y = false
    ∧ pairOk { x with ty3 := 0 } y = false ∧ pairOk { x with rnd2 := 1 } y = false ∧ pairOk { x with rsvd := 1 } y = false
    ∧ pairOk x { y with ty3 := 3 } = false ∧ pairOk x { y with d := 5 } = false
    ∧ pairOk { x with b := 5 } y = true ∧ pairOk { x with b := 5 } { y with a := 6 } = false
    ∧ pairOk x { y with ty3 := 1 } = false ∧ pairOk x { y with a := 1 } = false ∧ pairOk { x with a := 0xE0 } y = false := by
  decide +kernel

/-! ### Decoding -/

/-- Scalar words written field by field from R141 to R151, one at least for each family: OP, D, A, B, FN (or the fields of the I, B
and L formats). The last row holds words that R147 and R148 leave unassigned. -/
theorem test_decode_scalar :
    ([(0b000000_010010_000010_000001_00000000, .iadd 18 2 1), (0b000000_000000_000010_000001_00010011, .cmp 2 1),
      (0b000000_000011_000010_000001_00100001, .selCc 3 2 1 1), (0b000001_001011_000000_00000000101010, .iaddi 11 0 42),
      (0b000101_011010_011010_00000000000100, .xori 26 26 4), (0b000110_000011_000010_00000000111111, .shli 3 2 63),
      (0b010000_0010_1111111111111111111101, .brCc 2 (-3)), (0b010001_0000_0000000000000000000101, .call 5),
      (0b010010_000000_000010_000000_00000001, .callr 2), (0b010011_000011_000000_11111111111110, .dbnz 3 (-2)),
      (0b010100_010000_011010_000000_0000_00_10, .ldS 16 26 0 0 0 2), (0b010111_000011_000010_000001_1001_10_11, .stG 3 2 1 9 2 3),
      (0b011000_000011_000010_000001_1001_1_000, .atomCasS 3 2 1 1), (0b011001_000011_000010_000001_1100_0_000, .atomFminG 3 2 1),
      (0b011100_000011_000010_000001_00011_101, .ffmaF32 3 2 1 5), (0b100000_00000000000000000001000000, .lrun 64),
      (0b100001_000000_000010_000000_00000000, .lrunr 2), (0b100010_000011_000000_00000000000000, .wait 3 0),
      (0b100011_001011_000000_000000_00000011, .tkrd 11 3), (0b100100_000000_000010_000001_00000010, .srseed 2 1)]
      : List (Nat × Instr)).all (fun x => decide (decodeScalar x.1 = x.2)) = true
    ∧ ([(0b100101_000000_000001_000000_00000110, .mtest 1), (0b100110_000000_001011_000010_0000_0011, .qset 11 2 3),
      (0b100111_001111_000000_000000_000_1_0000, .barGang 15 0), (0b101000_001011_001100_001101_0001_0011, .stwait 11 12 13 1),
      (0b101001_010101_000000_000000_00000000, .yield 21 0 0), (0b101010_000000_000000_000000_0100_11_00, .fence 4 3),
      (0b101011_001110_001100_001101_00000000, .sub 14 12 13), (0b101100_001011_001100_000000_00000000, .launch 11 12),
      (0b101101_000000_001011_000000_00000001, .cset 11 0), (0b101110_001011_001100_001101_00000000, .tlbw 11 12 13),
      (0b101111_000000_000000_000000_00000001, .halt), (0b101111_000000_001011_001100_00000100, .trap 11 12),
      (0b111111_00000000000000000000000110, .ext 6),
      (0b000000_000011_000010_000001_00010111, .unassignedScalarWord 0x00308117),
      (0b001010_00000000000000000000000000, .unassignedScalarWord 0x28000000),
      (0b010001_0001_0000000000000000000101, .unassignedScalarWord 0x44400005)] : List (Nat × Instr)).all
      (fun x => decide (decodeScalar x.1 = x.2)) = true := by decide +kernel

/-- Lane words written field by field from R152 and R159, one for each class: CLASS, OP, MASK, RND, TYPE, SAT, D, A, B, STALL, POST,
REUSE, MOD, IMM; the worked `ffma` word and pair word of R165. -/
theorem test_decode_lane :
    ([(0b0000_00000000_0010_000_1011_1_00000101_00000100_00000011_0001_10011_0_010000_00000000000000000000000000000000,
        .laneIadd ⟨2, 0, 0xB, 1, 5, 4, 3, 1, 0x13, 0, 0x10, 0⟩),
      (0b0001_00000000_0000_000_0000_0_00000101_00000100_11101100_0000_00000_0_000000_00000000000000001000100011101100,
        .laneLfn3 ⟨0, 0, 0, 0, 5, 4, 0xEC, 0, 0, 0, 0, 0x88EC⟩),
      (0b0010_00000001_0000_000_0001_0_00000001_00000100_00000011_0000_00000_0_000110_00000000000000000000000000000000,
        .laneFcmp ⟨0, 0, 1, 0, 1, 4, 3, 0, 0, 0, 6, 0⟩),
      (0x3032_A214_1516_5980_0000_0017, .laneFfma ⟨2, 5, 1, 0, 0x14, 0x15, 0x16, 5, 0x13, 0, 0, 0x17⟩),
      (0b0100_00000010_0000_000_0001_0_00000101_00000100_00000000_0000_00000_0_000000_00000000000000000000000000000000,
        .laneFsqrt ⟨0, 0, 1, 0, 5, 4, 0, 0, 0, 0, 0, 0⟩),
      (0b0101_00000000_0000_010_0111_0_00000101_00000100_00000000_0000_00000_0_000001_00000000000000000000000000000000,
        .laneCvt ⟨0, 2, 7, 0, 5, 4, 0, 0, 0, 0, 1, 0⟩),
      (0b0110_00000101_0000_000_0001_0_00000000_00000100_00000000_0000_00000_0_000000_00000000000000000000000000000000,
        .laneHist ⟨0, 0, 1, 0, 0, 4, 0, 0, 0, 0, 0, 0⟩)] : List (Nat × Instr)).all
      (fun x => decide (decodeTableWord 96 x.1 = some x.2)) = true
    ∧ ([(0b0111_00000010_0000_000_1011_0_00000101_00000100_00000000_0000_10001_0_000001_00000000000000000000000000000000,
        .laneWred ⟨0, 0, 0xB, 0, 5, 4, 0, 0, 0x11, 0, 1, 0⟩),
      (0b1000_00000000_0000_000_0001_0_00000011_11110000_00000110_0000_10001_0_000000_00000000100000000000000000011000,
        .laneLd ⟨0, 0, 1, 0, 3, 0xF0, 6, 0, 0x11, 0, 0, 0x00800018⟩),
      (0b1001_00011010_0000_000_0001_0_00000000_11110000_00000110_0000_00000_0_000000_00000000000000000000000000011000,
        .laneRedFmin ⟨0, 0, 1, 0, 0, 0xF0, 6, 0, 0, 0, 0, 0x18⟩),
      (0b1010_00000001_0000_000_0100_0_00000111_00001000_00000000_0000_10001_0_100000_00000000000000000000100100001000,
        .mmloop ⟨0, 0, 4, 0, 7, 8, 0, 0, 0x11, 0, 0x20, 0x908⟩),
      (0xF000_603C_8086_1200_0101_81A8, .pairWord ⟨0, 0, 0, 3, 1, 0xE4, 4, 3, 0⟩ ⟨0x12, 0, 0, 0, 2, 3, 3, 5, 0⟩)]
      : List (Nat × Instr)).all (fun x => decide (decodeTableWord 96 x.1 = some x.2)) = true
    ∧ decodeTableWord 96 0xB000_0000_0000_0000_0000_0000 = none ∧ decodeTableWord 96 0xE000_0000_0000_0000_0000_0002 = none
    ∧ decodeTableWord 96 0x00C0_0000_0000_0000_0000_0000 = none := by decide +kernel

/-! ### States of the tests -/

/-- A resident team of one warp of tag 1, world 1, with its code at 0x10000. -/
def tm : Team := { life := .resident, pc := 0x10000#64, nvreg := 4, live := 32, pstat := { tag := 1, world := 1 } }

/-- The team with these scalar registers. -/
def rg (rs : List (Nat × Word)) : Team := { tm with s := rs }

/-- The machine with this team alone: bank 0 of its core and the frame of 0x10000 are its own, and slot 0 maps that frame. -/
def st (t : Team) : State :=
  { teams := [(0, t)], owners := [(resKey 1 0, { tag := 1, world := 1 })],
    tlb := [(0, { w0 := 0x1000F#64, w1 := 0x10000#64, tag := 1, world := 1 })], groups := [(0, { alive := true, members := [0] })] }

/-- The same at tenant level. -/
def ten (t : Team) : Team := { t with pstat := { t.pstat with pl := 1 } }

/-- n bytes of memory. -/
def State.poke (s : State) (k n x : Nat) : State := { s with mem := Store.setAll 0 s.mem (bytesAt k n x) }

/-- The outcome is a next state that satisfies a test; it is this state; the executing team of it does. -/
def ok (o : Out) (f : State → Bool) : Bool := match o with | .next s => f s | _ => false
def isS (o : Out) (u : State) : Bool := ok o fun s => decide (s = u)
def isT (o : Out) (u : Team) : Bool := ok o fun s => decide (s.team = u)
def tst (o : Out) (f : Team → Bool) : Bool := ok o fun s => f s.team

/-- The team took a trap of this cause and value into the handler at 0. -/
def trapped (o : Out) (cause : Nat) (val : Word) : Bool :=
  tst o fun t => decide (t.trapcause = BitVec.ofNat 64 cause) && decide (t.trapval = val) && t.pstat.inh && decide (t.pc = 0)
    && decide (t.trappc = 0x10000#64) && t.frame.isSome

/-! ### Scalar arithmetic -/

/-- R169: results worked by hand. Signed and unsigned high products of -1 and -1; a shift takes six bits of B; an arithmetic shift. -/
theorem test_alu :
    let s := st (rg [(2, -1#64), (3, 65), (4, 0x80)])
    tst (exec (.imulh 5 2 2) s) (fun t => t.reg 5 == 0) = true
    ∧ tst (exec (.imulhu 5 2 2) s) (fun t => t.reg 5 == 0xFFFF_FFFF_FFFF_FFFE#64) = true
    ∧ tst (exec (.shl 5 3 3) s) (fun t => t.reg 5 == 130) = true
    ∧ tst (exec (.sar 5 2 3) s) (fun t => t.reg 5 == -1#64) = true
    ∧ tst (exec (.sxt8 5 4) s) (fun t => t.reg 5 == 0xFFFF_FFFF_FFFF_FF80#64) = true
    ∧ tst (exec (.iminu 5 2 3) s) (fun t => t.reg 5 == 65) = true
    ∧ tst (exec (.imin 5 2 3) s) (fun t => t.reg 5 == -1#64 && t.pc == 0x10004#64) = true
    ∧ tst (exec (.shri 5 2 63) s) (fun t => t.reg 5 == 1) = true
    ∧ tst (exec (.andi 5 2 (-2)) s) (fun t => t.reg 5 == -2#64) = true := by decide +kernel

/-- DivisionResults: a zero divisor with CHK = 0, an ordinary one with CHK = 1, and the quotient that overflows. With CHK = 1 a
zero divisor traps DIVFAULT (R170). -/
theorem witness_DivisionResults :
    let s := st (rg [(2, 7), (4, BitVec.intMin 64), (5, -1#64)])
    let c := st { rg [(2, -7#64), (3, 2)] with pstat := { tm.pstat with chk := true } }
    ((s.team.pstat.chk = false ∨ s.team.reg 3 ≠ 0#64) ∧ isT (exec (.idivu 6 2 3) s) (s.team.wrote 6 (-1#64) 4) = true
      ∧ isT (exec (.irem 6 2 3) s) (s.team.wrote 6 7 4) = true)
    ∧ ((c.team.pstat.chk = false ∨ c.team.reg 3 ≠ 0#64) ∧ isT (exec (.idiv 6 2 3) c) (c.team.wrote 6 (-3#64) 4) = true
      ∧ isT (exec (.irem 6 2 3) c) (c.team.wrote 6 (-1#64) 4) = true)
    ∧ (s.team.reg 4 = BitVec.intMin 64 ∧ s.team.reg 5 = -1#64
      ∧ isT (exec (.idiv 6 4 5) s) (s.team.wrote 6 (BitVec.intMin 64) 4) = true)
    ∧ (c.team.pstat.chk = true ∧ c.team.reg 0 = 0#64 ∧ trapped (exec (.idiv 6 2 0) c) 0x14 (-7#64) = true) := by decide +kernel

/-- R167: 2^63 - 1 plus 1 overflows without a carry; 0 minus 1 borrows, so C is 0. -/
theorem test_flags :
    let s := st (rg [(2, 0x7FFF_FFFF_FFFF_FFFF#64), (3, 1)])
    tst (exec (.iadd 5 2 3) s) (fun t => t.pstat.n && !t.pstat.z && !t.pstat.c && t.pstat.v) = true
    ∧ tst (exec (.cmp 0 3) s) (fun t => t.pstat.n && !t.pstat.z && !t.pstat.c && !t.pstat.v) = true
    ∧ tst (exec (.cmpi 3 1) s) (fun t => !t.pstat.n && t.pstat.z && t.pstat.c && !t.pstat.v) = true := by decide +kernel

/-! ### Control transfers and the prefix -/

/-- Transfers: aligned and misaligned targets of `jr`, `callr` and `ret`; a branch taken and not taken; a loop count that ends. -/
theorem witness_Transfers :
    let s := st (rg [(1, 0x20000), (2, 0x30000), (3, 0x30002), (4, 1)])
    let m := st (rg [(1, 0x20001)])
    ((s.team.reg 2).toNat % 4 = 0 ∧ isT (exec (.callr 2) s) ((s.team.wrote 1 0x10004#64 0).goTo 0x10000#64 0x30000#64) = true)
    ∧ ((s.team.reg 1).toNat % 4 = 0 ∧ tst (exec .ret s) (fun t => t.pc == 0x20000#64) = true)
    ∧ ((s.team.reg 3).toNat % 4 ≠ 0 ∧ trapped (exec (.jr 3) s) 0x08 0x30002#64 = true)
    ∧ ((m.team.reg 1).toNat % 4 ≠ 0 ∧ trapped (exec .ret m) 0x08 0x20001#64 = true)
    ∧ tst (exec (.brCc 2 (-3)) s) (fun t => t.pc == 0xFFF4#64) = true
    ∧ tst (exec (.brCc 1 (-3)) s) (fun t => t.pc == 0x10004#64) = true
    ∧ tst (exec (.dbnz 4 (-3)) s) (fun t => t.pc == 0x10004#64 && t.reg 4 == 0) = true := by decide +kernel

/-- Prefixes: the word after the `ext` can be fetched, and is each of the six instructions, or another one.
`ext` with 6 and `iaddi` with 0x06A0 make 100000 (R165's worked encoding). -/
theorem witness_Prefixes :
    let s (j : Instr) := State.poke (st (rg [(2, 1)])) 0x10004 4 (encode j)
    ([.iaddi 3 2 0x6A0, .imuli 3 2 0x6A0, .andi 3 2 0x6A0, .ori 3 2 0x6A0, .xori 3 2 0x6A0, .cmpi 2 0x6A0, .nop] : List Instr).all
      (fun j => decide ((s j).fetchAt (s j).team ((s j).team.pc + 4#64).toNat 4 = .word (encode j))) = true
    ∧ tst (exec (.ext 6) (s (.iaddi 3 2 0x6A0))) (fun t => t.reg 3 == 100001#64 && t.pc == 0x10008#64) = true
    ∧ tst (exec (.ext 6) (s (.xori 3 2 0x6A0))) (fun t => t.reg 3 == 100001#64) = true
    ∧ encode .nop / 2 ^ 26 % 64 ∉ [1, 2, 3, 4, 5, 9] ∧ trapped (exec (.ext 6) (s .nop)) 0x02 0 = true := by decide +kernel

/-! ### Traps and returns -/

/-- A trap at the current point. -/
def req (t : Team) : TrapReq := t.here 0x03 false 5

/-- TrapEntry: a team that can enter; one that must wait for a queued lane instruction, and one with a register outstanding; one
whose trap escalates. -/
theorem witness_TrapEntry :
    let s := st tm
    let w := st { tm with laneq := [{}] }
    let p := st { tm with pend := [{ id := 1, regs := [(5, 0)] }] }
    let e := st { tm with pstat := { tm.pstat with inh := true } }
    (s.canEnter ∧ (s.raise (req tm)).team = tm.inHandler 0 (req tm))
    ∧ (w.team.pstat.inh = false ∧ w.orphans w.team = [] ∧ w.team.laneq ≠ [] ∧ (w.raise (req tm)).team.trapReq = some (req tm))
    ∧ (p.team.pstat.inh = false ∧ p.orphans p.team = [] ∧ p.team.regPending = true ∧ (p.raise (req tm)).team.frame = none)
    ∧ (e.team.pstat.inh = true ∧ e.team.laneq = [] ∧ (e.raise (req tm)).team.esc = some 3 ∧ (e.raise (req tm)).team.frame = none) := by
  unfold State.canEnter; decide +kernel

/-- TrapInstructions: the causes 1 and 0x14 at the ends of the range, 0 and 0x15 beyond it; `brk` without a debugger that holds BRKH;
an unassigned word. -/
theorem witness_TrapInstructions :
    let s := st (rg [(2, 1), (3, 0x14), (4, 0x15), (5, 9)])
    s.canEnter
    ∧ ((1 ≤ (s.team.reg 2).toNat ∧ (s.team.reg 2).toNat ≤ 0x14) ∧ trapped (exec (.trap 2 5) s) 0x101 9 = true)
    ∧ ((1 ≤ (s.team.reg 3).toNat ∧ (s.team.reg 3).toNat ≤ 0x14) ∧ trapped (exec (.trap 3 5) s) 0x114 9 = true)
    ∧ ((s.team.reg 0).toNat = 0 ∧ trapped (exec (.trap 0 5) s) 0x01 (BitVec.ofNat 64 (encode (.trap 0 5))) = true)
    ∧ (0x14 < (s.team.reg 4).toNat ∧ trapped (exec (.trap 4 5) s) 0x01 (BitVec.ofNat 64 (encode (.trap 4 5))) = true)
    ∧ ((s.dbg s.team.core).dbg.owner ≠ 0xFE ∧ trapped (exec .brk s) 0x0D 0 = true)
    ∧ trapped (exec (.unassignedScalarWord 0x28000000) s) 0x01 0x28000000 = true := by
  unfold State.canEnter; decide +kernel

/-- A team in a handler that it entered from 0x20000. -/
def handling : Team :=
  { ten tm with
    pstat := { tm.pstat with pl := 1, inh := true }, trappc := 0x20000#64, trapseq := 7,
    frame := some ⟨0, false, true, false, true, false, false, false, false, 3, [(2, { count := 1 })], [], 0⟩ }

/-- Eret: a frame to return to; user level; INH = 0; a live token that counts. -/
theorem witness_Eret :
    let s := st handling
    let u := st tm
    let n := st (ten tm)
    let w := st { handling with tok := [(2, { count := 1 })], pend := [{ id := 1, kind := .store, tok := some 2 }] }
    (s.team.pstat.pl ≠ 0#2 ∧ s.team.pstat.inh = true ∧ s.orphanToken s.team = none ∧ s.team.tokensZero = true ∧ s.team.frame.isSome
      ∧ s.team.traplidx = 0xFFFFFFFF#32 ∧ s.isExt s.team (s.team.trappc - 4#64).toNat = false ∧ s.team.pstat.p = false
      ∧ s.traces s.team.core s.team.pstat.tag 4 = false
      ∧ tst (exec .eret s) (fun t => t.pc == 0x20000#64 && t.pstat.pl == 0 && t.pstat.stp && t.pstat.z && t.seqctr == 7
          && t.srctr == 3 && (t.token 2).count == 1) = true)
    ∧ (u.team.pstat.pl = 0#2 ∧ trapped (exec .eret u) 0x03 0xBC000002 = true)
    ∧ (n.team.pstat.pl ≠ 0#2 ∧ n.team.pstat.inh = false ∧ trapped (exec .eret n) 0x01 0xBC000002 = true)
    ∧ (w.team.pstat.pl ≠ 0#2 ∧ w.team.pstat.inh = true ∧ w.orphanToken w.team = none ∧ w.team.tokensZero = false
      ∧ isS (exec .eret w) w = true) := by decide +kernel

/-- TrapThenEret: a trap, and the return after it. -/
theorem witness_TrapThenEret :
    let s := st { rg [(2, 9)] with pstat := { tm.pstat with z := true } }
    let s₁ := s.raise (s.team.here 3 false 5)
    s.canEnter ∧ s.traces s.team.core s.team.pstat.tag 4 = false ∧ s₁.orphanToken s₁.team = none
    ∧ s.isExt s₁.team (s.team.pc - 4#64).toNat = false ∧ s.team.pstat.p = false
    ∧ tst (exec .eret s₁) (fun t => t.pc == s.team.pc && t.pstat == s.team.pstat && t.s == s.team.s) = true := by
  unfold State.canEnter; decide +kernel

/-! ### Scalar floating point -/

/-- ScalarFloat: a rounding mode that is not reserved; operands ABSENT, NaN, less, greater, equal. 1 + 2 = 3; the ABSENT code goes
through an addition, and an invalid operation gives the canonical NaN 0x7FC00000 (R75, R76). -/
theorem witness_ScalarFloat :
    let s := st (rg [(2, 0x3F800000), (3, 0x40000000), (4, 0xFFFFFFFF), (5, 0x7FC00001), (6, 0x7F800000), (7, 0xFF800000)])
    (0 : BitVec 3) ≠ 6#3 ∧ tst (exec (.faddF32 8 2 3 0) s) (fun t => t.reg 8 == 0x40400000#64) = true
    ∧ tst (exec (.fsubF32 8 4 3 0) s) (fun t => t.reg 8 == 0xFFFFFFFF#64) = true
    ∧ tst (exec (.faddF32 8 6 7 0) s) (fun t => t.reg 8 == 0x7FC00000#64) = true
    ∧ s.team.f32v 4 = .absent ∧ tst (exec (.fminF32 8 2 4) s) (fun t => t.reg 8 == 0xFFFFFFFF#64) = true
    ∧ s.team.f32v 5 = .nan ∧ s.team.f32v 2 ≠ .absent ∧ tst (exec (.fcmpF32 2 5) s) (fun t => t.pstat.v && !t.pstat.z) = true
    ∧ (s.team.f32v 2).lt (s.team.f32v 3) = true ∧ tst (exec (.fcmpF32 2 3) s) (fun t => t.pstat.n && !t.pstat.c) = true
    ∧ tst (exec (.fcmpF32 3 2) s) (fun t => t.pstat.c && !t.pstat.n && !t.pstat.z) = true
    ∧ (s.team.f32v 2).lt (s.team.f32v 2) = false ∧ tst (exec (.fcmpF32 2 2) s) (fun t => t.pstat.c && t.pstat.z) = true := by
  decide +kernel

/-- ScalarFloat, minimum and maximum: 1 and 2 in either order, a NaN on either side and on both, -0 and +0 in either order, 1 and 1. -/
theorem witness_ScalarFloat_least :
    let s := st (rg [(2, 0x3F800000), (3, 0x40000000), (4, 0x7FC00001), (5, 0x80000000)])
    let least (a b : BitVec 6) (x : Word) : Bool := tst (exec (.fminF32 8 a b) s) fun t => t.reg 8 == x
    let most (a b : BitVec 6) (x : Word) : Bool := tst (exec (.fmaxF32 8 a b) s) fun t => t.reg 8 == x
    let v := s.team.f32v
    ((v 2).lt (v 3) = true ∧ least 2 3 0x3F800000 = true ∧ most 2 3 0x40000000 = true)
    ∧ ((v 3).lt (v 2) = false ∧ (v 2).lt (v 3) = true ∧ least 3 2 0x3F800000 = true ∧ most 3 2 0x40000000 = true)
    ∧ (v 4 = .nan ∧ v 2 ≠ .nan ∧ v 2 ≠ .absent ∧ least 4 2 0x3F800000 = true ∧ most 4 2 0x3F800000 = true
      ∧ least 2 4 0x3F800000 = true ∧ most 2 4 0x3F800000 = true ∧ least 4 4 0x7FC00000 = true ∧ most 4 4 0x7FC00000 = true)
    ∧ ((v 5).lt (v 0) = false ∧ (v 0).lt (v 5) = false ∧ (v 5).isNeg = true ∧ (v 0).isNeg = false
      ∧ least 5 0 0x80000000 = true ∧ most 5 0 0 = true ∧ least 0 5 0x80000000 = true ∧ most 0 5 0 = true)
    ∧ ((v 2).lt (v 2) = false ∧ (v 2).isNeg = (v 2).isNeg ∧ least 2 2 0x3F800000 = true ∧ most 2 2 0x3F800000 = true) := by decide +kernel

/-! ### Lane dispatch, tokens, formats, masks, slots -/

/-- A team whose group has a block of two words at 0x10100: `iadd.n32 v1, v2, v3` and a `mov` of capture X = s2, with HDR 0xE, LEN 2. -/
def blockState (t : Team) : State :=
  let s := st t
  let w1 := encode (.laneIadd (lw 0xB 1 2 3 0 0 0))
  let w2 := encode (.laneMov (lw 0xB 4 0xF0 0 0 0 2))
  let s := State.poke (State.poke (State.poke s 0x10100 12 0xE000_0000_0000_0000_0000_0002) 0x1010C 12 w1) 0x10118 12 w2
  { s with groups := [(0, { alive := true, members := [0], lcbase := 0x10100#64, lclen := 0x24 })] }

/-- BlockEnqueued, for `lrun 0` and for `lrunr` with the header's address: every hypothesis, and the two entries. -/
theorem witness_BlockEnqueued :
    let s := blockState (rg [(2, 0x1234), (3, 0x10100)])
    let t := s.team
    let w1 := encode (.laneIadd (lw 0xB 1 2 3 0 0 0))
    let w2 := encode (.laneMov (lw 0xB 4 0xF0 0 0 0 2))
    (0x10100 = (s.groupAt t.group).lcbase.toNat + 4 * (0 : BitVec 26).toNat ∧ 0x10100 = (t.reg 3).toNat)
    ∧ s.header t 0x10100 = .block 2 false ∧ t.lidx = none ∧ t.laneq.length + 2 ≤ 64 ∧ 1 ≤ 2 ∧ (s.dbg t.core).bps = []
    ∧ t.stepOnce = false
    ∧ ([(0, w1), (1, w2)] : List (Nat × Nat)).all (fun x => decide (
        s.fetchAt t (0x10100 + 12 * (x.1 + 1)) 12 = .word x.2 ∧ s.enqueueFault t x.2 false = none)) = true
    ∧ tst (exec (.lrun 0) s) (fun u => u.laneq.length == 2 && (u.laneq.map LaneEntry.x == [t.reg (BitVec.ofNat 6 w1), 0x1234])
        && u.pc == 0x10004#64 && u.seqctr == 2) = true
    ∧ isT (exec (.lrunr 3) s) (match exec (.lrun 0) s with | .next v => v.team | _ => {}) = true := by decide +kernel

/-- QueueTokensFormats: an empty and a filled lane queue; a token that has drained, one that has not, one that a queued word will
post to; a format that FMT takes, and each bad field. -/
theorem witness_QueueTokensFormats :
    let s := st { rg [(2, 1), (3, 0), (4, 0x61), (5, 0x301), (6, 0x40001), (7, 0x20281)] with
      tok := [(3, { count := 2, cancel := true })] }
    let q := st { tm with laneq := [{ word := BitVec.ofNat 96 (encode (.laneIadd (lw 0xB 1 2 3 0x13 0 0))) }] }
    s.team.laneq = [] ∧ isT (exec .lsync s) { s.team with pc := 0x10004#64 } = true
    ∧ q.team.laneq ≠ [] ∧ isS (exec .lsync q) q = true
    ∧ (s.orphanBlocks s.team 3 2 = false ∧ s.team.queuedPost 3 = false ∧ (s.team.token 3).count ≤ (2 : BitVec 6).toNat
      ∧ isT (exec (.wait 3 2) s) { s.team with pc := 0x10004#64 } = true)
    ∧ (s.orphanBlocks s.team 3 1 = false ∧ (1 : BitVec 6).toNat < (s.team.token 3).count ∧ isS (exec (.wait 3 1) s) s = true)
    ∧ (q.orphanBlocks q.team 3 63 = false ∧ q.team.queuedPost 3 = true ∧ isS (exec (.wait 3 63) q) q = true)
    ∧ tst (exec (.tkrd 8 3) s) (fun t => t.reg 8 == 66 && t.token 3 == { count := 2 }) = true
    ∧ ((s.team.reg 7).extractLsb' 0 3 ≠ 0#3 ∧ (s.team.reg 7).extractLsb' 5 2 ≠ 3#2 ∧ (s.team.reg 7).extractLsb' 7 3 ≤ 5#3
      ∧ (s.team.reg 7).extractLsb' 18 46 = 0#46 ∧ tst (exec (.fmtset 7) s) (fun t => t.fmt == 0x20281#64) = true)
    ∧ ((s.team.reg 3).extractLsb' 0 3 = 0#3 ∧ (s.team.reg 4).extractLsb' 5 2 = 3#2 ∧ 5#3 < (s.team.reg 5).extractLsb' 7 3
      ∧ (s.team.reg 6).extractLsb' 18 46 ≠ 0#46
      ∧ ([3, 4, 5, 6] : List (BitVec 6)).all (fun a => trapped (exec (.fmtset a) s) 0x01 (BitVec.ofNat 64 (encode (.fmtset a)))) = true) := by
  decide +kernel

/-- MasksAndSlots: masks that nothing holds, at m1 and m15; a range; the fields of a slot at the ends of their ranges. -/
theorem witness_MasksAndSlots :
    let s := st { rg [(2, 31), (3, 32), (4, 0x80000000), (5, 2 ^ 32), (6, 0x1D), (7, 2 ^ 32 - 1), (8, -0x80000000)] with
      m := [(1, 6#1024), (2, 5#1024)] }
    (1 ≤ (15 : BitVec 6).toNat ∧ (15 : BitVec 6).toNat < 16 ∧ s.team.maskHeld [1, 2] 15 = false
      ∧ tst (exec (.mxor 15 1 2) s) (fun t => t.mask 15 == 3#1024 && t.pc == 0x10004#64) = true
      ∧ tst (exec (.mnot 1 2) s) (fun t => t.mask 1 == 0xFFFFFFFA#1024) = true)
    ∧ (s.team.maskHeld [1] 0 = false ∧ tst (exec (.mcount 9 1) s) (fun t => t.reg 9 == 2) = true
      ∧ tst (exec (.mfirst 9 1) s) (fun t => t.reg 9 == 1) = true ∧ tst (exec (.mfirst 9 3) s) (fun t => t.reg 9 == -1#64) = true
      ∧ tst (exec (.mtest 0) s) (fun t => !t.pstat.mz && t.pstat.ma) = true)
    ∧ (1 ≤ (1 : BitVec 6).toNat ∧ s.team.maskHeld [] 1 = false ∧ tst (exec (.mset 1 2 3) s) (fun t => t.mask 1 == 0x80000000#1024) = true)
    ∧ s.team.laneNames 19 = false
    ∧ ((s.team.reg 6).toNat < 32 ∧ 13 ≤ (s.team.reg 6).toNat % 16 ∧ (s.team.reg 2).toNat < 32 ∧ 32 ≤ (s.team.reg 3).toNat
      ∧ trapped (exec (.qset 6 3 1) s) 0x01 (BitVec.ofNat 64 (encode (.qset 6 3 1))) = true)
    ∧ (-2 ^ 31 ≤ (s.team.reg 8).toInt ∧ (s.team.reg 8).toInt < 2 ^ 31 ∧ 2 ^ 31 ≤ (s.team.reg 4).toInt
      ∧ tst (exec (.qset 8 3 2) s) (fun t => (t.stream 3).stride == 0x80000000#32) = true
      ∧ trapped (exec (.qset 4 3 2) s) 0x01 (BitVec.ofNat 64 (encode (.qset 4 3 2))) = true)
    ∧ ((s.team.reg 7).toNat < 2 ^ 32 ∧ 2 ^ 32 ≤ (s.team.reg 5).toNat
      ∧ tst (exec (.qset 7 3 4) s) (fun t => (t.stream 3).pos == 0xFFFFFFFF#32) = true
      ∧ trapped (exec (.qset 5 3 3) s) 0x01 (BitVec.ofNat 64 (encode (.qset 5 3 3))) = true
      ∧ trapped (exec (.qset 5 3 4) s) 0x01 (BitVec.ofNat 64 (encode (.qset 5 3 4))) = true) := by decide +kernel

/-- MasksAndSlots, what is refused: m0 and m16 as destinations, m16 as a source; slot 4 and field 5. -/
theorem witness_MasksRefused :
    let s := st tm
    ([.mand 0 1 2, .mor 16 1 2, .mxor 1 16 2, .mand 1 2 16, .mnot 0 1, .mnot 1 16, .mset 0 2 3, .mset 16 2 3, .mcount 2 16, .mfirst 2 16,
      .mtest 16, .qset 2 4 0, .qget 2 4 0, .qset 2 3 5, .qget 2 3 5] : List Instr).all
      (fun i => trapped (exec i s) 0x01 (BitVec.ofNat 64 (encode i))) = true := by decide +kernel

/-! ### Addresses and scalar memory -/

/-- ScratchpadChecks: the last byte of bank 0 of the own core as core 63; a byte of bank 1, which is not the team's; the same bank of the
team's tag in another world; one past the last core, and one past 2^31. -/
theorem witness_ScratchpadChecks :
    let s := st tm
    let w : State := { s with owners := s.owners ++ [(resKey 1 1, { tag := 1, world := 2 })] }
    let own := 63 * 2 ^ 25
    (own + 2 ^ 19 - 1 < 2 ^ 31 ∧ (own + 2 ^ 19 - 1) / 2 ^ 25 = 63 ∧ (s.owner 1 (0 * 2 ^ 25 + (own + 2 ^ 19 - 1) % 2 ^ 25 / 2 ^ 19)).tag = 1
      ∧ s.checkS 1 1 0 0 (own + 2 ^ 19 - 1) 1 = { keys := [2 ^ 52 + 2 ^ 19 - 1] } ∧ s.checkS 1 1 5 0 7 1 = { keys := [2 ^ 52 + 7] })
    ∧ ((s.owner 1 1).tag ≠ 1 ∧ (worst (s.checkS 1 1 0 9 (own + 2 ^ 19 - 1) 2).fails) = some ⟨0x06, 9, own + 2 ^ 19 - 1, own + 2 ^ 19 - 1⟩)
    ∧ ((w.owner 1 1).tag = 1 ∧ (w.owner 1 1).world ≠ 1 ∧ worst (w.checkS 1 1 0 9 (own + 2 ^ 19 - 1) 2).fails
        = some ⟨0x07, 9, own + 2 ^ 19 - 1, own + 2 ^ 19 - 1⟩)
    ∧ (48 ≤ 48 * 2 ^ 25 / 2 ^ 25 ∧ worst (s.checkS 1 1 0 0 (48 * 2 ^ 25 - 1) 2).fails = some ⟨0x06, 0, 48 * 2 ^ 25 - 1, 48 * 2 ^ 25 - 1⟩)
    ∧ (2 ^ 31 ≤ 2 ^ 31 - 1 + 1 ∧ worst (s.checkS 1 1 0 0 (2 ^ 31 - 1) 2).fails = some ⟨0x06, 0, 2 ^ 31 - 1, 2 ^ 31 - 1⟩) := by decide +kernel

/-- TranslationChoosesLowest: two slots that map a page of 64 KiB, of which the lower counts; no slot; a slot without W; an address that
is not canonical. -/
theorem witness_TranslationChoosesLowest :
    let s : State := { st tm with tlb := [(3, { w0 := 0x10003#64, w1 := 0x50000#64, tag := 1, world := 1 }),
      (511, { w0 := 0x1000F#64, w1 := 0x90000#64, tag := 1, world := 1 })] }
    let slot (i : Nat) : TlbEntry := Store.get {} s.tlb i
    Store.wf ({} : TlbEntry) s.tlb = true
    ∧ (¬(2 ^ 56 / 2 ^ 56 % 256 = 0 ∨ 2 ^ 56 / 2 ^ 56 % 256 = 255) ∧ s.translate 0 1 1 needR (2 ^ 56) = .error 0x05)
    ∧ ((List.range 512).all (fun i => !(slot i).hits 1 1 0x20000) = true ∧ s.translate 0 1 1 needR 0x20000 = .error 0x04)
    ∧ ((slot 3).hits 1 1 0x1FFFF = true ∧ (List.range 3).all (fun i => !(slot i).hits 1 1 0x1FFFF) = true
      ∧ (slot 3).w0.toNat &&& needR = needR ∧ region 0x5FFFF ≠ .outside ∧ s.translate 0 1 1 needR 0x1FFFF = .ok 0x5FFFF)
    ∧ ((slot 3).w0.toNat &&& needW ≠ needW ∧ s.translate 0 1 1 needW 0x10000 = .error 0x05) := by decide +kernel

/-- ScalarLoadsAndStores: a 64-bit load from the team's bank and a 32-bit one from its page; a store of each kind, one with a release. The
bytes are little-endian (R5). -/
theorem witness_ScalarLoadsAndStores :
    let s := State.poke (State.poke (st (rg [(2, 0x7E000000), (3, 0x10000), (4, 8), (5, 0x1122334455667788)])) (2 ^ 52 + 8) 8 0x0102030405060708)
      0x10008 4 0xCAFEF00D
    let k := keysFrom (2 ^ 52 + 8) 8
    let g := keysFrom 0x10008 4
    (s.reaches false 2 (s.team.reg 2 + s.team.reg 4).toNat (2 ^ 3) k ∧ s.clear k ∧ (Instr.ldS 6 2 4 9 1 3).wf = true
      ∧ isT (exec (.ldS 6 2 4 9 1 3) s) (s.team.wrote 6 0x0102030405060708 4) = true)
    ∧ (s.reaches true 2 (s.team.reg 3 + s.team.reg 4).toNat (2 ^ 2) g ∧ s.clear g ∧ (Instr.ldG 6 3 4 0 0 2).wf = true
      ∧ isT (exec (.ldG 6 3 4 0 0 2) s) (s.team.wrote 6 0xCAFEF00D 4) = true)
    ∧ (s.reaches false 4 (s.team.reg 2 + s.team.reg 4).toNat (2 ^ 3) k ∧ k.Nodup ∧ s.fabricHeld k = false
      ∧ s.team.binsAhead true k = false
      ∧ (Instr.stS 5 2 4 3 2 3).wf = true
      ∧ tst (exec (.stS 5 2 4 3 2 3) s) (fun t => s.load t k == 0x1122334455667788 && (t.sdq.map WriteOp.release == [some 3])) = true)
    ∧ (s.reaches true 4 (s.team.reg 3 + s.team.reg 4).toNat (2 ^ 2) g ∧ g.Nodup ∧ s.fabricHeld g = false ∧ s.team.binsAhead false g = false
      ∧ tst (exec (.stG 5 3 4 0 0 2) s) (fun t => s.load t g == 0x55667788 && s.load t [0x1000C] == 0) = true) := by
  unfold State.reaches State.clear; decide +kernel

/-- ScalarAtomics: a 64-bit `cas` in the bank. -/
theorem witness_ScalarAtomics_cas :
    let s := st (rg [(2, 0x7E000008), (5, 7), (6, 9)])
    let k := keysFrom (2 ^ 52 + 8) 8
    Instr.scalarAtomic? (.atomCasS 6 2 5 1) = some (false, .cas, 0xC#4, 8, 6, 2, 5) ∧ s.reaches false 6 (s.team.reg 2).toNat 8 k
    ∧ (s.team.reg 2).toNat % 8 = 0 ∧ (k.any s.poisoned || s.fabricHeld k || k.any s.unreachable || k.any onFabric || s.team.binsAhead false k) = false
    ∧ tst (exec (.atomCasS 6 2 5 1) s) (fun t => t.scalarPending && t.sdq.length == 1) = true := by
  refine ⟨rfl, ?_⟩; unfold State.reaches; decide +kernel

/-- ScalarAtomics: a 32-bit `add` in the page. -/
theorem witness_ScalarAtomics_add :
    let s := State.poke (st (rg [(3, 0x10008), (5, 7)])) 0x10008 4 1
    let g := keysFrom 0x10008 4
    Instr.scalarAtomic? (.atomAddG 6 3 5 0) = some (true, .add, 0xB#4, 4, 6, 3, 5) ∧ s.reaches true 6 (s.team.reg 3).toNat 4 g
    ∧ (s.team.reg 3).toNat % 4 = 0 ∧ (g.any s.poisoned || s.fabricHeld g || g.any s.unreachable || g.any onFabric || s.team.binsAhead false g) = false
    ∧ tst (exec (.atomAddG 6 3 5 0) s) (fun t => t.pc == 0x10000#64) = true := by
  refine ⟨rfl, ?_⟩; unfold State.reaches; decide +kernel

/-! ### Fences, barriers, stiles -/

/-- FencesAndBarriers, fences: nothing under way at system scope; a queued lane instruction; a queued store and a release; a returning
atomic that is still queued, which holds an acquire fence too. -/
theorem witness_Fences :
    let s := st { tm with stale := [(5, 1)] }
    let l := st { tm with laneq := [{}] }
    let q := st { tm with sdq := [{ id := 1, what := .bytes [(0, 1)], born := 0 }] }
    let a := st { tm with sdq := [{ id := 1, what := .atomic { mode := { op := .add, ty := 0xB }, key := 0, size := 4, val := 5 }, born := 0 }] }
    (3#2 ≠ 0#2 ∧ (9 : BitVec 4).toNat ≤ 9 ∧ s.quiet true true true ∧ isT (exec (.fence 9 3) s) { tm with pc := 0x10004#64 } = true)
    ∧ (l.team.laneq ≠ [] ∧ isS (exec (.fence 0 1) l) l = true)
    ∧ (q.team.sdq ≠ [] ∧ 2 ≤ (2 : BitVec 2).toNat ∧ isS (exec (.fence 0 2) q) q = true)
    ∧ (a.team.sdq.any WriteOp.returns = true ∧ isS (exec (.fence 0 1) a) a = true)
    ∧ (q.quiet false false false ∧ tst (exec (.fence 0 1) q) (fun t => t.pc == 0x10004#64) = true) := by
  unfold State.quiet; decide +kernel

/-- Two teams of a group with one barrier granted, the second of which waits there if `came`. -/
def barState (gang came : Bool) : State :=
  let t : Team := { tm with index := 1, barWait := if came then some (0, gang, 7) else none }
  { st tm with
    teams := [(0, tm), (1, t)]
    groups := [(0, { alive := true, members := [0, 1], nteam := 2, nbar := 1, gang := if gang then some 1 else none,
                     bars := if came then [(0, { kind := some gang, arrived := [1], warps := 4, teams := 2, departed := true })] else [] })] }

/-- FencesAndBarriers, barriers, of both kinds: a team that waits for the other; the arrival that completes the phase, after a kill of
warp 2 of team 1 and a departure: the status of R265 is 4·2^32 + 2·2^16 + 2 + 1. -/
theorem witness_Barriers (gang : Bool) :
    let s := barState gang false
    Store.wf ({} : Group) s.groups = true ∧ s.canArrive gang 0
    ∧ (0 ∈ s.barGroups 0 gang ∧ 1 ∈ (s.groupAt 0).members ∧ s.expected 1 = true ∧ 1 ≠ s.cur
      ∧ (∀ g ∈ s.barGroups 0 gang, 1 ∉ ((s.groupAt g).bar 0).arrived)
      ∧ tst (exec (barInstr gang 6 0) s) (fun t => t.barWait == some (0, gang, 6) && t.pc == 0x10000#64) = true) := by
  unfold State.canArrive State.quiet; revert gang; decide +kernel

theorem witness_Barriers_complete (gang : Bool) :
    let c := barState gang true
    Store.wf ({} : Group) c.groups = true ∧ c.canArrive gang 0
    ∧ (c.barGroups 0 gang = [0] ∧ c.cur ∉ ((c.groupAt 0).bar 0).arrived ∧ c.team.life = .resident
      ∧ (∀ id ∈ (c.groupAt 0).members, id = c.cur ∨ id ∈ ((c.groupAt 0).bar 0).arrived)
      ∧ (c.teamAt 1).life = .resident ∧ (c.teamAt 1).barWait = some (0, gang, 7)
      ∧ ok (exec (barInstr gang 6 0) c) (fun v => v.team.reg 6 == 0x4_0002_0003#64 && (v.teamAt 1).reg 7 == 0x4_0002_0003#64
          && (v.teamAt 1).pc == 0x10004#64 && (v.groupAt 0).bar 0 == {}) = true) := by
  unfold State.canArrive State.quiet; revert gang; decide +kernel

/-- A stile at the start of the bank: PTRANS 16, one arrival expected and pending, phase 0. -/
def stileState (rs : List (Nat × Word)) (p : Bool) : State :=
  let t := rg ((1, 0x20000) :: rs)
  State.poke (st { t with yieldpc := 0x10020#64, pstat := { t.pstat with p := p } }) (2 ^ 52) 8 0x0000_0010_0001_0002

/-- StileInstructions: both queued writes; a test of either phase; a `stwait` that goes on and one that waits; a `starr` behind a
histogram add that has not issued. -/
theorem witness_StileInstructions :
    let s := stileState [(2, 0x7E000000), (3, 1), (4, 2 ^ 32 - 1)] false
    let k := keysFrom (2 ^ 52) 16
    let h := s.setTeam { s.team with laneq := [{ word := BitVec.ofNat 96 (encode (.laneHist (lw 1 0 4 0 0 0 0))), hist := 0x7E000000 }] }
    s.stileKeys s.team (s.team.reg 2) = .ok k ∧ k.any s.poisoned = false ∧ (s.team.reg 4).toNat < 2 ^ 32 ∧ (9 : BitVec 4).toNat ≤ 9
    ∧ s.team.queuedWrite k = false ∧ s.scalarWait s.team k = false ∧ s.team.binsAhead true k = false
    ∧ (h.team.binsAhead true k = true ∧ isS (exec (.starr 2 9) h) h = true)
    ∧ tst (exec (.stexp 2 4) s) (fun t => t.sdq.length == 1 && t.pc == 0x10004#64) = true
    ∧ tst (exec (.starr 2 9) s) (fun t => t.sdq.map WriteOp.release == [some 9]) = true
    ∧ tst (exec (.sttest 5 2 3 9) s) (fun t => t.reg 5 == 1) = true ∧ tst (exec (.sttest 5 2 0 9) s) (fun t => t.reg 5 == 0) = true
    ∧ ((s.stile (2 ^ 52)).phase ≠ (s.team.reg 3).toNat % 2 ∧ tst (exec (.stwait 5 2 3 9) s) (fun t => t.pc == 0x10004#64) = true)
    ∧ ((s.stile (2 ^ 52)).phase = (s.team.reg 0).toNat % 2 ∧ isS (exec (.stwait 5 2 0 9) s) s = true) := by decide +kernel

/-- StileCounts: an arrival that is expected, and one too many; bytes below and past the limit; bytes counted to the end: the last turns
the phase and sets the arrivals anew (R342). -/
theorem witness_StileCounts :
    let s := stileState [] false
    let a := s.arriveStile (2 ^ 52) 0x10000#64 5
    (∀ t ∈ s.teams, t.2.park = none) ∧ s.posts = [] ∧ 0 < (s.stile (2 ^ 52)).parr
    ∧ ((a.stile (2 ^ 52)).parr = 0 ∧ (a.stile (2 ^ 52)).phase = 0 ∧ ((a.arriveStile (2 ^ 52) 0x10000#64 5).stile (2 ^ 52)).status = 4
      ∧ ((a.arriveStile (2 ^ 52) 0x10000#64 5).stile (2 ^ 52)).errpc = 0x4000)
    ∧ ((s.stile (2 ^ 52)).ptrans + (2 ^ 32 - 17) < 2 ^ 32 ∧ 0 < 2 ^ 32 - 17 ∧ 2 ^ 32 ≤ (s.stile (2 ^ 52)).ptrans + (2 ^ 32 - 16)
      ∧ ((s.expectBytes (2 ^ 52) (2 ^ 32 - 17) 0 0).stile (2 ^ 52)).ptrans = 2 ^ 32 - 1
      ∧ ((s.expectBytes (2 ^ 52) (2 ^ 32 - 16) 0 0).stile (2 ^ 52)).status = 8)
    ∧ (16 ≤ (s.stile (2 ^ 52)).ptrans ∧ ((a.countBytes (2 ^ 52) 16 [] 0 0).stile (2 ^ 52)).phase = 1
      ∧ ((a.countBytes (2 ^ 52) 16 [] 0 0).stile (2 ^ 52)).parr = 1) := by decide +kernel

/-- YieldAndMonitor, yields: the plain form with and without P; the stile form under P, with the phase turned, and parked. -/
theorem witness_Yields :
    let s := stileState [(2, 0x7E000000), (3, 1)] false
    let p := stileState [(2, 0x7E000000), (3, 1)] true
    let k := keysFrom (2 ^ 52) 16
    (s.orphanToken s.team = none ∧ s.team.laneq = [] ∧ s.team.tokensZero = true ∧ s.team.yieldpc.toNat % 4 = 0
      ∧ s.isExt s.team (s.team.yieldpc - 4#64).toNat = false ∧ s.team.pstat.p = false ∧ p.team.pstat.p = true)
    ∧ tst (exec (.yield 5 0 0) s) (fun t => t.reg 5 == 3 && t.pc == 0x10020#64) = true
    ∧ tst (exec (.yield 5 0 0) p) (fun t => t.reg 5 == 3 && t.saveReq == some 1 && !t.pstat.p) = true
    ∧ ((2 : BitVec 6) ≠ 0#6 ∧ s.stileKeys s.team (s.team.reg 2) = .ok k ∧ s.team.queuedWrite k = false ∧ s.scalarWait s.team k = false
      ∧ k.any s.poisoned = false ∧ tst (exec (.yield 5 2 3) p) (fun t => t.reg 5 == 2 && t.saveReq == some 1) = true)
    ∧ ((s.stile (2 ^ 52)).phase ≠ (s.team.reg 3).toNat % 2 ∧ tst (exec (.yield 5 2 3) s) (fun t => t.reg 5 == 1) = true)
    ∧ ((s.stile (2 ^ 52)).phase = (s.team.reg 0).toNat % 2 ∧ tst (exec (.yield 5 2 0) s) (fun t => t.park.isSome) = true) := by
  decide +kernel

/-- YieldAndMonitor, `mwait`: the word differs, and it is equal. -/
theorem witness_Monitor :
    let s := stileState [(2, 0x7E000008), (3, 1)] false
    let k := keysFrom (2 ^ 52 + 8) 8
    (s.team.reg 2).toNat % 8 = 0 ∧ s.reaches false 2 (s.team.reg 2).toNat 8 k ∧ s.scalarWait s.team k = false ∧ k.any s.poisoned = false
    ∧ (BitVec.ofNat 64 (s.load s.team k) ≠ s.team.reg 3 ∧ isT (exec (.mwait 5 2 3) s) (s.team.wrote 5 1 4) = true)
    ∧ (BitVec.ofNat 64 (s.load s.team k) = s.team.reg 0 ∧ s.team.pstat.p = false
      ∧ tst (exec (.mwait 5 2 0) s) (fun t => t.park == some (.watch ((2 ^ 52 + 8) / 32) 5)) = true) := by
  unfold State.reaches; decide +kernel

/-! ### Subscriptions, launch, control registers, translation buffer, the end of a team -/

/-- A machine whose team owns bank 0 of cores 0 and 1, and every postcard entry of core 1 has this state. -/
def subState (e : Nat) (rs : List (Nat × Word)) : State :=
  { st (rg rs) with
    owners := [(resKey 1 0, { tag := 1, world := 1 }), (resKey 1 64, { tag := 1, world := 1 })]
    posts := if e = 0 then [(33, { gen := 7 })] else (List.range 32).map fun i => (32 + i, { state := e }) }

/-- Subscriptions, `sub`: regions whose checks pass, of 128 bytes; each status; the lowest free entry. -/
theorem witness_Subscriptions :
    let rs : List (Nat × Word) := [(2, 0x02000000), (3, 0x80_0000_0080), (4, 0x100), (5, 0x80_0200_0000)]
    let s := subState 0 rs
    let f := subState 1 rs
    let t := s.team
    ((t.reg 2).toNat < 2 ^ 32 ∧ (t.reg 2).toNat % 128 = 0 ∧ (t.reg 3).toNat % 2 ^ 32 = 0x80 ∧ (t.reg 3).toNat / 2 ^ 32 = 128
      ∧ s.regionFail t 0x02000000 128 = none ∧ s.regionFail t 0x80 128 = none ∧ regionCore t.core 0x02000000 128 = some 1
      ∧ regionCore t.core 0x80 128 = some 0 ∧ regionCore t.core 0x100 128 = some 0)
    ∧ ((1 : Nat) ≠ t.core ∧ (s.post 32).state = 0
      ∧ ok (exec (.sub 6 2 3) s) (fun v => v.team.reg 6 == 0x1_0100#64 && (v.post 32).state == 1 && (v.post 33).gen == 7) = true)
    ∧ ((List.range 32).all (fun e => (f.post (32 + e)).state != 0) = true
      ∧ tst (exec (.sub 6 2 3) f) (fun t => t.reg 6 == 0x8000000000000001#64) = true)
    ∧ tst (exec (.sub 6 4 3) s) (fun t => t.reg 6 == 0x8000000000000002#64) = true
    ∧ tst (exec (.sub 6 4 5) s) (fun t => t.reg 6 == 0x8000000000000003#64) = true := by decide +kernel

/-- Subscriptions, `subflush` and `unsub`: entry 0 of core 1, of generation 7, free, active and torn. -/
theorem witness_SubscriptionEnds :
    let s (e : Nat) : State := { st (rg [(2, 0x7_0100)]) with posts := [(32, { state := e, gen := 7, tag := 1, world := 1, pub := 2 ^ 25, len := 128 })] }
    handleFields ((s 1).team.reg 2).toNat = some (32, 7) ∧ (s 1).team.pastPoint = false ∧ (s 1).team.flush = none
    ∧ ([0, 1, 2] : List Nat).all (fun e => !(s e).team.queuedIn ((s e).post 32)) = true
    ∧ (((s 0).post 32).state = 0 ∧ tst (exec (.unsub 6 2) (s 0)) (fun t => t.reg 6 == 2) = true)
    ∧ (((s 1).post 32).gen.toNat = 7 ∧ ((s 1).post 32).tag = 1 ∧ ((s 1).post 32).world = 1 ∧ ((s 1).post 32).openCard = none
      ∧ ((s 1).post 32).closed = [] ∧ tst (exec (.subflush 6 2) (s 1)) (fun t => t.reg 6 == 0 && t.pc == 0x10004#64) = true
      ∧ ok (exec (.unsub 6 2) (s 1)) (fun v => (v.post 32).state == 0 && (v.post 32).gen == 7) = true)
    ∧ tst (exec (.subflush 6 2) (s 2)) (fun t => t.reg 6 == 1) = true := by decide +kernel

/-- A descriptor of one group of one team of one warp: NVREG 1, BANKCNT 1, 32 × 1 × 1 lanes, entry point 0x10000, FMT 4, with one pin,
slot 0, for the code page. -/
def descWords : List (Nat × Nat) :=
  [(0, 2 ^ 23), (1, 2 ^ 40 + 2 ^ 33 + 2 ^ 6 + 1), (2, 2 ^ 32 + 32), (3, 1), (5, 0x10000), (8, 0x10010), (9, 4), (12, 0x100), (14, 77), (25, 0x1000F), (26, 0x10000)]

/-- A descriptor at a key, for queue 0 of tag 1 and world 1, which has core 0. -/
def queueState (s : State) (k : Nat) (en : Bool) : State :=
  let s := descWords.foldl (fun s w => State.poke s (k + 8 * w.1) 8 w.2) s
  { s with
    worlds := [(0, 1)], owners := s.owners ++ [(resKey 2 1, { tag := 1, world := 1 })]
    queues := [(0, { en := en, tag := 1, world := 1, vf := 3, cores := 1 })] }

/-- Launches: a descriptor that passes every check (status 0), a queue that is not enabled (status 2), and a descriptor whose one pin lies
elsewhere than its code (status 3, R355). -/
theorem witness_Launches :
    let s := queueState (st (rg [(2, 0x10400)])) 0x10400 true
    let o := queueState (st (rg [(2, 0x10400)])) 0x10400 false
    let w := State.poke s (0x10400 + 8 * 25) 8 0x2000F
    let keys := keysFrom 0x10400 0xD8
    (s.team.reg 2).toNat % 64 = 0 ∧ s.check s.team true 2 0 0x10400 0xC0 = { keys := keys.take 0xC0 }
    ∧ s.check s.team true 2 0 0x10400 0xD8 = { keys := keys } ∧ min 16 (s.load s.team (keys.take 8) / 2 ^ 23 % 32) = 1
    ∧ s.mustWait s.team keys = false ∧ s.quiet true true true ∧ keys.any s.poisoned = false ∧ keys.any s.unreachable = false
    ∧ s.team.park = none
    ∧ ok (exec (.launch 6 2) s) (fun v => v.team.reg 6 == 0 && (v.queueAt 0).work == [{ grid := 1 }] && (v.queueAt 0).subno == 1) = true
    ∧ ok (exec (.launch 6 2) o) (fun v => v.team.reg 6 == 2 && (v.queueAt 0).work == []) = true
    ∧ ok (exec (.launch 6 2) w) (fun v => v.team.reg 6 == 3 && (v.queueAt 0).work == []) = true := by
  unfold State.quiet; decide +kernel

/-- ControlRegisters: a closed register at both levels, an open one; a write of PSTAT at tenant level; the checks of `cset`. TEAMINFO has
SEQCTR in [63:32], NVREG in [31:24] and NWARP in [7:0] (R21). -/
theorem witness_ControlRegisters :
    let s := st { rg [(2, 0x4B5), (3, 4), (4, 0), (5, 0x201)] with seqctr := 9 }
    let p := st { ten (rg [(2, 0x4B5)]) with trapvec := [5, 6] }
    (s.team.pstat.pl = 0#2 ∧ 4 ≤ (9 : BitVec 6).toNat ∧ (9 : BitVec 6).toNat ≤ 9
      ∧ trapped (exec (.cget 6 9) s) 0x03 (BitVec.ofNat 64 (encode (.cget 6 9))) = true
      ∧ trapped (exec (.cget 6 4) s) 0x03 (BitVec.ofNat 64 (encode (.cget 6 4))) = true
      ∧ trapped (exec (.cset 2 15) s) 0x03 (BitVec.ofNat 64 (encode (.cset 2 15))) = true
      ∧ trapped (exec (.cset 2 3) s) 0x03 (BitVec.ofNat 64 (encode (.cset 2 3))) = true)
    ∧ (p.team.pstat.pl ≠ 0#2 ∧ tst (exec (.cget 6 9) p) (fun t => t.reg 6 == 5 && t.trapcur == 1) = true
      ∧ tst (exec (.cset 2 3) p) (fun t => t.pstat == ⟨1, 1, false, true, 1, true, false, true, true, false, true, false, true⟩) = true)
    ∧ (s.team.nvreg < 256 ∧ s.team.core < 64 ∧ s.team.quarter < 4 ∧ s.team.index < 16 ∧ s.team.nwarp < 256 ∧ s.team.crewed.getD 0 < 8
      ∧ tst (exec (.cget 6 12) s) (fun t => t.reg 6 == 0x9_0400_0001#64) = true)
    ∧ (fmtOk (s.team.reg 3) = true ∧ tst (exec (.cset 3 0) s) (fun t => t.fmt == 4) = true)
    ∧ (fmtOk (s.team.reg 4) = false ∧ trapped (exec (.cset 4 0) s) 0x01 (BitVec.ofNat 64 (encode (.cset 4 0))) = true)
    ∧ (((s.team.reg 5).extractLsb' 0 32).toNat % 1024 ≠ 0 ∧ trapped (exec (.cset 5 14) s) 0x08 0x201 = true) := by decide +kernel

/-- ControlRegisters, more: GROUPINFO of group 6 of gang 3; TIME of a queue without a function, and of one whose function hides 100 stolen
ticks and counts from 50; `cset` of TRAPCAUSE at tenant level; HISTBASE in the team's own bank as core 63 and as core 0, in another
bank, and past 2^31. -/
theorem witness_ControlRegisters_more :
    let s : State := { st (ten (rg [(2, 0x4B5), (3, 0x7E000400), (4, 0x400), (5, 0x80000), (6, 0x80000000)])) with
      now := 1000, groups := [(0, { alive := true, members := [0], linear := 6, gang := some 3 })] }
    let v : State := { s with queues := [(0, { vf := 3 })], times := [(3, { hide := true, offset := 50, stolen := 100 })] }
    let fn (s : State) := (s.queueAt (s.gridAt (s.groupAt s.team.group).grid).queue).function
    (fn s = none ∧ tst (exec (.cget 7 11) s) (fun t => t.reg 7 == 1000) = true)
    ∧ (fn v = some 3 ∧ (v.timeBlock 3).stolen ≤ v.now ∧ v.now < 2 ^ 64 ∧ tst (exec (.cget 7 11) v) (fun t => t.reg 7 == 950) = true)
    ∧ ((s.groupAt 0).gang.getD 0 < 2 ^ 16 ∧ (s.groupAt 0).nteam < 32 ∧ (s.groupAt 0).linear < 2 ^ 32
      ∧ tst (exec (.cget 7 13) s) (fun t => t.reg 7 == BitVec.ofNat 64 (2 ^ 56 + 3 * 2 ^ 40 + 2 ^ 32 + 6)) = true)
    ∧ (tst (exec (.cget 7 14) s) (fun t => t.reg 7 == 0) = true ∧ tst (exec (.cget 7 15) s) (fun t => t.reg 7 == 0) = true)
    ∧ tst (exec (.cset 2 4) s) (fun t => t.trapcause == 0xB5 && t.pc == 0x10004) = true
    ∧ ((s.team.reg 3).toNat % 2 ^ 32 % 1024 = 0 ∧ (s.team.reg 3).toNat / 2 ^ 25 = 63 ∧ (s.owner 1 0).tag = 1 ∧ (s.owner 1 0).world = 1
      ∧ tst (exec (.cset 3 14) s) (fun t => t.histbase == 0x7E000400) = true ∧ tst (exec (.cset 4 14) s) (fun t => t.histbase == 0x400) = true)
    ∧ ((s.owner 1 1).tag ≠ 1 ∧ trapped (exec (.cset 5 14) s) 0x06 0x80000 = true)
    ∧ (2 ^ 31 ≤ (s.team.reg 6).toNat ∧ trapped (exec (.cset 6 14) s) 0x06 0x80000000 = true) := by decide +kernel

/-- A team at tenant level that owns slots 0 and 511 of its quarter and the frame at 0x50000. -/
def tlbState (rs : List (Nat × Word)) : State :=
  { st (ten (rg rs)) with owners := [(resKey 2 5, { tag := 1, world := 1 }), (resKey 3 0, { tag := 1, world := 1 }),
      (resKey 3 511, { tag := 1, world := 1 }), (resKey 3 510, { tag := 1, world := 2 })] }

/-- TranslationBuffer: an entry that passes its checks into the last slot; slot 0 invalidated; both words read back; user level, a slot past
the last, a slot of another tag, one of another world. -/
theorem witness_TranslationBuffer :
    let s := tlbState [(2, 511), (3, 0x2000F), (4, 0x50000), (5, 512), (7, 5), (8, 510)]
    let u := st (rg [(2, 0)])
    let t := s.team
    let e : TlbEntry := { w0 := t.reg 3, w1 := t.reg 4, tag := 1, world := 1 }
    (t.pstat.pl ≠ 0#2 ∧ t.replace = none ∧ (t.reg 2).toNat < 512 ∧ e.formOk = true ∧ s.slotCause 1 1 t.gq 511 = none
      ∧ s.framesCause 1 1 e = none ∧ t.laneq = [] ∧ t.pastPoint = false ∧ s.replaceDone (s.replaced [511]) = true
      ∧ ok (exec (.tlbw 2 3 4) s) (fun v => (Store.get {} v.tlb 511 : TlbEntry) == e && v.team.pc == 0x10004#64) = true)
    ∧ ((t.reg 0).toNat < 512 ∧ s.slotCause 1 1 t.gq 0 = none ∧ s.replaceDone (s.replaced [0]) = true
      ∧ ok (exec (.tlbi 0) s) (fun v => (v.lookup 0 1 1 0x10000).isNone) = true
      ∧ tst (exec (.tlbrW0 6 0) s) (fun t => t.reg 6 == 0x1000F#64) = true ∧ tst (exec (.tlbrW1 6 0) s) (fun t => t.reg 6 == 0x10000#64) = true)
    ∧ (u.team.pstat.pl = 0#2 ∧ trapped (exec (.tlbi 2) u) 0x03 (BitVec.ofNat 64 (encode (.tlbi 2))) = true)
    ∧ (512 ≤ (t.reg 5).toNat ∧ (t.reg 5).toNat < 2 ^ 63 ∧ trapped (exec (.tlbrW1 6 5) s) 0x01 (BitVec.ofNat 64 (encode (.tlbrW1 6 5))) = true)
    ∧ (s.slotCause 1 1 t.gq 5 = some 6 ∧ trapped (exec (.tlbi 7) s) 0x06 5 = true)
    ∧ (s.slotCause 1 1 t.gq 510 = some 7 ∧ trapped (exec (.tlbrW0 6 8) s) 0x07 510 = true) := by decide +kernel

/-- TranslationBuffer, `tlbw` refused and `tlbi` of the whole tag: slot 512, a reserved bit, SIZE 3, a misaligned large page, an address
outside memory; slots of another tag and world; a frame that the tag does not own, and one of another world. -/
theorem witness_TranslationBuffer_refused :
    let s : State := { tlbState [(2, 511), (3, 0x2000F), (4, 0x50000), (5, 512), (6, 0x2004F), (7, 5), (8, 510), (9, 0x2003F), (10, 0x2001F),
        (11, 0x80000000000#64), (12, 0x60000), (13, 0x70000), (14, 0x8000000000000000#64)] with
      tlb := [(0, { w0 := 0x1000F#64, w1 := 0x10000#64, tag := 1, world := 1 }), (511, { w0 := 0x3000F#64, w1 := 0x50000#64, tag := 1, world := 1 })]
      owners := (tlbState []).owners.take 1 ++ [(resKey 2 7, { tag := 1, world := 2 })] ++ (tlbState []).owners.drop 1 }
    let t := s.team
    let ill (i : Instr) : Bool := trapped (exec i s) 0x01 (BitVec.ofNat 64 (encode i))
    (t.pstat.pl ≠ 0#2 ∧ t.replace = none ∧ 512 ≤ (t.reg 5).toNat ∧ ill (.tlbw 5 3 4) = true)
    ∧ ((t.reg 6).extractLsb' 6 10 ≠ 0#10 ∧ (t.reg 9).extractLsb' 4 2 = 3#2 ∧ (t.reg 4).toNat % 2 ^ 21 ≠ 0
      ∧ ill (.tlbw 2 6 4) = true ∧ ill (.tlbw 2 9 4) = true ∧ ill (.tlbw 2 10 4) = true ∧ ill (.tlbw 2 3 11) = true)
    ∧ (s.slotCause 1 1 t.gq 5 = some 6 ∧ trapped (exec (.tlbw 7 3 4) s) 0x06 5 = true)
    ∧ (s.slotCause 1 1 t.gq 510 = some 7 ∧ trapped (exec (.tlbw 8 3 4) s) 0x07 510 = true)
    ∧ (s.slotCause 1 1 t.gq 511 = none ∧ (s.owner 2 6).tag ≠ 1 ∧ region 0x60000 = .near ∧ trapped (exec (.tlbw 2 3 12) s) 0x06 0x60000 = true)
    ∧ ((s.owner 2 7).tag = 1 ∧ (s.owner 2 7).world ≠ 1 ∧ region 0x70000 = .near ∧ trapped (exec (.tlbw 2 3 13) s) 0x07 0x70000 = true)
    ∧ (t.reg 14 = 0x8000000000000000#64 ∧ t.laneq = [] ∧ t.pastPoint = false ∧ s.replaceDone (s.replaced [0, 511]) = true
      ∧ ok (exec (.tlbi 14) s) (fun v => v.tlb.all fun e => !e.2.w0.getLsbD 0) = true) := by decide +kernel

/-- HaltAndMark: a team with nothing under way, the last of its group; one of two, which barrier 2 then reports; `mark` with and without a trace unit that observes kind 1. -/
theorem witness_HaltAndMark :
    let s := st (rg [(2, 5)])
    let d : State := { s with dbgs := [(0, { dbg := { owner := 0xFE }, trEn := true, trAll := true, kinds := 1 })] }
    let b : State := { s with
      teams := [(0, tm), (1, { tm with index := 1 })], groups := [(0, { alive := true, members := [0, 1], nteam := 2, nbar := 3 })] }
    (1 ∈ (b.groupAt 0).members ∧ 1 ≠ b.cur ∧ b.expected 1 = true ∧ ((b.groupAt 0).bar 2).arrived = [] ∧ b.commanding 0 = false
      ∧ ok (exec .halt b) (fun v => ((v.groupAt 0).bar 2).departed && (v.groupAt 0).alive) = true)
    ∧ (s.orphanToken s.team = none ∧ s.team.tokensZero = true ∧ s.quiet true true false
      ∧ (∀ m ∈ (s.groupAt s.team.group).members, m = s.cur ∨ (s.teamAt m).life = .exited) ∧ s.cur ∈ (s.groupAt s.team.group).members
      ∧ ok (exec .halt s) (fun v => decide ((v.teamAt 0).life = .exited) && !(v.groupAt 0).alive) = true)
    ∧ (s.traces s.team.core s.team.pstat.tag 1 = false ∧ isT (exec (.mark 2) s) { s.team with pc := 0x10004#64 } = true)
    ∧ (d.traces d.team.core d.team.pstat.tag 1 = true ∧ tst (exec (.mark 2) d) (fun t => t.sdq.length == 1) = true) := by
  unfold State.quiet; decide +kernel

/-! ### Lane instructions -/

/-- The queue entry of a lane instruction, with capture X = x. -/
def entry (i : Instr) (x : Word) : LaneEntry := { word := BitVec.ofNat 96 (encode i), x := x, fmt := 4, seq := 3, pc := 0x10000#64 }

/-- A machine at cycle 100 whose team, with m5 = lanes 0 to 3, has this word at the head of its lane queue. -/
def laneState (i : Instr) (x : Word) (v : List (Nat × Lane32)) : State :=
  { st { tm with laneq := [entry i x], v := v, m := [(5, 15#1024)] } with cycle := 100 }

/-- A lane word under mask m5. -/
def lm (ty : BitVec 4) (d a b : BitVec 8) (post : BitVec 5) (mod : BitVec 6) (imm : BitVec 32) : LaneFields :=
  { lw ty d a b post mod imm with mask := 5 }

/-- What the n-th outstanding operation will write to register r of lane l. -/
def pendReg (t : Team) (n r l : Nat) : Option Lane32 := (t.pend[n]?).bind fun p => p.laneReg r l

/-- LaneIssue, in checking mode, for `iadd.n32 v1, v2, v3` with a post to k3 and STALL 2: the pass stands outstanding for 4 cycles. -/
theorem witness_LaneIssue :
    let f : LaneFields := { lm 0xB 1 2 3 0x13 0 0 with stall := 2 }
    let i : Instr := .laneIadd f
    let o : LaneOp := ⟨0, 0x00, f⟩
    let e := { entry i 0 with chk := true }
    let s : State := { laneState i 0 [(vKey 2 1, 40), (vKey 3 1, 2)] with
      teams := [(0, { tm with laneq := [e], v := [(vKey 2 1, 40), (vKey 3 1, 2)], m := [(5, 15#1024)] })] }
    let t := s.team.popped []
    let ps := s.lanePasses o false []
    let q := s.consumeAll t o (ps.flatMap Pass.lanes)
    let c := s.laneCtx o e [] q.vals
    Instr.fixed? i = some (o, specIadd) ∧ s.laneHead i e [] ∧ ps = [⟨0, 100, [0, 1, 2, 3]⟩]
    ∧ s.laneChecked o e [] ps (specIadd.rl c) (specIadd.wl c)
    ∧ (e.chk = true → specIadd.guard c ps = none) ∧ q.fails = [] ∧ q.waits = false ∧ q.lost = [] ∧ q.poison = []
    ∧ tst (exec i s) (fun u => pendReg u 0 1 1 == some 42 && u.laneFree == 103 && (u.pend.map Pend.ready == [104])
        && u.token 3 == { count := 1 } && u.laneq.isEmpty && u.pc == 0x10000#64) = true := by
  refine ⟨rfl, ?_⟩; unfold State.laneHead State.laneChecked; decide +kernel

/-- LaneIssue with a stream slot as A: two elements of the bank, then ABSENT past COUNT (R204). -/
theorem witness_LaneIssue_slot :
    let f := lm 0xB 1 0xE0 3 0 0 0
    let i : Instr := .laneIadd f
    let s := State.poke { laneState i 0 [] with
      teams := [(0, { tm with laneq := [entry i 0], m := [(5, 7#1024)], q := [(0, { base := 0x7E000000, ty := 0xB, stride := 4, count := 2 })] })] }
      (2 ^ 52) 8 0x00000007_00000005
    let o : LaneOp := ⟨0, 0x00, f⟩
    let q := s.consumeAll (s.team.popped []) o [0, 1, 2]
    Instr.fixed? i = some (o, specIadd) ∧ s.laneHead i (entry i 0) [] ∧ q.fails = [] ∧ q.waits = false ∧ q.lost = [] ∧ q.poison = []
    ∧ tst (exec i s) (fun u => pendReg u 0 1 0 == some 5 && pendReg u 0 1 1 == some 7 && pendReg u 0 1 2 == some (-1)
        && (u.stream 0).pos == 32) = true := by
  refine ⟨rfl, ?_⟩; unfold State.laneHead; decide +kernel

/-- PairIssue, the worked pair of R165 under mask m5, in checking mode: v1 := LANE + v4 and v2 := v3 × v3. -/
theorem witness_PairIssue :
    let x : PairHalf := ⟨0, 5, 0, 3, 1, 0xE4, 4, 3, 0⟩
    let y : PairHalf := ⟨0x12, 5, 0, 0, 2, 3, 3, 5, 0⟩
    let i : Instr := .pairWord x y
    let e := { entry i 0 with chk := true }
    let v : List (Nat × Lane32) := [(vKey 3 2, 0x40400000), (vKey 4 2, 10)]
    let s : State := { laneState i 0 v with teams := [(0, { tm with laneq := [e], v := v, m := [(5, 15#1024)] })] }
    let px := s.lanePasses (LaneOp.ofHalf x) false []
    let m := (s.team.popped []).mayPass 100 5
    s.laneHead i e [] ∧ px = [⟨0, 100, [0, 1, 2, 3]⟩] ∧ s.lanePasses (LaneOp.ofHalf y) false [] = px
    ∧ (e.chk = true → (s.team.popped []).checkTouches ((LaneOp.ofHalf x).touches m 1 100 e.y e.fmt px (fun _ => Pass.lanes) Pass.lanes
        ++ (LaneOp.ofHalf y).touches m 1 100 e.y e.fmt px (fun _ => Pass.lanes) Pass.lanes) = none)
    ∧ (s.team.popped []).pend = [] ∧ x.d ≠ y.d ∧ (LaneOp.ofHalf x).width = 1 ∧ (LaneOp.ofHalf y).width = 1
    ∧ tst (exec i s) (fun u => pendReg u 0 1 2 == some 12 && pendReg u 1 2 2 == some 0x41100000 && u.laneFree == 106
        && u.pend.all fun r => r.part.isEmpty) = true := by
  unfold State.laneHead; decide +kernel

/-- The context of a lane operation in lane 1 over these registers, and its pass. -/
def ctxOf (v : List (Nat × Lane32)) : Ctx := { s := st tm, t := { tm with v := v }, e := { fmt := 4 }, o := ⟨0, 0, lw 0xB 1 2 3 0 0 0⟩ }
def pass01 : Pass := ⟨0, 100, [0, 1]⟩

/-- LaneIntegerResults, at the types of 8 and 64 bits, with SAT, `.ab` and a zero divisor. Bytes of 0x7F and 0x01: the sum wraps to 0x80,
or holds at 0x7F. -/
theorem witness_LaneIntegerResults :
    let c := ctxOf [(vKey 2 1, 0x7F), (vKey 3 1, 0x01)]
    let out (ty op : Nat) (f : LaneFields) (sp : FixedSpec) := ({ c with o := ⟨0, op, f⟩ } : Ctx).outElem sp pass01 1 0 (tyBits ty)
    let n (ty op : Nat) (f : LaneFields) (sp : FixedSpec) := (out ty op f sp).toNat
    (1 ∈ pass01.lanes ∧ (∀ x ∈ pass01.lanes, x < 1024)) ∧ tyElems 5 = 4 ∧ tyElems 0xC = 1
    ∧ ((lw 5 1 2 3 0 0 0).sat = 0#1 ∧ (lw 5 1 2 3 0 0 0).mod.getLsbD 4 = false ∧ n 5 0 (lw 5 1 2 3 0 0 0) specIadd = 0x80)
    ∧ n 5 0 { lw 5 1 2 3 0 0 0 with sat := 1 } specIadd = 0x7F ∧ n 9 1 { lw 9 1 3 2 0 0 0 with sat := 1 } specIsub = 0
    ∧ ((lw 9 1 0xEE 3 0 0x10 0).mod.getLsbD 4 = true
      ∧ ({ c with o := ⟨0, 0, lw 9 1 0xEE 3 0 0x10 0⟩ } : Ctx).inA pass01 1 0 8 = BitVec.allOnes 8
      ∧ n 9 0 (lw 9 1 0xEE 3 0 0x10 0) specIadd = 0xFF)
    ∧ n 7 5 (lw 7 1 2 0xEC 0 0 0) specIdiv = 2 ^ 32 - 1 ∧ n 7 6 (lw 7 1 2 0xEC 0 0 0) specIrem = 0x7F
    ∧ n 0xC 2 (lw 0xC 4 2 2 0 0 0) specImul = 0xFE_0000_3F01 := by decide +kernel

/-- LaneLogicResults: a shift by the width gives 0 and keeps the sign when arithmetic; `land` of 0xF0F0 and 0xFF00; counts of 0 and of 1. -/
theorem witness_LaneLogicResults :
    let c := ctxOf [(vKey 2 1, 0x8000F0F0), (vKey 3 1, 0x20), (vKey 4 1, 0xFF00), (vKey 5 1, 1)]
    let out (op : Nat) (f : LaneFields) (sp : FixedSpec) := ({ c with o := ⟨1, op, f⟩ } : Ctx).outElem sp pass01 1 0 32
    (1 ∈ pass01.lanes ∧ (∀ x ∈ pass01.lanes, x < 1024)) ∧ 0 < tyElems 0xB
    ∧ out 1 (lw 0xB 1 2 3 0 0 0) specIshl = 0#32 ∧ out 3 (lw 0xB 1 2 3 0 0 0) specIsar = -1#32
    ∧ out 0 (lw 0 1 2 4 0 0 0x88EC) specLfn3 = 0xF000#32 ∧ out 7 (lw 0 1 5 0 0 0 0) (bitsSpec bfrev) = 0x80000000#32
    ∧ out 8 (lw 0 1 2 0 0 0 0) (bitsSpec popc) = 9#32 ∧ out 9 (lw 0 1 5 0 0 0 0) (bitsSpec clz) = 31#32
    ∧ out 9 (lw 0 1 6 0 0 0 0) (bitsSpec clz) = 32#32 ∧ out 10 (lw 0 1 2 0 0 0 0) (bitsSpec ctz) = 4#32 := by decide +kernel

/-- LaneLogicResults, fields: five bits of 0x8000F0F0 from bit 4, both ways, and from bit 28, of which only four are there; three
bits of 0xFF00 put at bit 4 of 0x8000F0F0. -/
theorem witness_LaneFields :
    let c := ctxOf [(vKey 2 1, 0x8000F0F0), (vKey 3 1, 0x504), (vKey 4 1, 0xFF00), (vKey 5 1, 0x51C), (vKey 6 1, 0x304)]
    let out (op : Nat) (f : LaneFields) (sp : FixedSpec) := ({ c with o := ⟨1, op, f⟩ } : Ctx).outElem sp pass01 1 0 32
    out 5 (lw 0xB 1 2 3 0 0 0) specBfext = 0xF#32 ∧ out 5 (lw 7 1 2 5 0 0 0) specBfext = 0xFFFFFFF8#32
    ∧ out 5 (lw 0xB 1 2 5 0 0 0) specBfext = 8#32 ∧ out 6 (lw 0xB 1 4 6 0 0 2) specBfins = 0x8000F080#32 := by decide +kernel

/-- LaneCompareAndMove: -1 against 1, signed and unsigned; the select; the quad's neighbour; a shuffle down by one at lane 0 and 1. -/
theorem witness_LaneCompareAndMove :
    let c := ctxOf [(vKey 2 0, 5), (vKey 2 1, -1), (vKey 3 1, 1)]
    let at' (cls op : Nat) (f : LaneFields) : Ctx := { c with o := ⟨cls, op, f⟩ }
    let bit (f : LaneFields) := ((specIcmp.eval (at' 2 0 f) pass01).masks.find? fun m => m.1 == 1024 * 1 + 1).map Prod.snd
    (1 ∈ pass01.lanes ∧ (∀ x ∈ pass01.lanes, x < 1024)) ∧ 0 < tyElems 7
    ∧ bit (lw 7 1 2 3 0 2 0) = some true ∧ bit (lw 0xB 1 2 3 0 2 0) = some false ∧ bit (lw 0xB 1 2 3 0 5 0) = some true
    ∧ (at' 2 2 (lw 0xB 1 2 3 0 0 0)).outElem specSel pass01 1 0 32 = -1#32
    ∧ (at' 7 1 (lw 0xB 1 2 0 0 0 0)).outElem specQuad pass01 1 0 32 = 5#32
    ∧ (at' 7 0 (lw 0xB 1 2 0 0 0x21 1)).outElem specShfl pass01 1 0 32 = 5#32
    ∧ (at' 7 0 (lw 0xB 1 2 0 0 0x21 1)).outElem specShfl pass01 0 0 32 = 5#32 := by decide +kernel

/-- LaneCompareAndMove, shuffles with k = 1 in IMM and in v4: by index, down and by exclusive or within segments of 32, and by index in
a segment of 8 for lane 1. -/
theorem witness_LaneShuffles :
    let c := ctxOf [(vKey 2 0, 5), (vKey 2 1, 6), (vKey 2 2, 7), (vKey 4 0, 1), (vKey 4 1, 1), (vKey 5 1, 10)]
    let out (f : LaneFields) (l : Nat) := ({ c with o := ⟨7, 0, f⟩ } : Ctx).outElem specShfl pass01 l 0 32
    (0 ∈ pass01.lanes ∧ 1 ∈ pass01.lanes) ∧ 0 < tyElems 0xB
    ∧ out (lw 0xB 1 2 0 0 0x20 1) 0 = 6#32 ∧ out (lw 0xB 1 2 4 0 0 0) 0 = 6#32
    ∧ out (lw 0xB 1 2 0 0 0x22 1) 1 = 7#32 ∧ out (lw 0xB 1 2 4 0 2 0) 1 = 7#32 ∧ out (lw 0xB 1 2 0 0 0x22 31) 1 = 6#32
    ∧ out (lw 0xB 1 2 0 0 0x23 1) 1 = 5#32 ∧ out (lw 0xB 1 2 4 0 3 0) 0 = 6#32 ∧ out (lw 0xB 1 2 5 0 0x10 0) 1 = 7#32 := by decide +kernel

/-- LaneCompareAndMove, `fcmp` of 1 with 2, with itself, with a NaN and with ABSENT; zeros of either sign. -/
theorem witness_LaneFloatCompare :
    let c := ctxOf [(vKey 2 1, 0x3F800000), (vKey 3 1, 0x40000000), (vKey 4 1, 0x7FC00001), (vKey 5 1, 0xFFFFFFFF), (vKey 6 1, 0x80000000)]
    let bit (b : BitVec 8) (rel : BitVec 6) : Option Bool :=
      ((specFcmp.eval { c with o := ⟨2, 1, lw 1 1 2 b 0 rel 0⟩ } pass01).masks.find? fun k => k.1 == 1024 + 1).map Prod.snd
    1 ∈ pass01.lanes ∧ 0 < tyElems 1
    ∧ bit 3 2 = some true ∧ bit 3 4 = some false ∧ bit 3 1 = some true ∧ bit 2 0 = some true ∧ bit 2 5 = some true
    ∧ (fmtF32.decode 0x7FC00001 = .nan ∧ bit 4 1 = some true ∧ bit 4 6 = some true ∧ bit 4 0 = some false ∧ bit 4 5 = some false)
    ∧ (fmtF32.decode 0xFFFFFFFF = .absent ∧ bit 5 1 = some false ∧ bit 5 6 = some false)
    ∧ (specFcmp.eval { c with o := ⟨2, 1, lw 1 1 6 7 0 0 0⟩ } pass01).masks.any (fun k => k.1 == 1024 + 1 && k.2) = true := by decide +kernel

/-- LaneCompareAndMove, `vote` with lane 1 voting and lane 0 not, in a warp whose lanes 0 and 1 take part. -/
theorem witness_LaneVotes :
    let c := ctxOf [(vKey 2 1, 6)]
    let bit (mode : BitVec 6) (l : Nat) : Option Bool :=
      ((specVote.eval { c with o := ⟨2, 3, lw 0xB 1 2 0 0 mode 0⟩ } pass01).masks.find? fun k => k.1 == 1024 + l).map Prod.snd
    31 / 32 = pass01.warp ∧ bit 0 1 = some true ∧ bit 0 0 = some false ∧ bit 1 0 = some true ∧ bit 2 1 = some false ∧ bit 3 1 = some false
    ∧ bit 1 31 = some false := by decide +kernel

/-- LaneFloat, the special values: operands that decode as ABSENT and as a NaN in every place; the reciprocal and the square root of them
and of 4. -/
theorem witness_LaneFloat_specials :
    let one : FVal := .num false 1 0
    fmtF32.decode 0xFFFFFFFF = .absent ∧ fmtF32.decode 0x7FC00001 = .nan ∧ fmtF32.absent = 0xFFFFFFFF ∧ fmtF32.nan = 0x7FC00000
    ∧ FVal.add .rne .absent .nan = .absent ∧ FVal.add .rne one .nan = .nan ∧ FVal.mul .nan .absent = .absent ∧ FVal.mul one .nan = .nan
    ∧ FVal.fma .rne .absent .nan one = .absent ∧ FVal.fma .rne .nan .absent one = .absent ∧ FVal.fma .rne one .nan .absent = .absent
    ∧ FVal.fma .rne .nan one one = .nan ∧ FVal.fma .rne one .nan one = .nan ∧ FVal.fma .rne one one .nan = .nan
    ∧ fmtF32.rootFn 0 .rne false 0xFFFFFFFF = 0xFFFFFFFF ∧ fmtF32.rootFn 2 .rne false 0x7FC00001 = 0x7FC00000
    ∧ fmtF32.rootFn 2 .rne false 0x40800000 = 0x40000000 ∧ fmtF32.rootFn 0 .rne false 0x40800000 = 0x3E800000
    ∧ approxFn fmtF32 3 1 false 0xFFFFFFFF = 0xFFFFFFFF
    ∧ fmtF32.classOf 0x00000001 = 5 ∧ fmtF32.classOf 0xBF800000 = 1 ∧ fmtF32.signOp true 0x3F800000 = 0xBF800000 := by decide +kernel

/-- LaneFloat, results in a lane: 1 + 2, 1 - 2, 2 × 2, 2 × 2 + 1, the least and the greatest of them, of a number and a NaN, and of
ABSENT; the sign, the class and the root of 2 × 2. -/
theorem witness_LaneFloat :
    let c := ctxOf [(vKey 2 1, 0x3F800000), (vKey 3 1, 0x40000000), (vKey 4 1, 0x7FC00001), (vKey 5 1, 0xFFFFFFFF), (vKey 6 1, 0x40800000)]
    let out (op : Nat) (a b : BitVec 8) (sp : FixedSpec) := ({ c with o := ⟨3, op, lw 1 1 a b 0 0 2⟩ } : Ctx).outElem sp pass01 1 0 32
    (1 ∈ pass01.lanes ∧ (∀ x ∈ pass01.lanes, x < 1024)) ∧ 0 < tyElems 1 ∧ (lw 1 1 2 3 0 0 2).rnd.toNat ≤ 5
    ∧ out 0 2 3 specFadd = 0x40400000#32 ∧ out 1 2 3 specFsub = 0xBF800000#32 ∧ out 2 3 3 specFmul = 0x40800000#32
    ∧ out 3 3 3 specFfma = 0x40A00000#32 ∧ out 0 2 4 specFadd = 0x7FC00000#32 ∧ out 0 5 4 specFadd = 0xFFFFFFFF#32
    ∧ out 4 3 2 (minMaxSpec false) = 0x3F800000#32 ∧ out 5 3 2 (minMaxSpec true) = 0x40000000#32
    ∧ out 4 4 2 (minMaxSpec false) = 0x3F800000#32 ∧ out 5 2 4 (minMaxSpec true) = 0x3F800000#32
    ∧ out 4 4 4 (minMaxSpec false) = 0x7FC00000#32 ∧ out 5 2 5 (minMaxSpec true) = 0xFFFFFFFF#32
    ∧ out 7 2 0 (signSpec true) = 0xBF800000#32 ∧ out 8 2 0 specFclass = 6#32
    ∧ ({ c with o := ⟨4, 2, lw 1 1 6 0 0 0 0⟩ } : Ctx).outElem (rootSpec 2) pass01 1 0 32 = 0x40000000#32 := by decide +kernel

/-- LaneFloat, conversions: `cvt` of 2.5, of 10^10, of ABSENT and of -3 between binary32 and `.s32`, and of the two integers 1 and 2 to `.s16`;
-1 in `.n16` with SAT; `frnd` of 2.5 and of an infinity. -/
theorem witness_LaneFloat_conversions :
    let c := ctxOf [(vKey 2 1, 0x40200000), (vKey 3 1, 0x501502F9), (vKey 4 1, 0xFFFFFFFF), (vKey 5 1, -3), (vKey 6 1, 1), (vKey 7 1, 2),
      (vKey 8 1, 0x7F800000)]
    let out (f : LaneFields) : Nat := (specCvt.eval { c with o := ⟨5, 0, f⟩ } pass01).laneVal 1 1 1
    let rnd (a : BitVec 8) := ({ c with o := ⟨5, 1, lw 1 1 a 0 0 0 0⟩ } : Ctx).outElem specFrnd pass01 1 0 32
    (1 ∈ pass01.lanes ∧ (∀ x ∈ pass01.lanes, x < 1024)) ∧ max (tyElems 6) (tyElems 7) = 2
    ∧ out (lw 7 1 2 0 0 1 0) = 2 ∧ out (lw 7 1 3 0 0 1 0) = 0x7FFFFFFF ∧ out (lw 7 1 4 0 0 1 0) = 0 ∧ out (lw 7 1 4 0 0 0x11 0) = 0x80000000
    ∧ out (lw 1 1 5 0 0 7 0) = 0xC0400000 ∧ out (lw 6 1 6 0 0 7 0) = 0x00020001 ∧ out { lw 6 1 4 0 0 0xA 0 with sat := 1 } = 0x7FFF7FFF
    ∧ rnd 2 = 0x40000000#32 ∧ rnd 8 = 0x7F800000#32 := by decide +kernel

/-- LaneFloat, blocks, presence and histograms: the scale of a block of binary4p2 elements whose greatest is 1 (127 - 1, since 2 is the
greatest power of two of the format, R60), given as 7, and of a warp of ABSENT; the record of scale 126 with 2 in lane 0, read back as 1,
and scaled by 2²; ABSENT beside a number; 1
falls into bin 31 (127 - 96, R85), ABSENT into none. -/
theorem witness_LaneBlocks :
    let absent : List (Nat × Lane32) := [(vKey 2 0, 0xFFFFFFFF), (vKey 2 1, 0xFFFFFFFF)]
    let c := ctxOf [(vKey 2 0, 0x3F800000), (vKey 2 1, 0xFFFFFFFF), (vKey 3 0, 126 + 256 * 6), (vKey 4 0, 8)]
    let scale (c : Ctx) (op : Nat) (f : LaneFields) (sp : FixedSpec) : Nat :=
      (sp.eval { c with o := ⟨6, op, f⟩ } pass01).laneVal 1 0 1 % 256
    let bins (l : Nat) : List Nat := (specHist.bins { c with e := { fmt := 4, hist := 0x7E000000 }, o := ⟨6, 5, lw 1 1 2 0 0 0 0⟩ }
      [{ pass01 with lanes := [l] }]).map Rmw.key
    scale c 0 (lw 0xD 1 2 0 0 1 0) specBpack = 126 ∧ scale c 0 (lw 0xD 1 2 0 0 0x11 7) specBpack = 7
    ∧ scale (ctxOf absent) 0 (lw 0xD 1 2 0 0 1 0) specBpack = 0xFE
    ∧ (0 ∈ pass01.lanes ∧ (specBunpack.eval { c with o := ⟨6, 1, lw 1 1 3 0 0 0xD 0⟩ } pass01).laneVal 1 0 1 = 0x3F800000)
    ∧ scale c 2 (lw 0xD 1 3 0 0 0 2) specBscale = 128
    ∧ ((specFpres.eval { c with o := ⟨6, 3, lw 1 1 2 0 0 0 0⟩ } pass01).masks == [(vKey 1 0, true), (vKey 1 1, false)]) = true
    ∧ ({ c with o := ⟨6, 4, lw 1 1 2 4 0 0 0⟩ } : Ctx).outElem specFdflt pass01 0 0 32 = 0x3F800000#32
    ∧ ({ c with o := ⟨6, 4, lw 1 1 2 4 0 0 0⟩ } : Ctx).outElem specFdflt pass01 1 0 32 = 0#32
    ∧ bins 0 = [2 ^ 52 + 4 * 31] ∧ bins 1 = [] := by decide +kernel

/-- LaneMemory, loads: `ld.s8` from the bank at X + LANE + OFF, in checking mode; the byte 0x80 is sign-extended. -/
theorem witness_LaneLoads :
    let f := lm 5 3 0xF0 0xE4 0x11 0 0x00800000
    let i : Instr := .laneLd f
    let e := { entry i 0x7E000000 with chk := true }
    let s := State.poke { laneState i 0 [] with teams := [(0, { tm with laneq := [e], m := [(5, 15#1024)] })] } (2 ^ 52 + 8) 4 0x83028001
    let o : LaneOp := ⟨8, 0x00, f⟩
    let ps := s.lanePasses o false []
    let c := s.laneCtx o e [] []
    s.laneHead i e [] ∧ i.wf = true ∧ ps ≠ [] ∧ s.laneChecked o e [] ps (memReads c) (fun p => o.dataLanes p)
    ∧ s.laneClear (s.team.popped []) (c.accesses needR ps) ∧ (c.accesses needR ps).length = 4
    ∧ tst (exec i s) (fun u => pendReg u 0 3 0 == some 1 && pendReg u 0 3 1 == some 0xFFFFFF80 && pendReg u 0 3 3 == some 0xFFFFFF83
        && u.token 1 == { count := 1 }) = true := by
  unfold State.laneHead State.laneChecked State.laneClear; decide +kernel

/-- LaneMemory, stores: `st.n32.rel` of v3 to the bank at X + 4 LANE, one word for each lane. -/
theorem witness_LaneStores :
    let f := lm 0xB 3 0xF0 0xE4 0 0x12 0x00030000
    let i : Instr := .laneSt f
    let e := entry i 0x7E000000
    let s := laneState i 0x7E000000 [(vKey 3 1, 0x11223344)]
    let o : LaneOp := ⟨8, 0x01, f⟩
    let ps := s.lanePasses o false []
    let accs := (s.laneCtx o e [] []).accesses needW ps
    s.laneHead i e [] ∧ i.wf = true ∧ s.laneChecked o e [] ps (memReads (s.laneCtx o e [] [])) (fun _ => []) ∧ accs.length = 4
    ∧ (∀ a ∈ accs, a.chk.fails = []) ∧ s.fabricHeld (accs.flatMap fun a => a.chk.keys) = false
    ∧ (accs.flatMap fun a => a.chk.keys).Nodup ∧ tyIsBlock f.ty.toNat = false
    ∧ tst (exec i s) (fun u => s.load u (keysFrom (2 ^ 52 + 4) 4) == 0x11223344 && u.sdq.all (fun w => w.release == some 3)) = true := by
  unfold State.laneHead State.laneChecked; decide +kernel

/-- LaneMemory, prefetches, with a post. -/
theorem witness_LanePrefetches :
    let f := lm 0xB 0 0xF0 0xEC 0x12 0x20 0
    let i : Instr := .lanePref f
    let e := entry i 0x10000
    let s := laneState i 0x10000 []
    let o : LaneOp := ⟨8, 0x02, f⟩
    let ps := s.lanePasses o false []
    let c := s.laneCtx o e [] []
    s.laneHead i e [] ∧ s.laneChecked o e [] ps (memReads c) (fun _ => []) ∧ (∀ a ∈ c.accesses needR ps, a.chk.fails = [])
    ∧ s.fabricHeld ((c.accesses needR ps).flatMap fun a => a.chk.keys) = false ∧ i.wf = true ∧ (c.accesses needR ps).length = 4 ∧ tst (exec i s) (fun u => u.pend.length == 1 && u.token 2 == { count := 1 }) = true := by
  unfold State.laneHead State.laneChecked; decide +kernel

/-- LaneAddresses and LaneMemory: an index of -1 scaled by 4, with OFF = -8, from base 0x100. -/
theorem test_lane_address :
    let c : Ctx := { ctxOf [(vKey 6 1, -1)] with o := ⟨8, 0, lw 0xB 3 0xF0 6 0x11 2 0xFF800000⟩, e := { x := 0x100 } }
    c.addr8 100 1 = 0xF4 := by decide +kernel

/-- LaneAtomics: a returning `atom.add` and a `red.min` on four words of the bank. -/
theorem witness_LaneAtomics :
    let f (post : BitVec 5) (d : BitVec 8) := lm 0xB d 6 3 post 0 0
    let v : List (Nat × Lane32) := [(vKey 3 0, 9), (vKey 6 0, 0x7E000000), (vKey 6 1, 0x7E000004), (vKey 6 2, 0x7E000008), (vKey 6 3, 0x7E00000C)]
    let s (i : Instr) := laneState i 0 v
    let a : Instr := .laneAtomAdd (f 0x11 2)
    let r : Instr := .laneRedMin (f 0 0)
    let accs (i : Instr) (o : LaneOp) := ((s i).laneCtx o (entry i 0) [] []).accesses9 ((s i).lanePasses o false [])
    let A := accs a ⟨9, 0x00, f 0x11 2⟩
    let R := accs r ⟨9, 0x11, f 0 0⟩
    (Instr.laneAtomic? a = some (0x00, .add, f 0x11 2) ∧ Instr.laneRed? r = some (0x11, .min, f 0 0))
    ∧ ((s a).laneHead a (entry a 0) [] ∧ (s r).laneHead r (entry r 0) [] ∧ (entry a 0).chk = false ∧ a.wf = true ∧ r.wf = true)
    ∧ (A.all (fun x => x.chk.fails.isEmpty) = true ∧ R.all (fun x => x.chk.fails.isEmpty) = true
      ∧ (s a).fabricHeld (A.flatMap fun a => a.chk.keys) = false ∧ (s a).lostLanes A = [] ∧ (s r).lostLanes R = []
      ∧ (A.map fun a => a.chk.keys.headD 0).Nodup ∧ A.length = 4)
    ∧ tst (exec a (s a)) (fun u => u.sdq.length == 4 && (u.pend.map Pend.kind == [.atomic]) && u.token 1 == { count := 1 }) = true
    ∧ tst (exec r (s r)) (fun u => u.sdq.length == 4 && u.sdq.all (fun w => !w.acquire) && u.pend.length == 1) = true := by
  refine ⟨⟨rfl, rfl⟩, ?_⟩; unfold State.laneHead; decide +kernel

/-- LaneReductions: the sum of 1, 2, 3 and 4 over a warp and over a team, and ABSENT as the identity beside one value. -/
theorem witness_LaneReductions :
    let f := lm 0xB 2 3 0 0x11 0x10 0
    let v : List (Nat × Lane32) := [(vKey 3 0, 1), (vKey 3 1, 2), (vKey 3 2, 3), (vKey 3 3, 4)]
    let w : Instr := .laneWred f
    let t : Instr := .laneTred f
    let s (i : Instr) := laneState i 0 v
    let q (i : Instr) (op : Nat) := (s i).consumeAll ((s i).team.popped []) ⟨7, op, f⟩ [0, 1, 2, 3]
    let one : List (Option Nat) := (List.replicate 31 none) ++ [some 7]
    ((s w).laneHead w (entry w 0) [] ∧ (s t).laneHead t (entry t 0) [] ∧ (entry w 0).chk = false)
    ∧ ((q w 2).fails = [] ∧ (q w 2).waits = false ∧ (q w 2).lost = [] ∧ (q w 2).poison = [] ∧ (q t 3).fails = [])
    ∧ tst (exec w (s w)) (fun u => pendReg u 0 2 3 == some 10 && pendReg u 0 3 3 == some 4 && u.token 1 == { count := 1 }) = true
    ∧ tst (exec t (s t)) (fun u => pendReg u 0 2 0 == some 10) = true
    ∧ (one.length = 32 ∧ one.getD 31 none = some 7 ∧ (List.range 31).all (fun i => one.getD i none == none) = true) := by
  unfold State.laneHead; decide +kernel

/-! ### The matrix unit -/

/-- An `mma` of type `.f16` on tile 1 with A in v8, B at capture X; it posts to k1. -/
def mmaF : LaneFields := lm 2 1 8 0 0x11 0 0

/-- MatrixIssue: the `mma`, with B at the start of the bank, and `mmzero` of tile 2, both of the group's tiles; the `mma` whose tile has
left the group since its enqueue. -/
theorem witness_MatrixIssue :
    let z : LaneFields := lw 0 2 0 0 0x12 0 0
    let e := entry (.mma mmaF) 0x7E000000
    let own (s : State) : State := { s with
      groups := [(0, { alive := true, members := [0], tilemask := 6 })]
      owners := s.owners ++ [(resKey 4 1, { tag := 1, world := 1 }), (resKey 4 2, { tag := 1, world := 1 })] }
    let g := laneState (.mma mmaF) 0x7E000000 []
    let s := own g
    let y := own (laneState (.mmzero z) 0 [])
    (Instr.matrix? (.mma mmaF) = some (0x00, .mma, mmaF) ∧ Instr.matrix? (.mmzero z) = some (0x02, .mmzero, z))
    ∧ s.laneHead (.mma mmaF) e [] ∧ y.laneHead (.mmzero z) (entry (.mmzero z) 0) [] ∧ e.chk = false ∧ (s.sequencer 0).length < 16
    ∧ s.commandFault (s.team.popped []) (s.matCmd .mma mmaF e []) = none
    ∧ y.commandFault (y.team.popped []) (y.matCmd .mmzero z (entry (.mmzero z) 0) []) = none ∧ (s.groupOf s.team).crewCancels = []
    ∧ (s.tileOwned s.team 1 = true ∧ y.tileOwned y.team 2 = true
      ∧ ok (exec (.mma mmaF) s) (fun v => (v.sequencer 0).map (fun c => c.rows) == [15#64] && v.team.token 1 == { count := 1 }
          && v.team.laneFree == 101) = true)
    ∧ (g.laneHead (.mma mmaF) e [] ∧ g.commandFault (g.team.popped []) (g.matCmd .mma mmaF e []) = none
      ∧ g.tileOwned g.team 1 = false ∧ mmaF.mod.getLsbD 5 = false
      ∧ ok (exec (.mma mmaF) g) (fun v => v.sequencer 0 == [] && v.team.token 1 == { cancel := true } && v.team.pend.isEmpty) = true) := by
  refine ⟨⟨rfl, rfl⟩, ?_⟩; unfold State.laneHead; decide +kernel

/-- A tile with sound checksums and 1.0 in row 3, column 5. -/
def tile35 : Tile := Tile.putValue {} 3 5 0x3F800000

/-- AccumulatorTiles: the sound tile; a step on row 3 with A = 1, 1 and B rows that start with 1 and 2: element (3, 0) becomes 3 with two
contributors, row 4 stays; a flipped bit 7 of element (3, 5) is repaired and named. -/
theorem witness_AccumulatorTiles :
    let y := tile35.matStep 2 4 [(3, 0x3C003C00, 0)] [0x3C00, 0x4000]
    let bad : Tile := { tile35 with vals := Store.set 0 tile35.vals (32 * 3 + 5) (0x3F800000 ^^^ 0x80) }
    tile35.sound ∧ ([(3, 0x3C003C00, 0)].map (Prod.fst : Nat × Nat × Nat → Nat)).Nodup ∧ (∀ k ∈ tile35.badPar, k / 32 ≠ 3)
    ∧ Store.get 0 y.vals (32 * 3) = 0x40400000#32 ∧ Store.get 0 y.counts (32 * 3) = 2#16 ∧ Store.get 0 y.vals (32 * 4) = 0#32
    ∧ (bad.checkRow 3).2 = ⟨1, 7, 5⟩ ∧ Store.get 0 (bad.checkRow 3).1.vals (32 * 3 + 5) = 0x3F800000#32 := by
  unfold Tile.sound; decide +kernel

/-- The `mma` as it stands in the sequencer of quarter 0. -/
def mmaCmd : MatCmd :=
  { team := 0, op := 9, kind := .mma, f := mmaF, fmt := 4, seed := 0, ctr := 0, hist := 0, x := 0x7E000000, y := 0, rows := 15 }

/-- Its team and the machine, with the command in this state. -/
def matState (c : MatCmd) (l : Latch) : State :=
  let p : Pend := { id := 9, kind := .matrix, tok := some 1 }
  State.poke { st { tm with v := [(vKey 8 1, 0x3C003C00)], pend := [p], tok := [(1, { count := 1 })], latch := l } with seqs := [(0, [c])] }
    (2 ^ 52) 2 0x3C00

/-- MatrixSequencer: the start with and without a latch that names the operand; the step; the end, which releases k1. -/
theorem witness_MatrixCommands :
    let s := matState mmaCmd {}
    let l : Latch := { valid := true, a := 8, ty := 2, vals := [(0, 7)] }
    let m := matState mmaCmd l
    let r : MatCmd := { mmaCmd with started := true, opnd := some { valid := true, vals := [(1, 0x3C003C00)] } }
    let d := { r with step := 1 }
    (mmaCmd.late = none ∧ d.late = none ∧ mmaCmd.ty = 2) ∧ (s.front 0 mmaCmd ∧ mmaCmd.crewN = none ∧ s.commandWaits mmaCmd = none ∧ s.replaying 0 = false ∧ s.team.latch.valid = false
      ∧ ok (exec .matrixCommandStart s) (fun v => (v.frontCmd 0).any fun c => c.started && (c.opnd.any fun o => Store.get 0 o.vals 1 == 0x3C003C00)) = true)
    ∧ (m.team.latch.valid = true ∧ m.team.latch.a = mmaF.a ∧ m.team.latch.b = mmaF.b ∧ m.team.latch.ty = BitVec.ofNat 4 mmaCmd.ty
      ∧ ok (exec .matrixCommandStart m) (fun v => (v.frontCmd 0).map MatCmd.opnd == some (some l)) = true)
    ∧ ((matState r {}).front 0 r ∧ r.step < r.steps ∧ (matState r {}).transferLines ++ (matState r {}).commandLines [0] = []
      ∧ (State.keysB 0 (r.addrB 0) r.ty).any (matState r {}).poisoned = false
      ∧ ok (exec .matrixStep (matState r {})) (fun v => Store.get 0 (v.tile 1).vals 32 == 0x3F800000 && (v.frontCmd 0).map MatCmd.step == some 1) = true)
    ∧ ((matState d {}).front 0 d ∧ d.steps ≤ d.step ∧ (((matState d {}).teamAt 0).op? 9).isSome = true
      ∧ ((matState d {}).team.op? 9).all (fun p => (matState d {}).team.firstInLine p && p.scalar.isNone) = true
      ∧ ok (exec .matrixCommandComplete (matState d {})) (fun v => v.team.token 1 == {} && (v.sequencer 0).isEmpty) = true) := by
  unfold State.front; decide +kernel

/-- MatrixSequencer, crews: an arrival before the other member's, and the arrival of a crew of one. -/
theorem witness_CrewArrivals :
    let c : MatCmd := { mmaCmd with crewN := some 0, f := { mmaF with mod := 0x20 } }
    let t : Team := { tm with crewed := some 0, crew := 0 }
    let one : State := { st t with seqs := [(0, [c])] }
    let two : State := { one with teams := [(0, t), (1, { t with quarter := 1, crewed := some 1 })], groups := [(0, { alive := true, members := [0, 1] })] }
    (two.front 0 c ∧ c.arrived = false ∧ two.commandWaits c = none ∧ (∀ x ∈ two.crewCmdsOf 0 0, two.replaying x.1 = false) ∧ 1 ∈ two.crewOf 0 ∧ (1 : Nat) ≠ 0 ∧ two.sequencer (two.teamAt 1).gq = []
      ∧ (two.crewOf 0).Nodup
      ∧ (∀ m ∈ two.crewOf 0, ((two.sequencer (two.teamAt m).gq).filter fun d => d.team == m && d.crewN == some 0).length ≤ 1)
      ∧ isS (exec .crewArrival two) (two.setCmd 0 { c with arrived := true }) = true)
    ∧ (one.front 0 c ∧ one.crewOf 0 = [0] ∧ (one.teamAt 0).gq = 0
      ∧ ((one.sequencer 0).filter fun d => d.team == 0 && d.crewN == some 0) = [c]
      ∧ ok (exec .crewArrival one) (fun v => (v.frontCmd 0).any fun d => d.arrived && d.started) = true) := by
  unfold State.front; decide +kernel

/-! ### What the memory system does on its own -/

/-- Deliveries: a fixed-latency pass that is due, a load of 42, whole and only for bits 0 and 1 of its register, and a scalar atomic
whose old value is there. -/
theorem witness_Deliveries :
    let s (p : Pend) : State := { st { tm with pend := [p], tok := [(1, { count := 1 })] } with cycle := 100, item := 7 }
    let f : Pend := { id := 7, ready := 100, tok := some 1, regs := [(vKey 5 1, 42)], masks := [(1024 * 3 + 1, true)] }
    let l : Pend := { id := 7, kind := .load, tok := some 1, regs := [(vKey 5 1, 42)], cancel := true }
    let a : Pend := { id := 7, kind := .atomic, scalar := some (6, some 9) }
    ([f, l, a].all (fun p => decide ((s p).team.op? 7 = some p) && decide (p.regs.map Prod.fst).Nodup && decide (p.masks.map Prod.fst).Nodup
        && (s p).team.firstInLine p && p.awaits.isEmpty)) = true
    ∧ (f.kind = .fixed ∧ f.ready ≤ (s f).cycle
      ∧ tst (exec .fixedLatencyWriteBack (s f)) (fun t => Store.get 0 t.v (vKey 5 1) == 42 && (t.mask 3).getLsbD 1 && t.token 1 == {}
          && t.pend.isEmpty) = true)
    ∧ (deliveryOf l.kind = some .loadDelivery ∧ (s l).replaying 0 = false ∧ l.scalar = none ∧ l.kills = []
      ∧ tst (exec .loadDelivery (s l)) (fun t => Store.get 0 t.v (vKey 5 1) == 42 && t.token 1 == { cancel := true }) = true)
    ∧ (tst (exec .loadDelivery (s { l with part := [(vKey 5 1, 3#32)] })) (fun t => Store.get 0 t.v (vKey 5 1) == 2) = true)
    ∧ (a.scalar = some (6, some 9) ∧ 6 < 64
      ∧ tst (exec .atomicReturn (s a)) (fun t => t.reg 6 == 9 && t.pc == 0x10004#64 && t.pend.isEmpty) = true) := by decide +kernel

/-- QueuedWrites, departures: a write of cycle 36 at cycle 99 and at cycle 100, without and with a release, and a release behind
another write. -/
theorem witness_WritesDepart :
    let w (rel : Option Nat) : WriteOp := { id := 1, what := .bytes [(0x10000, 1)], born := 36, release := rel }
    let b : WriteOp := { id := 2, what := .bytes [(0x10001, 1)], born := 30, departed := true }
    let s (cyc : Nat) (q : List WriteOp) : State := { st { tm with sdq := q } with cycle := cyc, nextId := 1 }
    (w none).homeBound = true ∧ (w none).departed = false ∧ (∀ x ∈ [b], x.departed = true ∧ x.id ≠ (w none).id)
    ∧ ((s 99 [w none]).cycle < 36 + 64 ∧ isS (exec .storeDelayDeparture (s 99 [w none])) (s 99 [w none]) = true)
    ∧ (36 + 64 ≤ (s 100 [w none]).cycle ∧ (w none).fabric = none
      ∧ tst (exec .storeDelayDeparture (s 100 [b, w none])) (fun t => t.sdq.all (fun x => x.departed) && (t.sdq.find? fun x => x.id == 1).any fun x => x.sent == 1) = true)
    ∧ ((s 100 [w (some 9)]).contributed 0 = false ∧ (s 100 [w (some 9)]).atUnit.cardsPending (s 100 [w (some 9)]).team = false
      ∧ tst (exec .storeDelayDeparture (s 100 [w (some 9)])) (fun t => t.sdq.all fun x => x.departed) = true)
    ∧ isS (exec .storeDelayDeparture (s 100 [b, w (some 9)])) (s 100 [b, w (some 9)]) = true := by decide +kernel

/-- QueuedWrites, performing: two bytes; a reduction of 5 onto 7; an atomic `add` of 5 onto 7 for lane 1 of v3. -/
theorem witness_WritesPerformed :
    let o : Rmw := { mode := { op := .add, ty := 0xB }, lane := 1, key := 0x10000, size := 4, val := 5 }
    let p : Pend := { id := 9, kind := .atomic, awaits := [vKey 3 0, vKey 3 1] }
    let w (x : WriteWhat) : WriteOp := { id := 1, op := 9, what := x, born := 0, departed := true }
    let s (x : WriteWhat) : State := State.poke { st { tm with sdq := [w x], pend := [p] } with item := 1 } 0x10000 4 7
    let bs : List (Nat × Byte) := [(0x10000, 0xAA), (0x10001, 0)]
    ((s (.bytes bs)).canPerform (w (.bytes bs)) ∧ (((s (.bytes bs)).atHomes bs).map Prod.fst).Nodup ∧ ((s (.bytes bs)).tenantAt 1).posted = []
      ∧ ok (exec .writePerformed (s (.bytes bs))) (fun v => v.readNat 0x10000 4 == 0xAA && v.team.sdq.isEmpty) = true)
    ∧ ((s (.reduction o false)).canPerform (w (.reduction o false)) ∧ o.mode.op ≠ .bin
      ∧ ((keysFrom o.key o.size).map (s (.reduction o false)).place).Nodup
      ∧ (keysFrom o.key o.size).any (s (.reduction o false)).poisoned = false
      ∧ ok (exec .writePerformed (s (.reduction o false))) (fun v => v.readNat 0x10000 4 == 12) = true)
    ∧ ((s (.atomic o)).canPerform (w (.atomic o)) ∧ (s (.atomic o)).team.op? 9 = some p ∧ (s (.atomic o)).team.park = none
      ∧ ok (exec .writePerformed (s (.atomic o))) (fun v => v.readNat 0x10000 4 == 12
          && (v.team.pend.map fun p => (p.regs, p.awaits)) == [([(vKey 3 1, 7)], [vKey 3 0])]) = true) := by
  unfold State.canPerform State.write?; decide +kernel

/-- QueuedWrites, homes: a store to byte 5 of a window that names 7 GiB of device 9 lands there; with its link down the home cannot be
reached (R451, R454). -/
theorem witness_WritesHome :
    let w : WriteOp := { id := 1, what := .bytes [(2 ^ 50 + 5, 0xAA)], born := 0, departed := true, fabric := some 0x700 }
    let s (up : Bool) : State := { st { tm with sdq := [w] } with
      item := 1, links := [(4, { up := up, far := 9 })], remotes := [(0, BitVec.ofNat 64 (2 ^ 50 + 1)), (1, 0x10100)]
      routes := [(0, BitVec.ofNat 64 (2 ^ 63 + 9 * 2 ^ 32 + 2 ^ 4)), (1, BitVec.ofNat 64 (7 * 2 ^ 30))] }
    ((s true).canPerform w ∧ (s true).place (2 ^ 50 + 5) = 2 ^ 90 + 9 * 2 ^ 64 + 7 * 2 ^ 30 + 5
      ∧ ok (exec .writePerformed (s true)) (fun v => v.team.sdq.isEmpty && v.byte (2 ^ 90 + 9 * 2 ^ 64 + 7 * 2 ^ 30 + 5) == 0xAA) = true)
    ∧ ((s false).write? = some w ∧ w.departed = true ∧ w.fabric = some 0x700 ∧ w.keys.any (s false).unreachable = true) := by
  unfold State.canPerform State.write?; decide +kernel

/-- QueuedWrites, reduction lines: a new line, one that merges, and one that is performed. -/
theorem witness_ReductionLines :
    let o : Rmw := { mode := { op := .add, ty := 0xB }, key := 0x10000, size := 4, val := 5 }
    let w : WriteOp := { id := 1, what := .reduction o true, born := 0 }
    let l : RedLine := { id := 3, line := lineOf 0x10000, mode := o.mode, elems := [{ o with key := 0x10004 }], teams := [5] }
    let d : RedLine := { l with elems := [o], sent := true }
    let s (ls : List RedLine) : State :=
      State.poke { st { tm with sdq := [w] } with cycle := 64, item := 3, redbuf := if ls = [] then [] else [(0, ls)] } 0x10000 4 7
    (w.departed = false ∧ w.born + 64 ≤ (s []).cycle ∧ w.release = none ∧ (s []).redLine? 0 (lineOf o.key) = none ∧ (s []).engineLines = [] ∧ (s [l]).engineLines = []
      ∧ ((s []).redLines 0).length < 256
      ∧ ok (exec .storeDelayDeparture (s [])) (fun v => (v.redLines 0).map (fun x => (x.line, x.teams)) == [(lineOf 0x10000, [0])]) = true)
    ∧ ((s [l]).redLine? 0 (lineOf o.key) = some l ∧ l.sent = false ∧ l.mode.merges o.mode = true ∧ (∀ e ∈ l.elems, e.key ≠ o.key)
      ∧ ((s [l]).redLines 0).countP (fun x => x.id == l.id) = 1
      ∧ ok (exec .storeDelayDeparture (s [l])) (fun v => (v.redLines 0).map (fun x => (x.elems.length, x.teams)) == [(2, [5, 0])]) = true)
    ∧ (((s [d]).redLines 0).find? (fun x => x.id == 3) = some d ∧ d.sent = true
      ∧ (keysFrom o.key 4).any (s [d]).unreachable = false ∧ (keysFrom o.key 4).any onFabric = false
      ∧ ok (exec .reductionLinePerformed (s [d])) (fun v => v.readNat 0x10000 4 == 12 && v.redLines 0 == []) = true) := by decide +kernel

/-- Postcards: an open one whose 64 mesh cycles (128 ticks) are over, and one tick earlier; a closed one. -/
theorem witness_Postcards :
    let c : Postcard := { line := 0, bytes := [(3, 0xAA)], opened := 10 }
    let s (n : Nat) : State := { st tm with ticks := n, unit := 33, posts := [(33, { state := 1, sub := 0x100, len := 128, openCard := some c })] }
    let d : State := { st tm with unit := 33, posts := [(33, { state := 1, sub := 0x100, len := 128, closed := [c] })] }
    ((s 138).post 33).openCard = some c ∧ c.opened + 128 ≤ (s 138).ticks ∧ (s 138).closedCards 1 < 64
    ∧ ok (exec .postcardClose (s 138)) (fun v => (v.post 33).closed == [c] && (v.post 33).openCard == none && (v.post 33).cards == 1) = true
    ∧ (s 137).ticks < c.opened + 128 ∧ isS (exec .postcardClose (s 137)) (s 137) = true
    ∧ (d.post 33).closed = [c] ∧ (c.bytes.map Prod.fst).Nodup ∧ d.engineLines.isEmpty = true
    ∧ ok (exec .postcardApplication d) (fun v => v.byte (2 ^ 52 + 0x103) == 0xAA && (v.post 33).closed == []) = true := by decide +kernel

/-! ### The Ferry -/

/-- A team with channel 0, template slot 0 and bank 0, whose page 0x20000 is the aperture frame and page 0x30000 the template frame of
its core. The template copies four `.n32` elements; the channel names source, destination, count 1 and the stile at 0x400. -/
def ferryState (rs : List (Nat × Word)) (busy : Bool) : State :=
  let e (va pa : Word) : TlbEntry := { w0 := va + 7, w1 := pa, tag := 1, world := 1 }
  let s : State := { st (rg rs) with
    tlb := [(0, e 0x20000 0x3F000000000), (1, e 0x30000 0x3F000400000)]
    owners := [(resKey 1 0, { tag := 1, world := 1 }), (resKey 5 0, { tag := 1, world := 1 }), (resKey 6 0, { tag := 1, world := 1 })]
    groups := [(0, { alive := true, members := [0], chanmask := 1 })]
    templates := [(0, 0xBB), (1, 2 ^ 34 + 1), (2, 2 ^ 34 + 1)]
    channels := [(0, { src := 0x7E000000, dst := 0x7E000080, count := 1, stile := 0x7E000400, busy := busy })] }
  State.poke (State.poke s (2 ^ 52) 8 0x1122334455667788) (2 ^ 52 + 0x400) 8 0x0000_0010_0001_0002

/-- Ferry, accesses: each word of the channel, a template word, STATE; the go store of template 0, and the one that waits. -/
theorem witness_ChannelWords :
    let s := ferryState [(2, 0x20000), (3, 8), (4, 0x20), (5, 0x28), (6, 0x30000), (7, 0x38)] false
    let b := ferryState [(2, 0x20000), (4, 0x20)] true
    let win (s : State) (a c : BitVec 6) (need : Nat) (f : WindowAt → Bool) : Bool :=
      let k := (s.scalarCheck s.team true need (s.team.reg a + s.team.reg c).toNat 8)
      k.fails.isEmpty && !k.window && k.keys.any inWindow && (windowAt (k.keys.headD 0)).any f
        && (s.windowFault s.team (s.team.reg a + s.team.reg c).toNat 8 k.keys).isNone
    (win s 2 3 4 (fun w => !w.tmpl && w.word == 1) = true
      ∧ tst (exec (.stG 7 2 3 0 0 3) s) (fun t => t.sdq.map WriteOp.what == [.arg 0 1 0x38]) = true)
    ∧ (win s 6 3 4 (fun w => w.tmpl && w.word == 1) = true
      ∧ tst (exec (.stG 7 6 3 0 0 3) s) (fun t => t.sdq.map WriteOp.what == [.template 0 1 0x38]) = true)
    ∧ (win s 2 7 4 (fun w => !w.tmpl && decide (5 ≤ w.word)) = true ∧ isT (exec (.stG 7 2 7 0 0 3) s) { s.team with pc := 0x10004#64 } = true)
    ∧ (win s 2 5 2 (fun w => !w.tmpl && w.word == 5) = true ∧ tst (exec (.ldG 8 2 5 0 0 3) s) (fun t => t.reg 8 == 0) = true)
    ∧ (win s 2 4 4 (fun w => !w.tmpl && w.word == 4) = true ∧ (s.channel 0).busy = false ∧ (s.team.reg 0).toNat < 1024
      ∧ s.team.binsAhead true [] = false ∧ s.goFault s.team (s.team.reg 2 + s.team.reg 4) 0 0 = none
      ∧ ok (exec (.stG 0 2 4 0 0 3) s) (fun v => (v.channel 0).busy && v.team.seqctr == 1
          && (v.channel 0).run.map Transfer.lines == some [((2 ^ 52 + 128) / 128, 16)]) = true)
    ∧ (win b 2 4 4 (fun w => w.word == 4) = true ∧ (b.channel 0).busy = true ∧ isS (exec (.stG 0 2 4 0 0 3) b) b = true) := by decide +kernel

/-- Ferry, the engine: the transfer of that go starts, and its one line is copied: the stile counts 16 bytes down to 0. -/
theorem witness_FerryTransfers :
    let s := ferryState [] false
    let r : Transfer := { s.makeTransfer s.team 0 0 with armed := true }
    let line := (2 ^ 52 + 128) / 128
    let a : State := { s with channels := [(0, { busy := true, run := some r })] }
    let b : State := { s with item := line, channels := [(0, { busy := true, run := some { r with started := true } })] }
    let q : Transfer := { r with started := true }
    let q' := (q.lineSectors line).foldl (fun r sec => r.read b sec) q
    ((a.channel 0).run = some r ∧ r.armed = true ∧ r.started = false ∧ a.tampers = [])
    ∧ (q.lines.find? (fun l => l.1 == line) = some (line, 16) ∧ b.fabricHold = false ∧ b.tampers = [] ∧ q.unread line = q.lineSectors line
      ∧ (q'.lineBytes b.free line).2 = []
      ∧ b.lineFails line (q.lineSectors line) = false ∧ b.forwarderFull ((q'.lineBytes b.free line).1.map Prod.fst ++ keysFrom q.stile 16) = false
      ∧ b.lineHeld q line = false
      ∧ ((q'.lineBytes b.free line).1.map Prod.fst) = keysFrom (2 ^ 52 + 128) 16 ∧ q.stile = 2 ^ 52 + 0x400
      ∧ b.bankCause q.tag q.world (bankOf (q.stile - 2 ^ 52)) = none ∧ 16 ≤ (b.stile q.stile).ptrans ∧ 0 < (b.stile q.stile).parr
      ∧ ok (exec .ferryLinePerformed b) (fun v => v.readNat (2 ^ 52 + 128) 8 == 0x1122334455667788 && !(v.channel 0).busy
          && (v.stile (2 ^ 52 + 0x400)).ptrans == 0) = true) := by decide +kernel

/-! ### Queues and launch -/

/-- Submissions: a function that reaches the queue; a descriptor at a host address is accepted, a misaligned address is not, a queue
that is not enabled answers 2. The status stands in the response ring. -/
theorem witness_Submissions :
    let s := queueState (st tm) (hostKey 0x10400) true
    let o := queueState (st tm) (hostKey 0x10400) false
    (s.exposes (.vf 3) = true ∧ (s.queueAt 0).reachedBy (.vf 3) = true
      ∧ ok (exec (.submit (.vf 3) 0 0x10400) s) (fun v => (v.queueAt 0).work == [{ grid := 1 }] && v.readNat (hostKey 8) 8 == 2 ^ 32
          && (v.gridAt 1).ngroups == 1) = true)
    ∧ ok (exec (.submit .pf 0 0x10404) s) (fun v => (v.queueAt 0).work == [] && v.readNat (hostKey 8) 8 == 2 ^ 32 + 3) = true
    ∧ ok (exec (.submit .pf 0 0x10400) o) (fun v => (v.queueAt 0).subno == 1 && v.readNat (hostKey 8) 8 == 2 ^ 32 + 2) = true := by
  decide +kernel

/-- The frame of a launch packet with cookie 7: the low 64 bits of its header, and its descriptor. -/
def packet (head : Nat) : List Byte :=
  List.replicate 12 0 ++ [0x88, 0xB5] ++ leBytes 16 (7 * 2 ^ 64 + head)
    ++ (List.range 27).flatMap fun i => leBytes 8 (Store.get 0 descWords i)

/-- LaunchPackets: a frame of EtherType 0x0800; packets with a reserved bit, on a port without the peer, and that the table does not admit;
one for queue 0 from peer 5 on port 3, which is accepted, on a queue that is not enabled, and with a wrong length. -/
theorem witness_LaunchPackets :
    let f : List Byte := List.replicate 12 0 ++ [8, 0]
    let s (en : Bool) : State := { queueState (st tm) 0 en with
      mem := [], unit := 3, ports := [(3, 5)], launches := [(0, BitVec.ofNat 64 (2 ^ 63 + 5 * 2 ^ 32 + 2 ^ 16))] }
    let p := packet (0xD8 * 2 ^ 48 + 5)
    let bad : List (List Byte) := [packet (0xD8 * 2 ^ 48 + 2 ^ 20 + 5), packet (0xD8 * 2 ^ 48 + 6), packet (0xD8 * 2 ^ 48 + 2 ^ 32 + 5)]
    (f.drop 12).take 2 ≠ [0x88#8, 0xB5#8] ∧ isS (exec (.launchPacket f) (s true)) (s true) = true
    ∧ (p :: bad).all (fun x => (x.drop 12).take 2 == [0x88#8, 0xB5#8]) = true
    ∧ packetHead p / 2 ^ 20 % 2 ^ 12 = 0 ∧ packetHead p / 2 ^ 45 % 2 ^ 3 = 0 ∧ packetHead p % 2 ^ 20 = 5 ∧ packetHead p / 2 ^ 32 % 2 ^ 13 = 0
    ∧ (3, 5) ∈ (s true).ports ∧ (s true).admits 5 0 = true ∧ (s false).admits 5 0 = true
    ∧ bad.all (fun x => ok (exec (.launchPacket x) (s true)) fun v => v.replies == [(7, 4)] && v.mem == []) = true
    ∧ ok (exec (.launchPacket p) (s true)) (fun v => v.replies == [(7, 0)] && (v.queueAt 0).work == [{ grid := 1 }]
        && v.readNat (hostKey 8) 8 == 2 ^ 32 && ((v.gridAt 1).words.getD 5 0) == 0x10000) = true
    ∧ ok (exec (.launchPacket p) (s false)) (fun v => v.replies == [(7, 2)] && (v.queueAt 0).work == []) = true
    ∧ ok (exec (.launchPacket (packet (0xE0 * 2 ^ 48 + 5))) (s true)) (fun v => v.replies == [(7, 3)]) = true := by decide +kernel

/-- QueueTimes: an enable at device time 1000; a period that is over; a budget that is used up. -/
theorem witness_QueueTimes :
    let s (q : Queue) : State := { st tm with now := 1000, queues := [(0, q)], escBase := 0x1000 }
    let d : Queue := {}
    let e : Queue := { en := true, deadl := 1000, period := 4000 }
    let b : Queue := { en := true, tag := 5, budget := 10, used := 10 }
    (d.en = false ∧ ok (exec (.queueEnable .pf 0) (s d)) (fun v => (v.queueAt 0).en && (v.queueAt 0).deadl == 4001000 && v.roundDue) = true)
    ∧ (e.deadl ≠ 0 ∧ e.deadl.toNat ≤ (s e).now
      ∧ ok (exec .queuePeriodExpiry (s e)) (fun v => (v.queueAt 0).deadl == 5000 && (v.queueAt 0).used == 0 && v.roundDue) = true)
    ∧ (b.budget ≠ 0 ∧ b.budget.toNat ≤ b.used ∧ b.overrun = false ∧ ((s b).escHead - (s b).escTail).toNat ≠ 64
      ∧ ok (exec .budgetOverrun (s b)) (fun v => (v.queueAt 0).overrun && (v.queueAt 0).ovr == 1 && v.escHead == 1
          && v.readNat 0x1000 8 == 0x50FFF && v.readNat 0x1008 8 == 0x13) = true) := by decide +kernel

/-- A queue whose head is one grid of one group, with or without core 0 in its set. -/
def roundState (cores : BitVec 48) (h : Work) : State :=
  let ws := (List.range 27).map fun i => BitVec.ofNat 64 (Store.get 0 descWords i)
  { st tm with
    now := 400000, worlds := [(0, 1)], nextId := 9, roundDue := true
    grids := [(1, { alive := true, words := ws, tag := 1, world := 1, ngroups := 1 })]
    queues := [(0, { en := true, tag := 1, world := 1, vf := 3, cores := cores, rsize := 0, work := [h] })] }

/-- Rounds: a head that fits is placed; one that does not fit is blocked from now on; after AGE it reserves a region in the round that the
age has made due; with no round due nothing happens. -/
theorem witness_Rounds :
    let h : Work := { grid := 1 }
    let s := roundState 1 h
    let n := roundState 2 h
    let b := roundState 2 { h with since := some 0 }
    let o : State := { b with roundDue := false }
    let q (s : State) := s.queueAt 0
    let off (s : State) : State := { s with roundDue := false }
    s.roundDue = true ∧ (Desc.mk (s.gridAt 1).words).gang = 0
    ∧ ((q s).mayPlace = true ∧ ((off s).placeGroup 1 (q s).coreList).any (fun x => x.2 == 0) = true
      ∧ (s.gridAt 1).placed + 1 = (s.gridAt 1).ngroups
      ∧ ok (exec .dispatcherRound s) (fun v => (q v).work == [] && decide ((v.teamAt 10).life = .resident)) = true)
    ∧ (((off n).placeGroup 1 (q n).coreList).isNone = true ∧ 1 ≤ (q n).age.toNat
      ∧ ok (exec .dispatcherRound n) (fun v => (q v).work == [{ h with since := some 400000 }]) = true)
    ∧ ((q b).mayPlace = true ∧ ((off b).placeGroup 1 (q b).coreList).isNone = true ∧ (q b).age.toNat ≤ b.now - 0
      ∧ b.now - 0 < 2 * (q b).age.toNat
      ∧ ok (exec .dispatcherRound b) (fun v => (q v).work == [{ h with since := some 0, reserve := some 1 }]) = true)
    ∧ (isS (exec .headAgeExpiry o) { b.putQueue 0 { q b with work := [{ h with since := some 0, aged := 1 }] } with roundDue := true } = true)
    ∧ isS (exec .dispatcherRound o) o = true := by decide +kernel

/-- TeamAtLaunch: the one team of that grid: its argument block and its first argument, its 32 live lanes. -/
theorem witness_TeamAtLaunch :
    let s := roundState 1 { grid := 1 }
    let x : Desc := ⟨(s.gridAt 1).words⟩
    let t := (s.startGroup 1 0 [2]).teamAt 10
    0 < x.nteam ∧ ([2] : List Nat).length = x.nteam ∧ s.traces 0 1 7 = false ∧ x.nwarp ≤ 32
    ∧ (t.pc == 0x10000 && t.fmt == 4 && t.reg 2 == 0x100 && t.reg 3 == 77 && t.quarter == 2 && t.mask 0 == 0xFFFFFFFF) = true := by
  decide +kernel

/-! ### Saves and escalations -/

/-- SaveThenRestore: a team with a register, a mask, a token, a slot and a lane register. -/
theorem witness_SaveThenRestore :
    let t : Team := { rg [(5, 7)] with
      m := [(3, 9)], tok := [(2, { count := 63, cancel := true })], v := [(vKey 31 31, 8)], lidx := some 4
      q := [(1, { base := 0x20, pos := 3 })], seqctr := 77, trapcause := 0x103, traplidx := 6 }
    t.savable ∧ tm.nwarp = t.nwarp ∧ tm.nvreg = t.nvreg := by
  refine ⟨⟨by decide, by decide, by decide, rfl, ?_, by decide, by decide, fun k => ?_⟩, rfl, rfl⟩
  · rintro i h; cases h; decide
  · by_cases h : k = 2
    · subst h; decide
    · simp [Team.token, Store.get]; split <;> simp_all

/-- Saves: a deadline that is over, in a team and in one that handles a trap; a team that stops at its point; a halt before a forced
save; a team that has stopped: with an operation under way, just drained, and 63 and 64 cycles later. -/
theorem witness_Saves :
    let s (t : Team) : State := { st t with cycle := 50 }
    let d : Team := { tm with deadline := some 50 }
    let i : Team := { d with pstat := { tm.pstat with inh := true } }
    let k : Team := { tm with saveReq := some 4 }
    let w : Team := { k with saveStopped := true }
    let p : Team := { w with pend := [{ id := 1 }] }
    let y : Team := { w with drainedAt := some 50 }
    let z (n : Nat) : State := { st y with cycle := n }
    let h : Team := { tm with saveReq := some 2, haltReq := true }
    (d.deadline = some 50 ∧ d.trapReq = none ∧ d.haltReq = false ∧ d.bpHalt = false ∧ d.saveReq = none ∧ d.pstat.inh = false
      ∧ isT (exec .yieldDeadline (s d)) { d with deadline := none, saveReq := some 2 } = true
      ∧ isT (exec .yieldDeadline (s i)) { i with deadline := some 40050, restarted := true } = true)
    ∧ (k.saveReq = some 4 ∧ k.life = .resident ∧ k.saveStopped = false ∧ k.scalarPending = false ∧ k.pastPoint = false ∧ k.laneq = []
      ∧ (s k).sequencer k.gq = [] ∧ tst (exec .teamSave (s k)) (fun t => t.saveStopped && t.pc == 0x10000) = true)
    ∧ (h.haltHere = true ∧ h.saveReq = some 2 ∧ h.halted = false ∧ h.esc = none ∧ tst (exec .teamSave (s h)) (fun t => t.halted) = true)
    ∧ (p.pend ≠ [] ∧ isS (exec .teamSave (s p)) (s p) = true)
    ∧ ((s w).replaying w.gq = false ∧ w.drainedAt = none ∧ isT (exec .teamSave (s w)) y = true)
    ∧ ((z 113).cycle < 50 + 64 ∧ isS (exec .teamSave (z 113)) (z 113) = true)
    ∧ (50 + 64 ≤ (z 114).cycle ∧ ok (exec .teamSave (z 114)) (fun v => v.team.life == .saved) = true)
    ∧ (y.saveStopped = true ∧ y.pend = [] ∧ y.sdq = [] ∧ y.savable ∧ (z 114).traces y.core y.pstat.tag 5 = false) := by
  refine ⟨by decide +kernel, by decide +kernel, by decide +kernel, by decide +kernel, by decide +kernel, by decide +kernel, by decide +kernel,
    rfl, rfl, rfl, ⟨by decide, by decide, by decide, rfl, ?_, by decide, by decide, fun k => ?_⟩, by decide⟩
  · rintro i h; cases h
  · exact (by decide : (0 : Nat) < 64)

/-- Escalations: a trap that can enter; a team that has escalated, its record, and the three actions; END with an
operation under way, and the team that then has nothing left. -/
theorem witness_Escalations :
    let r := req tm
    let e : Team := { tm with esc := some 3, escTrap := some r }
    let s : State := { st e with escBase := 0x20000 }
    let h : State := st { tm with trapReq := some r }
    let d : Team := { e with pend := [{ id := 1 }] }
    let g : Team := { tm with saveReq := some 0, saveStopped := true }
    (d.escalated = true ∧ (st d).sequencer d.gq = [] ∧ d.pend ≠ []
      ∧ isT (exec .escalationEnd (st d)) { d with saveReq := some 0, saveStopped := true, laneq := [] } = true)
    ∧ (g.life = .resident ∧ g.pend = [] ∧ g.sdq = [] ∧ (st g).replaying g.gq = false
      ∧ tst (exec .teamSave (st g)) (fun t => decide (t.life = .exited)) = true)
    ∧ (∀ j, j < 64 → onFabric (0x20000 + j) = false)
    ∧ (h.team.trapReq = some r ∧ h.canEnter ∧ isT (exec .trapEntry h) (h.team.inHandler 0 r) = true)
    ∧ (e.esc = some 3 ∧ e.escTrap = some r ∧ e.escDone = false ∧ e.core < 64 ∧ e.quarter < 4 ∧ e.slot < 16 ∧ (s.escHead - s.escTail).toNat ≠ 64
      ∧ ok (exec .escalation s) (fun v => v.escHead == 1 && v.team.escDone && v.readNat 0x20000 8 == 2 ^ 32 + 2 ^ 16 && v.readNat 0x20008 8 == 3
          && v.readNat 0x20010 8 == 5 && v.readNat 0x20018 8 == 0x10000) = true)
    ∧ (e.escalated = true ∧ s.sequencer e.gq = [] ∧ e.pend = [] ∧ e.sdq = []
      ∧ tst (exec .escalationEnd s) (fun t => decide (t.life = .exited)) = true
      ∧ tst (exec .escalationSave s) (fun t => t.saveReq == some 5 && t.frame.isSome && t.pstat.inh) = true
      ∧ tst (exec .escalationResume s) (fun t => t.esc == none && t.pstat.inh && t.pc == 0x10000) = true) := by
  unfold State.canEnter; decide +kernel

/-! ### Grants and revocations -/

/-- Grants: bank 5 and tile 9, which nothing holds, to tag 2 of world 1, which has keys; remote range 3; what is refused: a bank that a tag
holds, a retired one, one that the abort engine has, a frame of a rucksack, a bank past the last, a tile and a slot of a retired
quarter, and a bank in the range of a group that stands under no tag. -/
theorem witness_Grants :
    let s : State := State.poke { st { tm with sack := some 0 } with
      keys := [(0, { valid := true, world := 1 })], tiles := [(9, { poison := 1 })], unit := 77, item := 9
      owners := [(resKey 1 0, { tag := 1, world := 1 }), (resKey 1 6, { retired := true })]
      seizing := [{ resource := 0x1000000000000007#64, owner := some {} }] } (2 ^ 52 + 5 * 2 ^ 19) 8 77
    let b : Word := 0x1000000000000005#64
    let t : Word := 0x4000000000000009#64
    let g : Word := 0x8000000000000003#64
    (Word.kind b = 1 ∧ Word.idx b = 5 ∧ resourceOk 1 5 = true ∧ (s.owner 1 5).tag = 0 ∧ (s.owner 1 5).retired = false ∧ s.leaving 1 5 = false
      ∧ (s.slotOf (BitVec.ofNat 8 1)).isSome = true ∧ s.bankBusy 5 = false
      ∧ Store.get false s.retired (5 / 16) = false
      ∧ ok (exec (.resourceGrant b 2 1 true) s) (fun v => v.owner 1 5 == { tag := 2, world := 1, shared := true }
          && v.readNat (2 ^ 52 + 5 * 2 ^ 19) 8 == 0) = true)
    ∧ (Word.kind t = 4 ∧ resourceOk 4 (Word.idx t) = true
      ∧ ok (exec (.resourceGrant t 2 1 false) s) (fun v => v.tile 9 == {} && (v.owner 4 9).tag == 2) = true)
    ∧ (Word.kind g = 8 ∧ resourceOk 8 (Word.idx g) = true ∧ (s.owner 8 3).tag = 0 ∧ s.leaving 8 3 = false
      ∧ (Store.get 0 s.remotes 6 : Word).getLsbD 0 = false
      ∧ ok (exec (.resourceGrant g 2 1 false) s) (fun v => Store.get 0 v.remotes 6 == BitVec.ofNat 64 (77 * 2 ^ 30 + 9 * 2 ^ 14 + 1)
          && Store.get 0 v.remotes 7 == (0x20100 : Word)) = true)
    ∧ ((s.owner 1 0).tag ≠ 0 ∧ (s.owner 1 6).retired = true ∧ s.leaving 1 7 = true ∧ s.inSack 5 = true ∧ resourceOk 1 3072 = false)
    ∧ isS (exec (.resourceGrant 0x1000000000000000#64 2 1 false) s) s = true ∧ isS (exec (.resourceGrant 0x1000000000000006#64 2 1 false) s) s = true
    ∧ isS (exec (.resourceGrant 0x1000000000000007#64 2 1 false) s) s = true ∧ isS (exec (.resourceGrant 0x2000000000000005#64 2 1 false) s) s = true
    ∧ isS (exec (.resourceGrant 0x1000000000000C00#64 2 1 false) s) s = true
    ∧ (let q : State := { s with retired := [(0, true)] }
       Store.get false q.retired (9 / 16) = true ∧ Store.get false q.retired (1 / 512) = true
        ∧ isS (exec (.resourceGrant t 2 1 false) q) q = true ∧ isS (exec (.resourceGrant 0x3000000000000001#64 2 1 false) q) q = true)
    ∧ (let g : State := { s with groups := [(0, { alive := true })], grids := [(0, { words := [0, BitVec.ofNat 64 (7 * 2 ^ 33)] })] }
       g.bankBusy 5 = true ∧ isS (exec (.resourceGrant b 2 1 false) g) g = true) := by decide +kernel

/-- A tenant with tag 1 whose runtime page is the frame at 0x50000, with one posted request. -/
def tenantState (ps : List Posted) : State :=
  { st tm with
    owners := [(resKey 1 0, { tag := 1, world := 1 }), (resKey 1 5, { tag := 1, world := 1 }), (resKey 2 5, { tag := 1, world := 1 })]
    tenants := [(1, { frame := some 0x50000, posted := ps })], unit := 1, now := 500 }

/-- Requests, posts: one resource, with a mailbox stile in the tenant's bank; six, beside an answered request whose slot comes round again. -/
theorem witness_Requests :
    let b : Word := 0x1000000000000005#64
    let a : Posted := { id := 1, resources := [b], reason := 0, deadline := 400, reply := some 0, replied := true }
    let s := State.poke (State.poke (tenantState []) 0x50818 4 0x7E000400) (2 ^ 52 + 0x400) 8 0x0000_0010_0001_0002
    let m : State := { tenantState [a] with tenants := [(1, { frame := some 0x50000, posted := [a], lastReq := 16 })] }
    ((s.tenantAt 1).posted = [] ∧ s.runtimePage 1 = some 0x50000 ∧ 0x50000 + 2 ^ 16 ≤ 2 ^ 50 ∧ (∀ x ∈ s.teams, x.2.park = none) ∧ s.posts = [] ∧ s.stileWaits = []
      ∧ s.runtimeTeam 1 = none ∧ sFlat 0 (s.readNat (0x50000 + 0x818) 4) = some 0x400 ∧ 0x400 % 16 = 0 ∧ (s.owner 1 (bankOf 0x400)).tag = 1
      ∧ ok (exec (.revocationRequest 1 ⟨[b], 7, 0⟩) s) (fun v => (v.tenantAt 1).lastReq == 1 && v.readNat 0x50040 8 == 2 ^ 32 + 1
          && v.readNat 0x50048 8 == 400500 && v.readNat 0x50050 8 == b.toNat && (v.stile (2 ^ 52 + 0x400)).parr == 0) = true)
    ∧ ((m.tenantAt 1).lastReq + 1 = 17 ∧ (∀ p ∈ (m.tenantAt 1).posted, p.id % 16 = 17 % 16 → p.reply.isSome = true)
      ∧ (List.replicate 6 b).length ≤ 6 ∧ m.runtimePage 1 = some 0x50000 ∧ m.runtimeTeam 1 = none
      ∧ ok (exec (.revocationRequest 1 ⟨List.replicate 6 b, 7, 500000⟩) m) (fun v => (v.tenantAt 1).posted.length == 2
          && v.readNat 0x50040 8 == 17 * 2 ^ 32 + 6 && v.readNat 0x50048 8 == 500500 && v.readNat 0x50078 8 == b.toNat) = true) := by
  decide +kernel

/-- Requests, replies: the store of a reply that gives up bank 5 and postcard entry 33 and keeps bank 0; what is left of a reply at its
event; no reply. Deadlines: one that is over, and none. -/
theorem witness_Replies :
    let b : Word := 0x1000000000000005#64
    let e : Word := 0x9000000000000021#64
    let p : Posted := { id := 3, resources := [b, e, 0x1000000000000000#64], reason := 0, deadline := 600 }
    let w : WriteOp := { id := 1, what := .bytes (bytesAt 0x504C0 8 (3 * 2 ^ 32 + 3)), born := 0, departed := true }
    let posts (s : State) : State := { s with posts := [(33, { state := 1, tag := 1, world := 1 })] }
    let s : State := posts { tenantState [p] with
      teams := [(0, { tm with sdq := [w] })], unit := 0, item := 1 }
    let g := posts (tenantState [{ p with reply := some 3 }])
    let i := tenantState [{ p with reply := some 3, replied := true }]
    let d := tenantState [{ p with deadline := 500 }]
    (s.canPerform w ∧ (s.teamAt 0).pstat.tag = 1 ∧ (s.tenantAt 1).posted = [p] ∧ p.reply = none ∧ (s.tenantAt 1).frame = some 0x50000
      ∧ 0x50000 + 2 ^ 16 ≤ 2 ^ 50 ∧ s.now < p.deadline ∧ (s.holder 1 5).1 = 1 ∧ (s.holder 9 33).1 = 1
      ∧ ok (exec .writePerformed s) (fun v => (v.tenantAt 1).posted == [{ p with reply := some 3, replied := true }]
          && (v.owner 1 5).tag == 0 && (v.holder 9 33).1 == 0 && (v.owner 1 0).tag == 1) = true)
    ∧ ((g.tenantAt 1).posted.find? (fun p => p.reply.isSome && !p.replied) = some { p with reply := some 3 }
      ∧ p.resources.all (fun r => decide (1 ≤ Word.kind r) && decide (Word.kind r ≤ 9)) = true
      ∧ ok (exec .revocationReply g) (fun v => (v.owner 1 5).tag == 0 && (v.post 33).state == 2 && (v.owner 1 0).tag == 1) = true)
    ∧ ((∀ p ∈ (i.tenantAt 1).posted, p.reply.isSome = true → p.replied = true) ∧ i.records = [] ∧ i.seizing = []
      ∧ isS (exec .revocationReply i) i = true)
    ∧ ((d.tenantAt 1).posted.find? (fun p => decide (p.deadline ≤ d.now)) = some { p with deadline := 500 }
      ∧ ok (exec .revocationDeadline d) (fun v => (v.tenantAt 1).posted == []
          && v.seizing.map Seizure.resource == [b, 0x1000000000000000#64]) = true)
    ∧ ((∀ p ∈ (i.tenantAt 1).posted, i.now < p.deadline) ∧ isS (exec .revocationDeadline i) i = true) := by
  unfold State.canPerform; decide +kernel

/-- Seizures: bank 6, which nothing holds, skipped, and retired; bank 5 and postcard entry 33 of tag 1; the end of the seizure of
translation slot 1, with its record, and of postcard entry 33, with its two; that first record written. -/
theorem witness_Seizures :
    let b : Word := 0x1000000000000005#64
    let e : Word := 0x9000000000000021#64
    let s : State := { tenantState [] with posts := [(33, { state := 1, tag := 1, world := 1 })] }
    let x : Seizure := { resource := 0x3000000000000001#64, reqid := 4, owner := some { tag := 1, world := 1 }, time := 7 }
    let z : State := { s with seizing := [x] }
    let bits := x.resource.toNat + 2 ^ 64 + 4 * 2 ^ 96 + 7 * 2 ^ 128 + (2 ^ 64 - 1) * 2 ^ 192
    let c : LostRecord := { tag := 1, resource := x.resource.toNat, bits := bits }
    let w : State := { s with records := [c] }
    s.seizing = [] ∧ s.records = []
    ∧ ((s.holder 1 6).1 = 0 ∧ isS (exec (.resourceSeizure (b + 1) 0 4) s) s = true
      ∧ ok (exec (.resourceSeizure (b + 1) 2 4) s) (fun v => v.owner 1 6 == { retired := true } && v.seizing.isEmpty) = true)
    ∧ ((s.holder 1 5).1 ≠ 0 ∧ ok (exec (.resourceSeizure b 0 4) s) (fun v => (v.owner 1 5).tag == 0 && v.seizing.map Seizure.resource == [b]
        && worst (v.checkS 1 1 0 3 (5 * 2 ^ 19) 1).fails == some ⟨6, 3, 5 * 2 ^ 19, 5 * 2 ^ 19⟩) = true)
    ∧ ((s.holder 9 33).1 ≠ 0 ∧ ok (exec (.resourceSeizure e 0 4) s) (fun v => (v.post 33).state == 2 && (v.post 33).tag == 1
        && v.seizing.map Seizure.resource == [e]) = true)
    ∧ (z.records = [] ∧ x.owner = some { tag := 1, world := 1 } ∧ (∀ t ∈ z.teams, t.2.sdq = []) ∧ z.redbuf = [] ∧ z.stileWaits = [] ∧ x.wait = {} ∧ x.record = true
      ∧ z.runtimePage 1 = some 0x50000 ∧ (z.readNat 0x50800 8 + 2 ^ 32 - z.readNat 0x50808 8 % 2 ^ 32) % 2 ^ 32 < 960
      ∧ ok (exec (.resourceSeizure b 0 0) z) (fun v => v.seizing.isEmpty && v.records.map (fun r => r.bits % 2 ^ 256) == [bits]) = true)
    ∧ (let y : Seizure := { resource := e, cause := 1, reqid := 4, owner := some { tag := 1, world := 1 } }
       let p : State := { s with seizing := [y], posts := [(33, { state := 2, tag := 1, world := 1, gen := 9 })] }
       (p.post 33).tag = 1 ∧ y.wait = {} ∧ (p.readNat 0x50800 8 + 2 ^ 32 - p.readNat 0x50808 8 % 2 ^ 32) % 2 ^ 32 < 959
        ∧ 0x50000 + 2 ^ 17 ≤ 2 ^ 50 ∧ p.runtimePage 1 = some 0x50000)
    ∧ (w.runtimePage c.tag = some 0x50000
      ∧ ok (exec (.resourceSeizure b 0 0) w) (fun v => v.records.isEmpty && v.readNat 0x50800 8 == 1 && v.readNat 0x51000 64 == bits) = true) := by
  decide +kernel

/-! ### Worlds, pages and boot -/

/-- KeySlots: a load, an erase with and without something assigned, a world that another slot has; a rotation that starts, goes on at line
5 × 512, ends at the last line of frame 5 and past it, and meets a line that has been tampered with. -/
theorem witness_KeySlots :
    let s (k : KeySlot) : State := { tenantState [] with keys := [(1, k)], nextKey := 7 }
    let n : KeySlot := { world := 2 }
    let v : KeySlot := { world := 1, valid := true, key := 3 }
    let u : KeySlot := { world := 2, valid := true, key := 3 }
    let r : KeySlot := { v with rot := true, tide := 0 }
    let l : KeySlot := { v with rot := true, tide := 0x5FF80 }
    let z : KeySlot := { v with rot := true, tide := 0x60000 }
    let t : State := { s r with tampers := [(0x50000 / 128, (1, 1))] }
    let two : State := { s v with keys := [(1, v), (2, { v with key := 4 })] }
    let alone (s : State) : Bool := s.keys.all fun o => o.1 == 1 || !o.2.valid || o.2.world != (s.keySlot 1).world
    (alone (s n) = true ∧ ok (exec .wctlKeyLoad (s n)) (fun x => x.keySlot 1 == { n with valid := true, key := 7, mask := 7 } && x.nextKey == 8) = true)
    ∧ (alone (s u) = true ∧ (s u).assigned 2 = false ∧ ok (exec .wctlKeyErase (s u)) (fun x => x.keySlot 1 == { world := 2 }) = true)
    ∧ ((s v).assigned 1 = true ∧ isS (exec .wctlKeyErase (s v)) (s v) = true)
    ∧ (v.rot = false ∧ ok (exec .wctlGo (s v)) (fun x => (x.keySlot 1).rot && (x.keySlot 1).oldKey == 3 && (x.keySlot 1).key == 7) = true)
    ∧ (alone two = false ∧ isS (exec .wctlKeyLoad two) two = true ∧ isS (exec .wctlKeyErase two) two = true ∧ isS (exec .wctlGo two) two = true)
    ∧ ((s r).keys.find? (fun k => k.2.valid && k.2.rot) = some (1, r) ∧ (s r).nextLineOf 1 0 = some 0x50000 ∧ (s r).tampered (0x50000 / 128) = false
      ∧ (s r).nextLineOf 1 (0x50000 + 128) = some 0x50080 ∧ ok (exec .rotationLine (s r)) (fun x => (x.keySlot 1).tide == 0x50080) = true)
    ∧ ((s l).nextLineOf 1 0x5FF80 = some 0x5FF80 ∧ (s l).nextLineOf 1 (0x5FF80 + 128) = none
      ∧ ok (exec .rotationLine (s l)) (fun x => (x.keySlot 1).epoch == 1 && !(x.keySlot 1).rot) = true)
    ∧ (t.nextLineOf 1 0 = some 0x50000 ∧ t.nextLineOf 1 (0x50000 + 128) = some 0x50080 ∧ t.tampered (0x50000 / 128) = true ∧ resourceOk 2 5 = true
      ∧ ok (exec .rotationLine t) (fun x => (x.owner 2 5).poison && !x.tampered (0x50000 / 128) && (x.keySlot 1).tide == 0x50080
          && (List.range 4).all fun n => Store.get false x.poison (4 * (0x50000 / 128) + n)) = true)
    ∧ ((s z).nextLineOf 1 0x60000 = none ∧ ok (exec .rotationLine (s z)) (fun x => (x.keySlot 1).epoch == 1 && !(x.keySlot 1).rot) = true) := by
  decide +kernel

/-- PagedFrames: frame 7 of world 1, which management holds, and a host address; a frame that is scrubbed; returns of an image whose
version does not fit, also to a frame that has been granted to tag 1 since, of one that lies at an address that is no frame's, and of
one for a frame that the abort engine has. -/
theorem witness_PagedFrames :
    let s : State := { st tm with owners := [(resKey 2 7, { world := 1 })], keys := [(1, { valid := true, world := 1 })], unit := 7, item := 0x1000 }
    let v : State := { State.poke s (2 ^ 51 + 0x1000) 8 0x70000 with versions := [(7, 1)] }
    let o := State.poke s (2 ^ 51 + 0x1000) 8 0x70001
    let g : State := { v with owners := [(resKey 2 7, { tag := 1, world := 1 })] }
    let a : State := { v with seizing := [{ resource := 0x2000000000000007#64, owner := some {} }] }
    (∀ i, i < 512 → s.tampered (512 * 7 + i) = false) ∧ s.pageable 7 = true ∧ s.item + 2 ^ 17 ≤ 2 ^ 51 ∧ s.held2 7 = true ∧ s.inSack 7 = false ∧ Store.get false s.flash.scrubbed 7 = false
    ∧ ok (exec .frameScrub (State.poke s 0x70000 8 9)) (fun v => v.readNat 0x70000 8 == 0 && Store.get false v.flash.scrubbed 7) = true
    ∧ (v.readNat (2 ^ 51 + 0x1000) 8 % 2 ^ 16 = 0 ∧ v.settled 7 = true ∧ g.settled 7 = true ∧ a.settled 7 = false
      ∧ v.readNat (2 ^ 51 + 0x1000 + 12) 4 ≠ (Store.get 0 v.versions 7 : BitVec 32).toNat
      ∧ Store.wf ({} : Team) v.teams = true ∧ (∀ t ∈ v.teams, t.2.life ≠ .saved)
      ∧ ok (exec .frameReturn v) (fun x => (x.owner 2 7).poison && x.mem == v.mem) = true
      ∧ ok (exec .frameReturn g) (fun x => (x.owner 2 7).poison && (x.owner 2 7).tag == 1 && x.mem == g.mem) = true
      ∧ isS (exec .frameReturn a) a = true)
    ∧ (o.readNat (2 ^ 51 + 0x1000) 8 % 2 ^ 16 ≠ 0 ∧ isS (exec .frameReturn o) o = true) := by
  refine ⟨fun _ _ => rfl, ?_⟩; decide +kernel

/-- The state of a returning image: its address, its world and the tags of 512 lines of zeros of frame 7, under generation 5 of the key. -/
def imageBase : State :=
  { st tm with owners := [(resKey 2 7, { world := 1 })], keys := [(1, { valid := true, world := 1, key := 5 })], exports := [(7, 5)], item := 0x1000 }
def imageTags (i : Nat) : BitVec 64 := imageBase.tagOf (512 * 7 + i) (imageBase.version 7) 0
def imageState : State :=
  { imageBase with mem := [(2 ^ 51 + 0x1002, 7), (2 ^ 51 + 0x1008, 1)]
      ++ (List.range' 0 4096).map fun n => (2 ^ 51 + 0x11040 + n, BitVec.ofNat 8 ((imageTags (n / 8)).toNat / 256 ^ (n % 8))) }

theorem get_map_range (f : Nat → Byte) (b n m c : Nat) (h1 : m ≤ n) (h2 : n < m + c) :
    Store.get 0 ((List.range' m c).map fun n => (b + n, f n)) (b + n) = f n := by
  induction c generalizing m with
  | zero => omega
  | succ c ih =>
    simp only [List.range'_succ, List.map_cons, Store.get]
    split
    · congr 1; omega
    · exact ih (m + 1) (by omega) (by omega)

theorem get_absent (m : List (Nat × Byte)) (k : Nat) (h : ∀ p ∈ m, p.1 ≠ k) : Store.get 0 m k = 0 := by
  induction m with
  | nil => rfl
  | cons p m ih =>
    unfold Store.get
    rw [if_neg (h p (by simp)), ih fun q hq => h q (by simp [hq])]

theorem leBytes_map (n x : Nat) : leBytes n x = (List.range n).map fun j => BitVec.ofNat 8 (x / 256 ^ j) := by
  induction n generalizing x with
  | zero => rfl
  | succ n ih => simp [leBytes, ih, List.range_succ_eq_map, Nat.div_div_eq_div_mul, Nat.pow_succ', Function.comp_def]

theorem imageState_tag (i : Nat) (hi : i < 512) :
    BitVec.ofNat 64 (imageState.readNat (2 ^ 51 + 0x1000 + 0x10040 + 8 * i) 8) = imageTags i := by
  have hb (j : Nat) (hj : j < 8) : imageState.byte (2 ^ 51 + 0x1000 + 0x10040 + 8 * i + j)
      = BitVec.ofNat 8 ((imageTags i).toNat / 256 ^ j) := by
    have h := get_map_range (fun n => BitVec.ofNat 8 ((imageTags (n / 8)).toNat / 256 ^ (n % 8))) (2 ^ 51 + 0x11040) (8 * i + j) 0 4096
      (by omega) (by omega)
    rw [show (8 * i + j) / 8 = i by omega, show (8 * i + j) % 8 = j by omega] at h
    rw [← h]
    show Store.get 0 imageState.mem _ = _
    simp only [imageState, List.cons_append, List.nil_append, Store.get]
    rw [if_neg (by omega), if_neg (by omega)]
    congr 1
    omega
  have h8 : (keysFrom (2 ^ 51 + 0x1000 + 0x10040 + 8 * i) 8).map imageState.byte = leBytes 8 (imageTags i).toNat := by
    simp only [keysFrom, List.map_map]
    rw [leBytes_map]
    refine List.map_congr_left fun j hj => ?_
    exact hb j (List.mem_range.mp hj)
  rw [State.readNat, h8, bytesNat, leNat_leBytes]
  show BitVec.ofNat 64 ((imageTags i).toNat % 18446744073709551616) = imageTags i
  rw [Nat.mod_eq_of_lt (show (imageTags i).toNat < 18446744073709551616 from (imageTags i).isLt), BitVec.ofNat_toNat, BitVec.setWidth_eq]

theorem imageState_line (i : Nat) (hi : i < 512) : imageState.readNat (2 ^ 51 + 0x1000 + 64 + 128 * i) 128 = 0 := by
  have hb : (keysFrom (2 ^ 51 + 0x1000 + 64 + 128 * i) 128).map imageState.byte = List.replicate 128 0 := by
    rw [List.eq_replicate_iff]
    refine ⟨by simp [keysFrom], ?_⟩
    intro b hb
    obtain ⟨k, hk, rfl⟩ := List.mem_map.mp hb
    obtain ⟨j, hj, rfl⟩ := List.mem_map.mp hk
    have hj := List.mem_range.mp hj
    refine get_absent _ _ fun p hp => ?_
    simp only [imageState, List.cons_append, List.nil_append, List.mem_cons, List.mem_map, List.mem_range'_1] at hp
    rcases hp with rfl | rfl | ⟨n, _, rfl⟩ <;> simp only <;> omega
  rw [State.readNat, hb]
  decide +kernel

/-- PagedFrames: that image meets every condition of a return, so that it gives the frame back. -/
theorem witness_PagedFrames_return :
    let s := imageState
    let at' := 2 ^ 51 + s.item
    s.item + 2 ^ 17 ≤ 2 ^ 51 ∧ s.readNat at' 8 = 0x70000 ∧ s.settled 7 = true ∧ (s.slotOf (s.owner 2 7).world).isSome = true
    ∧ s.readNat (at' + 12) 4 = (Store.get 0 s.versions 7 : BitVec 32).toNat ∧ s.readNat (at' + 8) 1 = ((s.owner 2 7).world).toNat
    ∧ Store.get 0 s.exports 7 = s.lineKey (s.owner 2 7).world (512 * 7)
    ∧ ∀ i, i < 512 → BitVec.ofNat 64 (s.readNat (at' + 0x10040 + 8 * i) 8)
        = s.tagOf (512 * 7 + i) (s.version 7) (BitVec.ofNat 1024 (s.readNat (at' + 64 + 128 * i) 128)) := by
  refine ⟨by decide +kernel, by decide +kernel, by decide +kernel, by decide +kernel, by decide +kernel, by decide +kernel,
    by decide +kernel, ?_⟩
  intro i hi
  rw [show 2 ^ 51 + imageState.item + 64 + 128 * i = 2 ^ 51 + 0x1000 + 64 + 128 * i from rfl, imageState_line i hi]
  exact imageState_tag i hi

/-- The standards that R412 and R417 name, on their own examples: AES-256 of FIPS 197 (appendix C.3), AES-CMAC of SP 800-38B (AES-256,
16 bytes), SHA-384 of FIPS 180 ("abc"). -/
theorem test_standards :
    aesEncrypt (roundKeys ((List.range 32).map (BitVec.ofNat 8))) ((List.range 16).map fun i => BitVec.ofNat 8 (17 * i))
      = [0x8E, 0xA2, 0xB7, 0xCA, 0x51, 0x67, 0x45, 0xBF, 0xEA, 0xFC, 0x49, 0x90, 0x4B, 0x49, 0x60, 0x89]
    ∧ cmac 0xF4DF1409A310982DD708613B072C351F81777D85F0AE732BBE71CA1510EB3D60#256
        [0x6B, 0xC1, 0xBE, 0xE2, 0x2E, 0x40, 0x9F, 0x96, 0xE9, 0x3D, 0x7E, 0x11, 0x73, 0x93, 0x17, 0x2A]
      = [0x28, 0xA7, 0x02, 0x3F, 0x45, 0x2E, 0x8F, 0x82, 0xBD, 0x4B, 0xF2, 0x8D, 0x8C, 0x37, 0xC3, 0x5C]
    ∧ sha384 [0x61, 0x62, 0x63]
      = 0xCB00753F45A35E8BB5A03D699AC65007272C32AB0EDED1631A8B605A43FF5BED8086072BA1E7CC2358BAECA134C825A7#384 := by
  decide +kernel

/-- Boots: a device with no image, which comes up in recovery mode and reaches no virtual function; with an image in slot 0 the
result is that of the signature check under the ROM's key. -/
theorem witness_Boots :
    let s : State := {}
    let i : FwImage := { body := [1], sig := [], svn := 5, config := [] }
    let f : State := { flash := { images := [(0, i)] } }
    (s.boot.done = false ∧ s.bootImage = none ∧ ok (exec .boot s) (fun v => v.boot.done && v.boot.recovery && !v.exposes (.vf 0)
        && (v.keySlot 0).valid) = true)
    ∧ f.boot.done = false ∧ (imageVerifies i = true → f.bootImage = some i) := by
  refine ⟨by decide +kernel, rfl, fun h => ?_⟩
  simp only [State.bootImage, List.find?_cons, h]
  rfl

/-- Resets: a trip leaves the window byte and clears the near byte. -/
theorem test_resets :
    let s := State.poke (State.poke (st tm) 0x100 1 7) (2 ^ 50) 1 8
    ok (exec .thermalTrip s) (fun v => v.byte 0x100 == 0 && v.byte (2 ^ 50) == 8 && v.teams.isEmpty && (v.tlb).isEmpty) = true := by decide +kernel

/-- Attestations: request 9 in the runtime page, of a device with its seed. -/
theorem witness_Attestations :
    let s : State := { State.poke (tenantState []) 0x50870 8 9 with boot := { done := true, seed := true } }
    s.runtimePage s.unit = some 0x50000 ∧ 0x50000 + 0x1000 ≤ 2 ^ 52 ∧ s.boot.seed = true ∧ s.boot.recovery = false
    ∧ s.readNat (0x50000 + 0x870) 8 = 9 ∧ BitVec.ofNat 64 (s.readNat (0x50000 + 0x870) 8) ≠ (s.tenantAt s.unit).attest := by decide +kernel

/-! ### Debugging -/

/-- A machine whose core 0 has this debug block. -/
def dbgState (d : DebugBlock) : State := { st tm with dbgs := [(0, d)], now := 1000, cycle := 64 }

/-- DebugClaims: a free unit; the hypervisor's request and a virtual function's for a held one; releases with and without a
revocation pending; the deadline. -/
theorem witness_DebugClaims :
    let d (c : Claim) := dbgState { dbg := c, bps := [(0, { pc := 4 })] }
    let own (o : Out) (c : Claim) : Bool := ok o fun v => decide ((v.dbg 0).dbg = c)
    let f : Claim := {}
    let h : Claim := { owner := 3 }
    let p : Claim := { owner := 3, pend := 0xFE, deadl := 2000 }
    let x : Claim := { owner := 3, pend := 0xFE, deadl := 1000 }
    (fnCode (.vf 3) = some 3 ∧ fnCode .pf = some 0xFE ∧ (d f).exposes (.vf 3) = true ∧ f.owner = 0xFF ∧ own (exec (.claimRequest (.vf 3) 0 .dbg) (d f)) h = true)
    ∧ (h.owner < 64 ∧ h.pend = 0xFF ∧ h.note = 0 ∧ own (exec (.claimRequest .pf 0 .dbg) (d h)) { p with deadl := 401000 } = true)
    ∧ (h.owner ≠ 0xFF ∧ isS (exec (.claimRequest (.vf 4) 0 .dbg) (d h)) (d h) = true)
    ∧ own (exec (.claimRelease (.vf 3) 0 .dbg) (d h)) {} = true
    ∧ ((d p).now < p.deadl.toNat ∧ own (exec (.claimRelease (.vf 3) 0 .dbg) (d p)) { owner := 0xFE } = true)
    ∧ (x.deadl.toNat ≤ (d x).now ∧ own (exec (.claimDeadline 0 .dbg) (d x)) { owner := 0xFE } = true
      ∧ ok (exec (.claimDeadline 0 .dbg) (d x)) (fun v => (v.dbg 0).bps.isEmpty) = true)
    ∧ (let c : State := dbgState { ctr := x, img := 0x200 }
       (∀ j, j < 256 → onFabric ((c.dbg 0).imgAt + j) = false)
        ∧ ok (exec (.claimDeadline 0 .ctr) c) (fun v => v.readNat 0x20000 8 == 1 + 2 ^ 40 && (v.dbg 0).ctr == { owner := 0xFE }) = true)
    ∧ (let t : State := { d f with teams := [(0, { tm with halted := true })] }
       Store.wf ({} : Team) t.teams = true ∧ tst (exec (.claimRequest .pf 0 .dbg) t) (fun u => !u.halted && u.pc == 0x10000) = true) := by decide +kernel

/-- HaltControl: a resident team that runs, one that has halted, and one that has escalated; a slot without a team; a virtual function. -/
theorem witness_HaltControl :
    let s := st tm
    let h := st { tm with halted := true }
    (s.slotTeam 0 0 0 = some 0 ∧ isT (exec (.haltctlHalt .pf 0 0 0) s) { tm with haltReq := true } = true)
    ∧ (h.team.halted = true ∧ h.team.counting = false
      ∧ isT (exec (.haltctlStep .pf 0 0 0) h) { tm with stepOnce := true, bpSkip := some (0x10000, none) } = true)
    ∧ (s.team.halted = false ∧ isS (exec (.haltctlResume .pf 0 0 0) s) s = true)
    ∧ (s.team.saveReq = none ∧ isT (exec (.haltctlSave .pf 0 0 0) s) { tm with saveReq := some 5 } = true)
    ∧ (let e := st { tm with esc := some 3 }
       e.team.esc.isSome = true ∧ tst (exec (.haltctlSave .pf 0 0 0) e) (fun t => t.saveReq == some 5 && t.pstat.inh && t.frame.isSome) = true)
    ∧ s.slotTeam 0 1 0 = none ∧ isS (exec (.haltctlHalt .pf 0 1 0) s) s = true ∧ isS (exec (.haltctlHalt (.vf 3) 0 0 0) s) s = true := by
  decide +kernel

/-- RingsEnabled: a trace unit and a sampler that are off. -/
theorem witness_RingsEnabled :
    let d : DebugBlock := { dbg := { owner := 3 }, rc := { owner := 3 }, trace := { base := 64, head := 5, tail := 2, drop := 1 } }
    d.holds (.vf 3) .dbg = true ∧ d.trEn = false
    ∧ ok (exec (.traceEnable (.vf 3) 0) (dbgState d)) (fun v => (v.dbg 0).trEn && (v.dbg 0).trace == { base := 64 }) = true
    ∧ d.holds (.vf 3) .rc = true ∧ (d.sampler 1).en = false
    ∧ ok (exec (.rollCallEnable (.vf 3) 0 1) (dbgState d)) (fun v => ((v.dbg 0).sampler 1).en && ((v.dbg 0).sampler 1).start == 1000) = true := by
  decide +kernel

/-- RollCallSamples: the sample due at cycle 16 of a team that issued in it: the scalar instruction at 0x10040, or a lane instruction, when
the pc is shown; with a full ring, and with one of no record. -/
theorem witness_RollCallSamples :
    let t : Team := { tm with lastIssue := 20, seqctr := 9, lastPc := (17, 0x10040) }
    let o : Team := { t with lastPc := (18, 0x10040) }
    let s (n : BitVec 32) : State := { dbgState { rc := { owner := 0xFE }, samplers := [(0, { en := true, ring := { base := 0x20000, size := 4, head := n } })] }
      with teams := [(0, t)] }
    let z : State := { s 0 with dbgs := [(0, { rc := { owner := 0xFE }, samplers := [(0, { en := true, ring := { base := 0x20000 } })] })] }
    let x (n : BitVec 32) := ((s n).dbg 0).sampler 0
    ((x 0).en = true ∧ (x 0).from0 + ((x 0).taken + 1) * (x 0).n.toNat = 16 ∧ 16 ≤ (s 0).cycle ∧ (s 0).replays = [] ∧ (∀ j, j < 16 → onFabric (0x20000 + j) = false)
      ∧ ((x 0).ring.head - (x 0).ring.tail).toNat < (x 0).ring.size.toNat ∧ t.lastIssue > 16
      ∧ ok (exec .rollCallSample (s 0)) (fun v => ((v.dbg 0).sampler 0).ring.head == 1 && v.readNat 0x20000 8 == 2 ^ 47 + 2 ^ 42 + 0x4010
          && v.readNat 0x20008 8 == 9 * 2 ^ 32 + 16) = true
      ∧ ok (exec .rollCallSample ((s 0).setTeam o)) (fun v => v.readNat 0x20000 8 == 2 ^ 47 + 2 ^ 42 + 0x4000) = true)
    ∧ ((((z.dbg 0).sampler 0).ring.head - ((z.dbg 0).sampler 0).ring.tail).toNat = ((z.dbg 0).sampler 0).ring.size.toNat
      ∧ ok (exec .rollCallSample z) (fun v => ((v.dbg 0).sampler 0).ring.drop == 1 && v.mem == z.mem) = true)
    ∧ (((x 4).ring.head - (x 4).ring.tail).toNat = (x 4).ring.size.toNat ∧ (x 4).ring.drop.toNat < 2 ^ 32 - 1
      ∧ ok (exec .rollCallSample (s 4)) (fun v => ((v.dbg 0).sampler 0).ring.drop == 1) = true) := by decide +kernel

/-- CounterSessions: counter 7 goes into the image and comes back from it; event 9 of counter 0 is one that this part has not.
A LOAD adds its bits to those that stand in the header. -/
theorem witness_CounterSessions :
    let d : DebugBlock := { ctr := { owner := 3 }, img := 0x200, counters := [(0, { event := 9, value := 4 }), (7, { en := true, event := 2, value := 6 })] }
    let s := dbgState d
    (s.dbg 0).holds (.vf 3) .ctr = true ∧ (∀ j, j < 256 → onFabric ((s.dbg 0).imgAt + j) = false)
    ∧ ok (exec (.counterLoad (.vf 3) 0) (State.poke (State.poke s 0x20004 1 0x80) 0x20010 8 9)) (fun v => v.byte 0x20004 == 0xFF) = true
    ∧ ok (exec (.counterSave (.vf 3) 0) s) (fun v => v.readNat 0x20000 8 == 1 && v.readNat 0x20008 8 == 1000
        && v.readNat 0x20080 8 == 2 ^ 63 + 2 && v.readNat 0x20088 8 == 6
        && ok (exec (.counterLoad (.vf 3) 0) v) (fun w => (w.dbg 0).counter 7 == { en := true, event := 2, value := 6 }
            && (w.dbg 0).counter 0 == { event := 9 } && (w.dbg 0).unsup.getLsbD 0)) = true := by decide +kernel

/-! ### Reliability, fabric, time -/

/-- Reliability: an eighth rollback within 1 ms; a self-test that fails, of a bank that nothing holds and of one that tag 1 holds, and one
that passes; a flush. -/
theorem witness_Reliability :
    let s : State := { st tm with ticks := 3000000000000, rollbacks := [(5, List.replicate 7 2999999999000)] }
    let old := (Store.get [] s.rollbacks 5).filter fun x => decide (s.ticks < x + 4000000)
    let h := tenantState []
    (7 ≤ old.length ∧ ok (exec (.strike [5]) s) (fun v => Store.get false v.held 5 && (Store.get [] v.rollbacks 5).length == 8
        && v.replaying 5) = true)
    ∧ ((s.owner 1 3).tag = 0
      ∧ ok (exec (.selfTest .bank 3 true) s) (fun v => Store.get false v.retired (unitKey .bank 3) && (v.owner 1 3).retired) = true)
    ∧ ((h.owner 1 5).tag = 1 ∧ h.runtimePage 1 = some 0x50000 ∧ (h.tenantAt 1).posted = [] ∧ (h.tenantAt 1).wanted = [] ∧ (h.tenantAt 1).lastReq < 2 ^ 32 - 1
      ∧ ok (exec (.selfTest .bank 5 true) h) (fun v => v.owners == h.owners && (v.tenantAt 1).lastReq == 1
          && (v.tenantAt 1).posted.map (fun p => (p.resources, p.reason)) == [([0x1000000000000005#64], 2)]) = true)
    ∧ (((Store.get [] s.history (unitKey .bank 3)).filter fun x => decide (s.ticks < x + 24 * 3600 * 4000000000)).length < 3
      ∧ ok (exec (.selfTest .bank 3 false) s) (fun v => v.retired.isEmpty && v.owners == s.owners) = true)
    ∧ (s.flushed + 2400000000000 ≤ s.ticks ∧ ok (exec .lifetimeFlush s) (fun v => v.flash.powered == 3000000000000) = true) := by decide +kernel

/-- Links: a flit that fails for the first and for the eighth time; a link that goes down and comes up; a load of the fabric that has
waited 200 µs less a tick, one of a lane and one of the scalar stream that have waited 200 µs; a store that has left, before and at 200 µs.
(Which of the lanes fail at once is open: here there is one.) -/
theorem witness_Links :
    let s (l : Link) : State := { st tm with links := [(4, l)], unit := 4 }
    let u : Link := { up := true, far := 9 }
    let p : Pend := { id := 7, kind := .load, tok := some 1, fabric := [(2, 0x500)], regs := [(vKey 5 2, 1), (vKey 5 3, 1)], born := 100 }
    let f (p : Pend) (n : Nat) : State := { st { tm with pend := [p] } with item := 7, ticks := n }
    let q : Pend := { p with scalar := some (6, none), regs := [], tok := none }
    let w : WriteOp := { id := 7, what := .bytes [(2 ^ 50, 1)], born := 0, departed := true, fabric := some 0x500, tick := 100 }
    let g (n : Nat) : State := { st { tm with sdq := [w] } with item := 7, ticks := n }
    (u.up = true ∧ u.fails < 7 ∧ ok (exec .flitCrcFailure (s u)) (fun v => v.link 4 == { u with fails := 1, retry := 1 }) = true)
    ∧ ok (exec .flitCrcFailure (s { u with fails := 7 })) (fun v => !(v.link 4).up) = true
    ∧ ok (exec .linkGoesDown (s u)) (fun v => v.link 4 == { u with up := false }) = true
    ∧ ok (exec .linkUp { s {} with item := 12 }) (fun v => v.link 4 == { up := true, far := 12 }) = true
    ∧ ((f p 800099).team.op? 7 = some p ∧ p.kind = .load ∧ p.fabric ≠ [] ∧ (∀ w ∈ (f p 800099).team.sdq, w.id ≠ 7)
      ∧ (f p 800099).ticks < p.born + 800000 ∧ isS (exec .fabricRequestGiveUp (f p 800099)) (f p 800099) = true)
    ∧ (p.born + 800000 ≤ (f p 800100).ticks ∧ p.scalar = none)
    ∧ ((f q 800100).team.op? 7 = some q ∧ q.born + 800000 ≤ (f q 800100).ticks ∧ q.scalar = some (6, none))
    ∧ ((g 800099).team.sdq.find? (fun w => w.id == 7 && w.departed && w.fabric.isSome) = some w ∧ (g 800099).ticks < w.tick + 800000
      ∧ isS (exec .fabricRequestGiveUp (g 800099)) (g 800099) = true ∧ w.tick + 800000 ≤ (g 800100).ticks) := by
  decide +kernel

/-- Quiesces: joins without a team, of another partition and of its own, and with one; QUIESCE of epoch 5, without a partition: of a
device that is no pool node of its own, and of pool node 0x80009, to which link 4 leads; inside a partition: of device 9. -/
theorem witness_Quiesces :
    let s : State := { st tm with
      routes := [(6, BitVec.ofNat 64 (2 ^ 63 + 0x80009 * 2 ^ 32))], links := [(4, { up := true, far := 0x80009 })], unit := 5 }
    let i : State := { s with partid := 0x8000000000000003#64, routes := [(6, BitVec.ofNat 64 (2 ^ 63 + 9 * 2 ^ 32))] }
    let n : State := { s with teams := [] }
    let raised (v : State) : Bool := v.quiesce.active && v.team.async == [(0x10, 5)] && (Store.get 0 v.routes 6).getLsbD 62
    ((∀ t ∈ n.teams, t.2.life ≠ .resident ∧ t.2.life ≠ .saved) ∧ n.partid ≠ 0x8000000000000003#64
      ∧ ok (exec (.partitionJoin 3) n) (fun v => v.partid == 0x8000000000000003#64) = true
      ∧ isS (exec (.partitionJoin 3) { i with teams := [] }) { i with teams := [] } = true)
    ∧ ((∃ t ∈ s.teams, t.2.life = .resident ∨ t.2.life = .saved) ∧ isS (exec (.partitionJoin 3) s) s = true)
    ∧ (s.partid.getLsbD 63 = false ∧ isS (exec (.quiesce 5 [9, 0x80008]) s) s = true)
    ∧ (s.quiesce.active = false ∧ s.quiesce.epoch < 5 ∧ Store.wf {} s.teams = true ∧ (∀ t ∈ s.teams, t.2.life ≠ .saved)
      ∧ s.links.any (fun l => l.2.far.toNat == 0x80009) = true
      ∧ (Store.get 0 s.routes (2 * 3)).getLsbD 63 = true ∧ ((Store.get 0 s.routes (2 * 3)).extractLsb' 32 20).toNat ∈ [0x80009]
      ∧ ok (exec (.quiesce 5 [9, 0x80009]) s) (fun v => raised v && v.quiesce.lost == [0x80009]) = true)
    ∧ (i.partid.getLsbD 63 = true ∧ ok (exec (.quiesce 5 [9, 9]) i) (fun v => raised v && v.quiesce.lost == [9]) = true) := by
  refine ⟨⟨by simp, by decide +kernel⟩, ⟨⟨(0, tm), by simp [st, tm], .inl rfl⟩, by decide +kernel⟩, by decide +kernel, by decide +kernel,
    by decide +kernel⟩

/-- Quiesces, STOPPED and RESUME: a load that the fabric has not answered; a team that does not stand at its stopping point; all quiet,
without a tenant and with one, whose notice names the lost device; the resume of both. -/
theorem witness_Quiesces_stop :
    let q : Quiesce := { epoch := 5, active := true, lost := [9], failed := 2 }
    let s : State := { st tm with unit := 5, quiesce := q }
    let b : State := s.setTeam { tm with pend := [{ id := 1, kind := .load, fabric := [(0, 0x500)] }] }
    let a : State := s.setTeam { tm with pend := [{ id := 1, kind := .load, scalar := some (6, none) }] }
    let t : State := { tenantState [] with unit := 5, quiesce := q }
    let r (s : State) : State := { s with quiesce := { q with stopped := true }, fabricHold := true }
    (s.quiesce.active = true ∧ s.quiesce.epoch = s.unit ∧ s.quiesce.stopped = false)
    ∧ (b.allPerformed = false ∧ isS (exec .stopped b) (b.sendLines fun _ => true) = true)
    ∧ (a.allPerformed = true ∧ a.team.atStop = false ∧ isS (exec .stopped a) a = true)
    ∧ (s.allPerformed = true ∧ (∀ t ∈ s.teams, t.2.atStop = true) ∧ s.tenants = [] ∧ isS (exec .stopped s) (r s) = true)
    ∧ (1 ∈ t.tenants.map Prod.fst ∧ t.runtimePage 1 = some 0x50000 ∧ 0x50000 + 2 ^ 16 ≤ 2 ^ 50 ∧ (∀ u ∈ t.tenants, u.1 = 1)
      ∧ t.allPerformed = true ∧ (∀ u ∈ t.teams, u.2.atStop = true)
      ∧ ok (exec .stopped t) (fun v => v.readNat 0x50C00 8 == 2 ^ 32 + 5 && v.readNat 0x50C10 8 == 2 * 2 ^ 32 && v.readNat 0x50C20 4 == 9
          && v.readNat 0x50C08 8 == 0 && v.fabricHold) = true)
    ∧ ((r s).quiesce.stopped = true ∧ isS (exec .fabricResume (r s)) { s with quiesce := { epoch := 5, lost := [9], failed := 2 } } = true)
    ∧ ok (exec .fabricResume (r t)) (fun v => v.readNat 0x50C08 8 == 1 && !v.fabricHold) = true := by decide +kernel

/-- TimeAndClock: an exchange 1 ms and one tick less ahead; above the power limit and within it. -/
theorem witness_TimeAndClock :
    let s : State := { st tm with now := 1000, ticks := 50000000 }
    let h : State := { s with telemetry := { power := 2900000 } }
    let l : State := { s with telemetry := { mhz := 3750 } }
    (s.now + 4000000 ≤ (4001000 : Word).toNat ∧ ok (exec (.ptmExchange 4001000) s) (fun v => v.now == 4001000) = true)
    ∧ ((4000999 : Word).toNat < s.now + 4000000 ∧ ok (exec (.ptmExchange 4000999) s) (fun v => v.now == 1000 && v.slew == 3999999) = true)
    ∧ (h.overLimit = true ∧ 1250 ≤ h.telemetry.mhz ∧ ok (exec .clockReduction h) (fun v => v.telemetry.mhz == 3750 && v.telemetry.events == 1) = true)
    ∧ (l.overLimit = false ∧ l.telemetry.mhz ≤ 3750 ∧ l.lastOver + 40000000 ≤ l.ticks
      ∧ ok (exec .clockRaise l) (fun v => v.telemetry.mhz == 4000) = true) := by
  decide +kernel

/-- TimeAndClock, measurements: 115 °C in the last place and just below it, with a sample that is 100 µs old and one that is a tick
younger. -/
theorem witness_Measurements :
    let s : State := { st tm with now := 1000, ticks := 50000000, sampled := 49600000 }
    let y : State := { s with sampled := 49600001 }
    let hot (n : BitVec 16) : Telemetry := { power := 7, temps := [0, 0, 0, 0, n], vcore := 5 }
    (((hot 1840).temps.take 5).any (fun t => decide (115 * 16 ≤ t.toNat)) = true
      ∧ ok (exec (.telemetryRefresh (hot 1840)) s) (fun v => v.teams.isEmpty && v.now == 0) = true)
    ∧ ((hot 1839).temps.take 5).all (fun t => decide (t.toNat < 115 * 16)) = true
    ∧ ok (exec (.telemetryRefresh (hot 1839)) s) (fun v => v.telemetry.power == 7 && v.shown.power == 7 && v.teams.length == 1) = true
    ∧ ok (exec (.telemetryRefresh (hot 1839)) y) (fun v => v.telemetry.power == 7 && v.shown.power == 0) = true := by decide +kernel

/-- RegisterWrites: no recovery mode; PERIOD and PLIMIT at small and large values, PLIMIT as the last sample shows it; offsets of BAR0 and
BAR2 at the ends of their ranges; a queue that another function has; the CLEAR bit. -/
theorem witness_RegisterWrites :
    let s : State := { st tm with errors := [(3, { counts := [(0, 4)] })] }
    let reads (w r : Fn) (a : RegAddr) (x : Word) : Option Word :=
      match exec (.registerWrite w a x) s with | .next v => some (v.readRegister r a) | _ => none
    s.boot.recovery = false
    ∧ ok (exec (.registerWrite .mgmt (.telemetry 0) 0x1FFF) s) (fun v => v.telemetry.plimit == 0xFFF && v.shown.plimit == 2800
        && v.readRegister .pf (.telemetry 0) == 2800) = true
    ∧ bar0Reg 0xFFFFF = some (.queue 8191 127) ∧ bar0Reg 0x100000 = none ∧ bar2Reg .pf 0x31FFF = some (.time 63 63)
    ∧ bar2Reg (.vf 5) 0x31040 = none ∧ bar2Reg (.vf 5) 0x3003F = some (.errors 5 63) ∧ bar2Reg .pf 0x2FFFF = some (.debug 47 0xFFF)
    ∧ bar2Reg .pf 0x3207F = some (.telemetry 127) ∧ bar2Reg (.vf 5) 0x32000 = none
    ∧ reads .pf .pf (.queue 0 0x10) 5 = some 5
    ∧ reads .pf .pf (.queue 8191 0x30) (-1#64) = some 0xFFFFFFFFFFFFFFC0#64
    ∧ (s.queueAt 5).vf.toNat ≠ (3 : BitVec 6).toNat ∧ isS (exec (.registerWrite (.vf 3) (.queue 5 0x18) 9) s) s = true
    ∧ s.readRegister (.vf 3) (.errors 3 0) = 4 ∧ reads (.vf 3) (.vf 3) (.errors 3 0x38) 1 = some 0
    ∧ ok (exec (.registerWrite (.vf 3) (.errors 3 0x38) 1) s) (fun v => v.readRegister (.vf 3) (.errors 3 0) == 0) = true := by decide +kernel

/-! ### Encoding and steps -/

/-- RoundTrip: well-formed instructions of 32 and of 96 bits, and a word that decodes. -/
theorem witness_RoundTrip :
    ((Instr.imuli 3 2 (-1)).wf = true ∧ (Instr.imuli 3 2 (-1)).nbits = 32 ∧ decodeScalar (encode (.imuli 3 2 (-1))) = .imuli 3 2 (-1))
    ∧ ((Instr.laneIadd (lw 0xB 5 4 3 0 0 0)).wf = true ∧ (Instr.laneIadd (lw 0xB 5 4 3 0 0 0)).nbits = 96
      ∧ decodeLane (encode (.laneIadd (lw 0xB 5 4 3 0 0 0))) = .ok (.laneIadd (lw 0xB 5 4 3 0 0 0))) := by decide +kernel

/-- Reset, with `iaddi s5, s0, 7` and then with a lane word placed: the step runs it. -/
theorem test_withFetchWord :
    ok (step (State.reset.withFetchWord 32 (encode (.iaddi 5 0 7)))) (fun v => v.team.reg 5 == 7 && v.team.pc == 0x10004 && v.cycle == 1) = true
    ∧ ok (step (State.reset.withFetchWord 96 (encode (.laneMov (lw 0xB 5 0 0 0 32 9))))) (fun v => (v.team.pend[0]?).any fun p =>
        p.laneReg 5 31 == some 9) = true := by decide +kernel

/-- A machine whose next act is the scalar stream of this team, with `iaddi s5, s0, 7` at 0x10000; and as it stands at that act. -/
def streamState (t : Team) : State := { State.poke (st t) 0x10000 4 (encode (.iaddi 5 0 7)) with script := [.scalar 0] }
def readyState (t : Team) : State := { streamState t with script := [] }

/-- Teams of the next test: one whose queued atomic holds its own word, one in a `tlbi` past its instant, one part-way in an `lrun`. -/
def heldTeam : Team :=
  { tm with sdq := [{ id := 1, what := .atomic { mode := { op := .add, ty := 0xB }, key := 0x10000, size := 4, val := 5 }, born := 0 }] }
def goingTeam : Team := { ten tm with going := some (BitVec.ofNat 32 (encode (.tlbi 0))) }
def partTeam : Team := { tm with lidx := some 1, lhdr := some { hdr := 0x10100, len := 3, mf := false } }

/-- StepRunsDecoded, scalar: a team whose word is fetched, whole, and well placed, and those three. -/
theorem witness_ScalarSteps :
    ((readyState tm).scalarReady ∧ (readyState heldTeam).scalarReady ∧ (readyState goingTeam).scalarReady ∧ (readyState partTeam).scalarReady)
    ∧ ((readyState tm).fetchAt tm 0x10000 4 = .word (encode (.iaddi 5 0 7)) ∧ decodeScalar (encode (.iaddi 5 0 7)) = .iaddi 5 0 7
      ∧ (readyState tm).badTarget tm (some (.iaddi 5 0 7)) = false ∧ tm.going = none ∧ tm.lidx = none)
    ∧ (readyState heldTeam).fetchAt heldTeam 0x10000 4 = .waits (keysFrom 0x10000 4)
    ∧ (goingTeam.going = some (BitVec.ofNat 32 (encode (.tlbi 0))) ∧ goingTeam.lidx = none)
    ∧ (partTeam.lidx = some 1 ∧ partTeam.lhdr = some { hdr := 0x10100, len := 3, mf := false }) := by
  unfold State.scalarReady; decide +kernel

/-- The first two of them step: one runs its instruction, and the other waits. -/
theorem test_scalar_steps :
    ok (step (streamState tm)) (fun v => v.team.reg 5 == 7 && v.cycle == 1 && v.script == []) = true
    ∧ ok (step (streamState heldTeam)) (fun v => v.team.pc == 0x10000 && v.cycle == 1) = true := by decide +kernel

/-- StepRunsDecoded, completion: the pc moved, without a trap. -/
theorem witness_ScalarCompletion :
    let v := st { tm with pc := 0x10004#64 }
    Team.trapped tm v.team = false ∧ Team.completed tm v.team = true ∧ v.team.ended = tm.ended ∧ tm.pstat.stp = false
    ∧ v.team.stepOnce = false ∧ v.team.haltReq = false ∧ (v.afterScalar tm).team.ended = 1 := by decide +kernel

/-- StepRunsDecoded, lane: a team whose lane queue holds an `iadd`. -/
theorem witness_LaneSteps :
    let i : Instr := .laneIadd (lw 0xB 5 4 3 0 0 0)
    let s : State := { st { tm with laneq := [entry i 0], v := [(vKey 4 0, 5), (vKey 3 0, 6)] } with script := [.lane 0] }
    let u : State := { s with script := [] }
    let n : State := { s with pipes := [(0, { free := 5 }), (1, { free := 5 })] }
    s.script = .lane 0 :: [] ∧ u.laneRuns ∧ u.team.laneq = entry i 0 :: [] ∧ u.selectedBy u.team (entry i 0).word.toNat = some 0
    ∧ ({ n with script := [] } : State).selectedBy n.team (entry i 0).word.toNat = none
    ∧ ok (step n) (fun v => v.team.laneq.length == 1 && v.cycle == 1) = true
    ∧ decodeLane (entry i 0).word.toNat = .ok i
    ∧ ok (step s) (fun v => v.team.laneq.isEmpty && (v.team.pend[0]?).any fun p => p.laneReg 5 0 == some 11) = true := by
  unfold State.laneRuns; decide +kernel

/-- PipeSelection: pipe X took slot 0 last, so that slot 3 comes before slot 0; it is busy at cycle 0 until cycle 4; a word of class 8 issues
on Y alone, and a pair word when X selects its team. -/
theorem witness_PipeSelection :
    let i : Instr := .laneIadd (lw 0xB 5 4 3 0 0 0)
    let t : Team := { tm with laneq := [entry i 0] }
    let s : State := { st t with teams := [(0, t), (1, { t with slot := 3 })], pipes := [(0, { last := 0 })] }
    let b : State := { s with pipes := [(0, { last := 0, free := 4 })] }
    let l := laneState (.laneLd (lm 5 3 0xF0 0xE4 0x11 0 0)) 0 []
    let p := laneState (.pairWord ⟨0, 5, 0, 3, 1, 0xE4, 4, 3, 0⟩ ⟨0x12, 5, 0, 0, 2, 3, 3, 5, 0⟩) 0 []
    let w (s : State) : Nat := (s.team.laneq.headD {}).word.toNat
    ((s.pipe 0 0).free ≤ s.cycle ∧ s.laneReady 0 t = true ∧ s.picks 0 0 = some 3) ∧ (b.cycle < (b.pipe 0 0).free ∧ b.picks 0 0 = none)
    ∧ l.selectedBy l.team (w l) = some 1 ∧ p.selectedBy p.team (w p) = some 0 := by decide +kernel

/-- StepRunsDecoded, events: a deadline of team 0; a write of BAR0 at the PERIOD of queue 1. -/
theorem witness_EventSteps :
    let s : State := { st { tm with deadline := some 0 } with script := [.event .yieldDeadline 0 0] }
    let b : State := { st tm with script := [.bar .pf false 0x90 9] }
    s.script = .event .yieldDeadline 0 0 :: [] ∧ ok (step s) (fun v => v.team.saveReq == some 2 && v.cycle == 1) = true
    ∧ (barReg .pf false 0x90 = some (.queue 1 0x10) ∧ ok (step b) (fun v => (v.queueAt 1).period == 9 && v.cycle == 1) = true) := by
  decide +kernel

/-- StepKeepsCanonical: the reset state and one with a team, memory and a translation satisfy it, and they step. -/
theorem witness_StepKeepsCanonical :
    let s : State := { State.poke (st tm) 0x10000 4 (encode (.iaddi 5 0 7)) with script := [.scalar 0] }
    Canonical State.reset ∧ ok (step State.reset) (fun _ => true) = true ∧ Canonical s ∧ ok (step s) (fun _ => true) = true := by
  refine ⟨⟨by decide, by decide, by decide, by decide⟩, by decide +kernel, ⟨by decide +kernel, by decide +kernel, by decide +kernel, by decide +kernel⟩, by decide +kernel⟩

/-- InstructionsStayInside: a store of a team at user level, which leaves memory as it is. -/
theorem witness_InstructionsStayInside :
    let s := st (rg [(2, 0x10100), (3, 9)])
    (Instr.stG 3 2 0 0 0 3).nbits ≠ 0 ∧ Instr.reachesOut (.stG 3 2 0 0 0 3) = false ∧ Instr.crewedCommand (.stG 3 2 0 0 0 3) = false ∧ s.team.pstat.pl = 0#2 ∧ s.tampers = []
    ∧ ok (exec (.stG 3 2 0 0 0 3) s) (fun v => decide (v.mem = s.mem) && v.team.sdq.length == 1 && v.team.pc == 0x10004) = true := by decide +kernel

end Sys2Proof.Tests
end

section
/-!
Every outcome of an instruction or an event keeps the canonical form: one lemma per event that does more than one operation.
-/

namespace Sys2Proof.Laws

open Sys2Proof Sys2Proof.Machine

variable {s : State}

/-- What an outcome answers is canonical. -/
def Keeps (o : Out) : Prop := ∀ s', o = .next s' → Canonical s'

theorem keeps_next (h : Canonical s) : Keeps (.next s) := by
  rintro _ ⟨⟩
  exact h

theorem keeps_guarded (i : Instr) {body : Out} (h : Canonical s) (hb : Keeps body) : Keeps (guarded i s body) := by
  unfold guarded
  split
  · exact hb
  · exact keeps_next (canonical_illegal _ h)

/-- A change of tables other than the four of the form. -/
theorem keeps_congr {t : State} (h : Canonical s) (hm : t.mem = s.mem) (ht : t.tlb = s.tlb) (hts : t.teams = s.teams)
    (hg : t.groups = s.groups) : Keeps (.next t) :=
  keeps_next (canonical_congr h hm ht hts hg)

/-! ### Instructions with branches of their own -/

theorem keeps_execLsync (h : Canonical s) : Keeps (execLsync s) := by
  refine keeps_next ?_
  split
  · exact canonical_upd _ h
  · exact h

theorem keeps_execWait (a b) (h : Canonical s) : Keeps (execWait a b s) := by
  refine keeps_next ?_
  split
  · exact canonical_trap _ _ h
  split
  · exact h
  · exact canonical_upd _ h

theorem keeps_execFmtset (a) (h : Canonical s) : Keeps (execFmtset a s) := by
  refine keeps_next ?_
  dsimp only
  split
  · exact canonical_upd _ h
  · exact canonical_illegal _ h

theorem keeps_execMtest (a) (h : Canonical s) : Keeps (execMtest a s) := by
  refine keeps_guarded _ h (keeps_next ?_)
  split
  · exact h
  · exact canonical_upd _ h

theorem keeps_execMset (a b c) (h : Canonical s) : Keeps (execMset a b c s) := by
  refine keeps_guarded _ h (keeps_next ?_)
  split
  · exact h
  · exact canonical_upd _ h

theorem keeps_execQset (a b c) (h : Canonical s) : Keeps (execQset a b c s) := by
  refine keeps_guarded _ h (keeps_next ?_)
  split
  · exact h
  split
  · exact canonical_illegal _ h
  · exact canonical_upd _ h

theorem keeps_execQget (a b c) (h : Canonical s) : Keeps (execQget a b c s) := by
  refine keeps_guarded _ h (keeps_next ?_)
  split
  · exact h
  · exact canonical_upd _ h

theorem keeps_execStexp (a b) (h : Canonical s) : Keeps (execStexp a b s) := by
  refine keeps_next ?_
  dsimp only
  split
  · exact canonical_illegal _ h
  · exact canonical_stileWrite _ _ _ _ h

theorem keeps_execYield (a b c) (h : Canonical s) : Keeps (execYield a b c s) := by
  refine keeps_guarded _ h (keeps_next ?_)
  dsimp only
  split
  · exact canonical_trap _ _ h
  split
  · exact h
  split
  · exact canonical_trap _ _ h
  split
  · exact canonical_raise _ h
  · exact canonical_yieldTest _ _ _ h

theorem keeps_execMwait (a b c) (h : Canonical s) : Keeps (execMwait a b c s) := by
  refine keeps_next ?_
  dsimp only
  split
  · exact canonical_trap _ _ h
  split
  · exact canonical_trap _ _ h
  split
  · exact h
  split
  · exact canonical_poisonStop _ _ h
  split
  · exact canonical_setTeam _ h
  · exact canonical_setTeam _ h

theorem keeps_execFence (a b) (h : Canonical s) : Keeps (execFence a b s) := by
  refine keeps_guarded _ h (keeps_next ?_)
  split
  · next hw => exact canonical_fenceWait _ _ h _ hw
  · exact canonical_upd _ h

theorem keeps_execSub (a b c) (h : Canonical s) : Keeps (execSub a b c s) := by
  refine keeps_next ?_
  dsimp only
  split
  · exact canonical_illegal _ h
  split
  · exact canonical_trap _ _ h
  split
  · exact canonical_trap _ _ h
  split
  · exact canonical_trap _ _ h
  split
  · exact canonical_trap _ _ h
  split
  · split
    · exact canonical_setTeam _ h
    split
    · exact canonical_setTeam _ h
    split
    · exact canonical_setTeam _ h
    · exact canonical_setTeam _ (canonical_putPost _ _ h)
  · exact canonical_setTeam _ h

theorem keeps_execLaunch (a b) (h : Canonical s) : Keeps (execLaunch a b s) := by
  refine keeps_next ?_
  dsimp only
  split
  · exact canonical_trap _ _ h
  split
  · exact canonical_trapVec _ _ _ h
  split
  · exact canonical_trapVec _ _ _ h
  split
  · exact canonical_sendTouched _ _ h
  split
  · next hw => exact canonical_fenceWait _ _ h _ hw
  split
  · exact canonical_poisonStop _ _ h
  split
  · exact canonical_trap _ _ h
  · exact canonical_upd _ (canonical_submit _ _ _ _ h)

theorem keeps_execCget (a b) (h : Canonical s) : Keeps (execCget a b s) := by
  refine keeps_guarded _ h (keeps_next ?_)
  split
  · exact canonical_priv _ h
  · exact canonical_upd _ h

theorem keeps_execCset (a b) (h : Canonical s) : Keeps (execCset a b s) := by
  refine keeps_guarded _ h (keeps_next ?_)
  dsimp only
  split
  · exact canonical_priv _ h
  split
  · split
    · exact canonical_illegal _ h
    · exact canonical_trap _ _ h
  · exact canonical_setTeam _ h

theorem keeps_execTlbw (a b c) (h : Canonical s) : Keeps (execTlbw a b c s) := by
  refine keeps_next (canonical_tlbOp _ _ h fun t => ?_)
  dsimp only
  split
  · exact canonical_illegal _ h
  split
  · exact canonical_trap _ _ h
  split
  · exact canonical_trap _ _ h
  · exact canonical_replaceSlots _ _ h

theorem keeps_execTlbi (a) (h : Canonical s) : Keeps (execTlbi a s) := by
  refine keeps_next (canonical_tlbOp _ _ h fun t => ?_)
  dsimp only
  split
  · split
    · exact canonical_illegal _ h
    · exact canonical_replaceSlots _ _ h
  split
  · exact canonical_illegal _ h
  split
  · exact canonical_trap _ _ h
  · exact canonical_replaceSlots _ _ h

theorem keeps_execHalt (h : Canonical s) : Keeps (execHalt s) := by
  refine keeps_next ?_
  dsimp only
  split
  · exact canonical_trap _ _ h
  split
  · exact h
  split
  · exact canonical_sendLines _ h
  · exact canonical_exitTeam _ _ _ _ h

theorem keeps_execEret (h : Canonical s) : Keeps (execEret s) := by
  refine keeps_next ?_
  dsimp only
  split
  · exact canonical_priv _ h
  split
  · exact canonical_illegal _ h
  split
  · exact canonical_trap _ _ h
  split
  · exact h
  split
  · exact canonical_trapVec _ _ _ h
  · exact canonical_sendTouched _ _ h
  · exact canonical_poisonStop _ _ h
  · exact canonical_upd _ (canonical_traceTeam _ _ _ _ _ h)

theorem keeps_execBrk (h : Canonical s) : Keeps (execBrk s) := by
  refine keeps_next ?_
  dsimp only
  split
  · split
    · exact canonical_setTeam _ h
    · exact canonical_setTeam _ h
  · exact canonical_trap _ _ h

theorem keeps_execTrap (a b) (h : Canonical s) : Keeps (execTrap a b s) := by
  refine keeps_next ?_
  dsimp only
  split
  · exact canonical_raise _ h
  · exact canonical_illegal _ h

theorem keeps_execExt (a) (h : Canonical s) : Keeps (execExt a s) := by
  refine keeps_next ?_
  dsimp only
  split
  · exact canonical_trapVec _ _ _ h
  · exact canonical_sendTouched _ _ h
  · exact canonical_trap _ _ h
  · exact canonical_poisonStop _ _ h
  split
  · exact canonical_trap _ _ h
  split
  · exact canonical_prefixed _ _ h
  · exact canonical_illegal _ h

theorem keeps_execLaneLd (f) (h : Canonical s) : Keeps (execLaneLd f s) := by
  refine keeps_next ?_
  split
  · next hb => exact canonical_beginLane h hb
  dsimp only
  split
  · next ha => exact canonical_accTrap _ _ h _ ha
  split
  · exact canonical_sendTouched _ _ h
  · exact canonical_checkTags _ (canonical_endLane _ _ _ h)

theorem keeps_execLaneSt (f) (h : Canonical s) : Keeps (execLaneSt f s) := by
  refine keeps_next ?_
  split
  · next hb => exact canonical_beginLane h hb
  dsimp only
  split
  · next ha => exact canonical_accTrap _ _ h _ ha
  split
  · exact h
  · exact canonical_endLane _ _ _ h

theorem keeps_execLanePref (f) (h : Canonical s) : Keeps (execLanePref f s) := by
  refine keeps_next ?_
  split
  · next hb => exact canonical_beginLane h hb
  dsimp only
  split
  · next ha => exact canonical_accTrap _ _ h _ ha
  split
  · exact h
  · exact canonical_endLane _ _ _ h

end Sys2Proof.Laws
end

section
/-!
The hardware events keep the canonical form.
-/

namespace Sys2Proof.Laws

open Sys2Proof Sys2Proof.Machine

variable {s : State}

/-- A choice between canonical states is canonical. -/
theorem ite_canonical {p : Prop} [Decidable p] {a b : State} (ha : Canonical a) (hb : Canonical b) :
    Canonical (if p then a else b) := by
  split
  · exact ha
  · exact hb

/-- A choice between a canonical state and what an operation makes of it is canonical. -/
theorem canonical_unless {p : Prop} [Decidable p] {a b : State} (hf : Canonical a → Canonical b) (h : Canonical a) :
    Canonical (if p then a else b) := ite_canonical h (hf h)

/-- One translation entry is written. -/
theorem canonical_tlbSet (k e) (h : Canonical s) : Canonical { s with tlb := Store.set {} s.tlb k e } :=
  ⟨h.mem, Store.wf_set _ _ _ _ h.tlb, h.teams, h.groups⟩

/-- That a round of the dispatcher is due stands in no table. -/
theorem canonical_roundDue (b) (h : Canonical s) : Canonical { s with roundDue := b } := canonical_congr h rfl rfl rfl rfl

/-- The work of the abort engine stands in no table of the form. -/
theorem canonical_seizing (l) (h : Canonical s) : Canonical { s with seizing := l } := canonical_congr h rfl rfl rfl rfl

/-- The versions and exports of frames stand in no table of the form. -/
theorem canonical_exported (v e) (h : Canonical s) : Canonical { s with versions := v, exports := e } :=
  canonical_congr h rfl rfl rfl rfl

/-- Poison and the module flash stand in no table of the form. -/
theorem canonical_poisonFlash (p f) (h : Canonical s) : Canonical { s with poison := p, flash := f } :=
  canonical_congr h rfl rfl rfl rfl

/-- The self-tests that are owed stand in no table of the form. -/
theorem canonical_tests (l) (h : Canonical s) : Canonical { s with tests := l } := canonical_congr h rfl rfl rfl rfl

/-- The quarters that have stopped issuing stand in no table of the form. -/
theorem canonical_held (l) (h : Canonical s) : Canonical { s with held := l } := canonical_congr h rfl rfl rfl rfl

/-! ### Deliveries, departures and performed writes -/

theorem canonical_failSent (a b) (h : Canonical s) : Canonical (State.failSent s a b) := by
  unfold State.failSent
  refine canonical_fresh (canonical_loseWrite _ _ ?_)
  split
  · split
    · exact canonical_perform _ _ h
    · exact ite_canonical h (canonical_performElem _ _ h)
    · exact ite_canonical h (canonical_performElem _ _ h)
    · exact h
  · exact h

theorem keeps_execFixedLatencyWriteBack (h : Canonical s) : Keeps (execFixedLatencyWriteBack s) := by
  have hu := canonical_atUnit h
  refine keeps_next ?_
  dsimp only
  split
  · exact hu
  split
  · exact canonical_setTeam _ (canonical_noteOlds _ hu)
  · exact hu

theorem keeps_execStoreDelayDeparture (h : Canonical s) : Keeps (execStoreDelayDeparture s) := by
  have hu := canonical_atUnit h
  refine keeps_next ?_
  dsimp only
  split
  · exact hu
  split
  · exact hu
  split
  · exact canonical_depart _ _ hu
  split
  · exact hu
  split
  · next hw => exact canonical_releaseWait _ hu _ hw
  · exact canonical_depart _ _ hu

theorem keeps_execWritePerformed (h : Canonical s) : Keeps (execWritePerformed s) := by
  have hu := canonical_atUnit h
  refine keeps_next ?_
  dsimp only
  split
  · exact hu
  split
  · exact hu
  split
  · exact canonical_failSent _ _ hu
  split
  · exact hu
  split
  · exact canonical_sendTouched _ _ hu
  · exact canonical_performWrite _ hu

theorem keeps_execReductionLinePerformed (h : Canonical s) : Keeps (execReductionLinePerformed s) := by
  refine keeps_next ?_
  split
  · exact h
  dsimp only
  split
  · exact h
  split
  · exact canonical_foldl _ _ (fun _ _ h => canonical_modTeam _ _ h) _
      (canonical_countDrain _ _ (canonical_fresh (canonical_putRedLines _ _ h)))
  · exact canonical_foldl _ _ (fun _ _ h => canonical_performElem _ _ h) _ (canonical_fresh (canonical_putRedLines _ _ h))

theorem keeps_execFabricRequestGiveUp (h : Canonical s) : Keeps (execFabricRequestGiveUp s) := by
  have hu := canonical_atUnit h
  refine keeps_next ?_
  dsimp only
  split
  · split
    · exact hu
    · exact canonical_failSent _ _ hu
  split
  · exact hu
  split
  · exact hu
  split
  · exact hu
  split
  · exact canonical_trap _ _ (canonical_setTeam _ hu)
  · exact canonical_fresh (canonical_setTeam _ hu)

/-! ### Matrix commands -/

theorem keeps_execMatrixCommandStart (h : Canonical s) : Keeps (execMatrixCommandStart s) := by
  refine keeps_next ?_
  split
  · exact h
  split
  · exact h
  split
  · next hw => exact canonical_commandWaits _ h _ hw
  · exact canonical_startCmd _ _ h

theorem keeps_execMatrixStep (h : Canonical s) : Keeps (execMatrixStep s) := by
  refine keeps_next ?_
  split
  · exact h
  dsimp only
  split
  · exact h
  split
  · exact h
  · exact canonical_fresh (canonical_foldl _ _ (fun _ _ h => canonical_stepCmd _ _ _ _ h) _ h)

theorem keeps_execMatrixCommandComplete (h : Canonical s) : Keeps (execMatrixCommandComplete s) := by
  refine keeps_next ?_
  split
  · exact h
  dsimp only
  split
  · exact h
  split
  · exact canonical_writeLines _ _ _ h
  split
  · exact canonical_endCmd _ _ _ _ h
  · exact canonical_endCmd _ _ _ _ h
  · exact canonical_endCmd _ _ _ _ (canonical_putTile _ _ h)
  · exact canonical_drain _ _ h
  · exact canonical_checkTile _ _ h

theorem keeps_execCrewArrival (h : Canonical s) : Keeps (execCrewArrival s) := by
  refine keeps_next ?_
  split
  · exact h
  split
  · exact h
  split
  · exact h
  split
  · next hw => exact canonical_commandWaits _ h _ hw
  dsimp only
  split
  · exact canonical_setCmd _ _ h
  split
  · exact canonical_foldl _ _ (fun _ _ h => canonical_startCmd _ _ h) _ (canonical_setCmd _ _ h)
  · exact canonical_cancelCrew _ _ (canonical_setCmd _ _ h)

/-! ### Ferry lines and postcards -/

theorem keeps_execFerryGo (h : Canonical s) : Keeps (execFerryGo s) := by
  refine keeps_next ?_
  dsimp only
  split
  · exact h
  split
  · exact h
  · exact canonical_checkTags _ (canonical_fresh (canonical_putChannel _ _ h))

theorem keeps_execFerryLinePerformed (h : Canonical s) : Keeps (execFerryLinePerformed s) := by
  refine keeps_next ?_
  extract_lets c
  split
  · exact h
  split
  · exact h
  split
  · exact h
  extract_lets unread failed held r
  split
  refine ite_canonical h (ite_canonical h ?_)
  have h₁ {c} := canonical_fresh (canonical_putChannel s.unit c h)
  refine canonical_unless (canonical_checkTags _) ?_
  refine (fun h => ite_canonical (canonical_countBytes _ _ _ _ _ h) h) ?_
  refine canonical_unless (canonical_countEvent _ _ _ _) ?_
  exact ite_canonical (canonical_countDrain _ _ h₁) (canonical_poisonSectors _ (canonical_perform _ _ h₁))

theorem keeps_execPostcardClose (h : Canonical s) : Keeps (execPostcardClose s) := by
  refine keeps_next ?_
  dsimp only
  split
  · exact h
  split
  · exact canonical_putPost _ _ h
  · exact h

theorem keeps_execPostcardApplication (h : Canonical s) : Keeps (execPostcardApplication s) := by
  refine keeps_next ?_
  dsimp only
  split
  · exact h
  split
  · exact h
  · exact canonical_perform _ _ (canonical_putPost _ _ h)

/-! ### Escalations and saves -/

theorem keeps_execEscalation (h : Canonical s) : Keeps (execEscalation s) := by
  refine keeps_next (canonical_recordEscalation _ ?_)
  split
  · exact canonical_completeEntry (canonical_atUnit h)
  · exact canonical_atUnit h

theorem keeps_execEscalationEnd (h : Canonical s) : Keeps (execEscalationEnd s) := by
  have hu := canonical_atUnit h
  refine keeps_next ?_
  dsimp only
  split
  · exact hu
  split
  · exact canonical_exitTeam _ _ _ _ (canonical_cancelUnstarted hu)
  · exact canonical_upd _ (canonical_cancelUnstarted hu)

theorem keeps_execEscalationResume (h : Canonical s) : Keeps (execEscalationResume s) := by
  have hu := canonical_atUnit h
  refine keeps_next ?_
  dsimp only
  split
  · exact hu
  split
  · exact hu
  · exact canonical_resumeCount _ (canonical_setTeam _ hu)

theorem keeps_execEscalationSave (h : Canonical s) : Keeps (execEscalationSave s) := by
  have hu := canonical_atUnit h
  refine keeps_next ?_
  dsimp only
  split
  · exact hu
  · exact canonical_upd _ hu

theorem keeps_execYieldDeadline (h : Canonical s) : Keeps (execYieldDeadline s) := by
  have hu := canonical_atUnit h
  refine keeps_next ?_
  dsimp only
  split
  · exact hu
  split
  · exact hu
  split
  · exact canonical_setTeam _ hu
  · exact canonical_setTeam _ hu

theorem keeps_execTeamSave (h : Canonical s) : Keeps (execTeamSave s) := by
  have hu := canonical_atUnit h
  refine keeps_next ?_
  dsimp only
  split
  · exact hu
  split
  · exact hu
  split
  · split
    · exact hu
    split
    · exact canonical_exitTeam _ _ _ _ hu
    split
    · exact canonical_setTeam _ hu
    split
    · exact hu
    · exact canonical_writeRucksack _ _ hu
  split
  · exact canonical_setTeam _ hu
  split
  · exact hu
  split
  · next hc =>
    split at hc
    · exact canonical_takeCause hu _ hc
    · cases hc
  · exact canonical_stopForSave _ hu

/-! ### Queues, requests and seizures -/

theorem keeps_execQueueEnable (a b) (h : Canonical s) : Keeps (execQueueEnable a b s) := by
  refine keeps_next ?_
  dsimp only
  split
  · exact h
  split
  · exact h
  · exact canonical_roundDue _ (canonical_putQueue _ _ h)

theorem keeps_execSubmit (a b c) (h : Canonical s) : Keeps (execSubmit a b c s) := by
  refine keeps_next ?_
  split
  · exact h
  · exact canonical_submit _ _ _ _ h

theorem keeps_execLaunchPacket (a) (h : Canonical s) : Keeps (execLaunchPacket a s) := by
  refine keeps_next ?_
  split
  · exact h
  refine canonical_congr (s := Prod.fst (ite _ _ _)) ?_ rfl rfl rfl rfl
  split
  · exact canonical_submit _ _ _ _ h
  · exact h

theorem keeps_execQueuePeriodExpiry (h : Canonical s) : Keeps (execQueuePeriodExpiry s) := by
  refine keeps_next ?_
  dsimp only
  split
  · exact canonical_roundDue _ (canonical_putQueue _ _ h)
  · exact h

theorem keeps_execBudgetOverrun (h : Canonical s) : Keeps (execBudgetOverrun s) := by
  refine keeps_next ?_
  dsimp only
  split
  · have hq {q : Queue} := canonical_putQueue s.unit q h
    cases hp : State.pushEscalation _ _ with
    | none => exact hq
    | some t => exact canonical_pushEscalation _ hq t hp
  · exact h

theorem keeps_execHeadAgeExpiry (h : Canonical s) : Keeps (execHeadAgeExpiry s) := by
  refine keeps_next ?_
  dsimp only
  split
  · exact h
  split
  · exact h
  · exact canonical_roundDue _ (canonical_putQueue _ _ (canonical_ageHead _ _ _ h))

theorem keeps_execRevocationRequest (a b) (h : Canonical s) : Keeps (execRevocationRequest a b s) := by
  refine keeps_next ?_
  dsimp only
  split
  · exact h
  split
  · exact h
  have ha {t : Tenant} {bs n} (page) := canonical_arriveMailbox a page
    (canonical_perform (s := s.putTenant n t) bs true (canonical_putTenant _ _ h))
  split
  · exact canonical_deliverCause _ _ _ (ha _)
  · exact ha _

theorem keeps_execRevocationReply (h : Canonical s) : Keeps (execRevocationReply s) := by
  refine keeps_next ?_
  split
  · exact canonical_takeReply _ _ h
  · exact canonical_abortStep h

theorem keeps_execRevocationDeadline (h : Canonical s) : Keeps (execRevocationDeadline s) := by
  refine keeps_next ?_
  dsimp only
  split
  · exact canonical_abortStep h
  split
  · exact canonical_takeReply _ _ h
  · exact canonical_seizing _ (canonical_putTenant _ _ h)

theorem keeps_execResourceSeizure (a b c) (h : Canonical s) : Keeps (execResourceSeizure a b c s) := by
  refine keeps_next ?_
  split
  · exact canonical_abortStep (canonical_seizing _ h)
  · exact canonical_abortStep h

theorem keeps_execResourceGrant (a b c d) (h : Canonical s) : Keeps (execResourceGrant a b c d s) := by
  refine keeps_next ?_
  have hf {f : Flash} : Canonical { s with flash := f } := canonical_congr h rfl rfl rfl rfl
  refine ite_canonical h (ite_canonical (canonical_setOwner _ _ _ (canonical_zeroRange _ _ h)) (ite_canonical
    (canonical_setOwner _ _ _ (canonical_zeroRange _ _ hf)) (ite_canonical (canonical_setOwner _ _ _ ?_) (ite_canonical
    (canonical_setOwner _ _ _ (canonical_putTile _ _ h)) (ite_canonical (canonical_setOwner _ _ _ (canonical_putChannel _ _ h))
    (ite_canonical (canonical_setOwner _ _ _ ?_) (ite_canonical (canonical_setOwner _ _ _ h) (ite_canonical
    (ite_canonical h ?_) h))))))))
  · exact canonical_tlbSet _ _ h
  · exact canonical_congr h rfl rfl rfl rfl
  · exact canonical_congr h rfl rfl rfl rfl

theorem keeps_execAttestationReport (h : Canonical s) : Keeps (execAttestationReport s) := by
  refine keeps_next ?_
  split
  · exact h
  dsimp only
  split
  · exact h
  · exact canonical_arriveMailbox _ _ (canonical_putTenant _ _ (canonical_fresh (canonical_perform _ _ h)))

/-! ### Keys, frames and boot -/

theorem keeps_execWctlGo (h : Canonical s) : Keeps (execWctlGo s) := by
  refine keeps_next ?_
  dsimp only
  split
  · exact canonical_writeWctl _ _ h
  · exact h

theorem keeps_execWctlKeyErase (h : Canonical s) : Keeps (execWctlKeyErase s) := by
  refine keeps_next ?_
  dsimp only
  split
  · exact canonical_writeWctl _ _ h
  · exact h

theorem keeps_execRotationLine (h : Canonical s) : Keeps (execRotationLine s) := by
  refine keeps_next ?_
  dsimp only
  split
  · exact h
  split
  · exact canonical_putKeySlot _ _ h
  split
  · exact canonical_putKeySlot _ _ (canonical_tagFails _ h)
  · exact canonical_putKeySlot _ _ (canonical_tagFails _ h)

theorem keeps_execFrameScrub (h : Canonical s) : Keeps (execFrameScrub s) := by
  refine keeps_next ?_
  split
  · exact h
  · exact canonical_scrub _ h

theorem keeps_execFrameEvict (h : Canonical s) : Keeps (execFrameEvict s) := by
  refine keeps_next ?_
  dsimp only
  split
  · exact h
  · exact canonical_checkTags _ (canonical_perform _ _ (canonical_exported _ _ (canonical_scrubFirst _ h)))

theorem keeps_execFrameReturn (h : Canonical s) : Keeps (execFrameReturn s) := by
  refine keeps_next ?_
  dsimp only
  split
  · exact h
  split
  · exact canonical_integrity _ h
  · exact canonical_poisonFlash _ _ (canonical_writeRange _ _ _ h)

theorem keeps_execBoot (h : Canonical s) : Keeps (execBoot s) := by
  refine keeps_next ?_
  have hk := canonical_loadKeys 0 { world := 0 } (canonical_fresh h)
  dsimp only
  split
  · exact h
  split
  · exact canonical_congr hk rfl rfl rfl rfl
  · exact canonical_congr hk rfl rfl rfl rfl

/-! ### Debug blocks -/

theorem keeps_execClaimRequest (a b c) (h : Canonical s) : Keeps (execClaimRequest a b c s) := by
  refine keeps_next ?_
  dsimp only
  split
  · exact h
  split
  · exact h
  split
  · exact canonical_passUnit _ _ _ h
  split
  · split
    · exact canonical_putDbg _ _ h
    · exact canonical_putWord _ _ (canonical_putDbg _ _ h)
  · exact h

theorem keeps_execClaimRelease (a b c) (h : Canonical s) : Keeps (execClaimRelease a b c s) := by
  refine keeps_next ?_
  dsimp only
  split
  · exact h
  split
  · exact canonical_passUnit _ _ _ h
  split
  · exact canonical_passUnit _ _ _ h
  · exact h

theorem keeps_execClaimDeadline (a b) (h : Canonical s) : Keeps (execClaimDeadline a b s) := by
  refine keeps_next ?_
  dsimp only
  split
  · exact h
  · refine canonical_passUnit _ _ _ ?_
    split
    · exact canonical_saveCounters _ _ h
    · exact h

theorem keeps_execHaltctlHalt (a b c d) (h : Canonical s) : Keeps (execHaltctlHalt a b c d s) :=
  keeps_next (canonical_haltctl _ _ _ _ _ h fun _ _ h => canonical_modTeam _ _ h)

theorem keeps_execHaltctlResume (a b c d) (h : Canonical s) : Keeps (execHaltctlResume a b c d s) :=
  keeps_next (canonical_haltctl _ _ _ _ _ h fun _ _ h => canonical_endHalt _ _ h)

theorem keeps_execHaltctlStep (a b c d) (h : Canonical s) : Keeps (execHaltctlStep a b c d s) :=
  keeps_next (canonical_haltctl _ _ _ _ _ h fun _ _ h => canonical_endHalt _ _ h)

theorem keeps_execHaltctlSave (a b c d) (h : Canonical s) : Keeps (execHaltctlSave a b c d s) :=
  keeps_next (canonical_haltctl _ _ _ _ _ h fun _ _ h => canonical_modTeam _ _ h)

theorem keeps_execTraceEnable (a b) (h : Canonical s) : Keeps (execTraceEnable a b s) := by
  refine keeps_next ?_
  dsimp only
  split
  · exact h
  · exact canonical_putDbg _ _ h

theorem keeps_execRollCallEnable (a b c) (h : Canonical s) : Keeps (execRollCallEnable a b c s) := by
  refine keeps_next ?_
  dsimp only
  split
  · exact h
  · exact canonical_putDbg _ _ h

theorem keeps_execRollCallSample (h : Canonical s) : Keeps (execRollCallSample s) := by
  refine keeps_next ?_
  dsimp only
  split
  · exact h
  split
  · exact canonical_putDbg _ _ h
  split
  · exact h
  split
  · exact canonical_putDbg _ _ h
  split
  · exact canonical_perform _ _ (canonical_putDbg _ _ h)
  · exact canonical_countEvent _ _ _ _ (canonical_putDbg _ _ h)

theorem keeps_execCounterSave (a b) (h : Canonical s) : Keeps (execCounterSave a b s) := by
  refine keeps_next ?_
  split
  · exact canonical_saveCounters _ _ h
  · exact h

theorem keeps_execCounterLoad (a b) (h : Canonical s) : Keeps (execCounterLoad a b s) := by
  refine keeps_next ?_
  dsimp only
  split
  · exact h
  · exact canonical_perform _ _ (canonical_putDbg _ _ h)

/-! ### Reliability, fabric, time and power -/

theorem keeps_execStrike (a) (h : Canonical s) : Keeps (execStrike a s) :=
  keeps_next (canonical_foldl _ _ (fun _ _ h => canonical_rollback _ h) _ h)

theorem keeps_execSelfTest (a b c) (h : Canonical s) : Keeps (execSelfTest a b c s) := by
  refine keeps_next ?_
  extract_lets k u v w
  have hv : Canonical v := canonical_countLife _ _ _ _ (canonical_tests _ h)
  have hw : Canonical w := by
    unfold w
    split
    · exact canonical_held _ hv
    · exact hv
  exact ite_canonical (canonical_retireUnit _ _ hw) hw

theorem keeps_execLifetimeFlush (h : Canonical s) : Keeps (execLifetimeFlush s) := by
  refine keeps_next ?_
  split
  · exact canonical_flush h
  · exact h

theorem keeps_execFlitCrcFailure (h : Canonical s) : Keeps (execFlitCrcFailure s) := by
  have hn := canonical_noteLink s.unit h
  refine keeps_next ?_
  generalize s.noteLink s.unit = n at hn
  dsimp only
  split
  · exact h
  split
  · split
    · exact canonical_putLink _ _ hn
    · exact canonical_putLink _ _ hn
  · split
    · exact canonical_putLink _ _ hn
    · exact canonical_putLink _ _ hn

theorem keeps_execLinkGoesDown (h : Canonical s) : Keeps (execLinkGoesDown s) := by
  refine keeps_next ?_
  split
  · exact h
  · exact canonical_putLink _ _ (canonical_noteLink _ h)

theorem keeps_execPartitionJoin (a) (h : Canonical s) : Keeps (execPartitionJoin a s) := by
  refine keeps_next ?_
  dsimp only
  split
  · exact h
  split
  · exact h
  · exact canonical_congr h rfl rfl rfl rfl

theorem keeps_execQuiesce (a b) (h : Canonical s) : Keeps (execQuiesce a b s) := by
  have hm {l} {q : Quiesce} : Canonical { s.markDead l with quiesce := q } :=
    canonical_congr (canonical_markDead l h) rfl rfl rfl rfl
  refine keeps_next ?_
  dsimp only
  split
  · exact h
  split
  · split
    · exact h
    split
    · exact canonical_writeNotices hm
    · exact hm
  split
  · exact h
  · exact canonical_sendLines _ (canonical_foldl _ _ (fun _ _ h => canonical_deliverCause _ _ _ h) _ hm)

theorem keeps_execStopped (h : Canonical s) : Keeps (execStopped s) := by
  refine keeps_next ?_
  dsimp only
  split
  · exact h
  split
  · exact canonical_sendLines _ h
  split
  · exact h
  · exact canonical_writeNotices (canonical_congr h rfl rfl rfl rfl)

theorem keeps_execFabricResume (h : Canonical s) : Keeps (execFabricResume s) := by
  refine keeps_next ?_
  dsimp only
  split
  · exact h
  refine canonical_foldl _ _ (fun s t h => ?_) _ (canonical_congr h rfl rfl rfl rfl)
  split
  · exact h
  · exact canonical_putWord _ _ h

theorem keeps_execPtmExchange (a) (h : Canonical s) : Keeps (execPtmExchange a s) := by
  refine keeps_next ?_
  dsimp only
  split
  · exact canonical_congr h rfl rfl rfl rfl
  · exact canonical_congr h rfl rfl rfl rfl

theorem canonical_noteOver (h : Canonical s) : Canonical s.noteOver := by
  unfold State.noteOver
  split
  · exact canonical_congr h rfl rfl rfl rfl
  · exact h

theorem canonical_refresh (h : Canonical s) : Canonical s.refresh := by
  unfold State.refresh
  split
  · exact canonical_congr h rfl rfl rfl rfl
  · exact h

theorem keeps_execTelemetryRefresh (a) (h : Canonical s) : Keeps (execTelemetryRefresh a s) := by
  have ht {t : TelemetryRegs} : Canonical { s.noteOver with telemetry := t } :=
    canonical_congr (canonical_noteOver h) rfl rfl rfl rfl
  refine keeps_next ?_
  dsimp only
  split
  · exact canonical_resets ht
  · exact canonical_noteOver (canonical_refresh ht)

theorem keeps_execClockReduction (h : Canonical s) : Keeps (execClockReduction s) := by
  refine keeps_next ?_
  split
  · exact canonical_congr h rfl rfl rfl rfl
  · exact h

theorem keeps_execClockRaise (h : Canonical s) : Keeps (execClockRaise s) := by
  refine keeps_next ?_
  split
  · exact canonical_congr h rfl rfl rfl rfl
  · exact h

end Sys2Proof.Laws
end

section
/-!
Register writes, the dispatch of instructions, the end of a cycle, and the step keep the canonical form.
-/

namespace Sys2Proof.Laws

open Sys2Proof Sys2Proof.Machine

variable {s : State}

/-! ### Register writes -/

theorem canonical_writeQbind (a b) (h : Canonical s) : Canonical (s.writeQbind a b) := by
  unfold State.writeQbind
  dsimp only
  split
  · exact canonical_after _ (canonical_putQueue _ _ h) (keeps_execQueueEnable _ _ (canonical_putQueue _ _ h))
  · exact canonical_putQueue _ _ h

theorem canonical_writeQueue (a b c d) (h : Canonical s) : Canonical (s.writeQueue a b c d) := by
  unfold State.writeQueue
  dsimp only
  split
  · exact h
  split
  · exact canonical_after _ h (keeps_execSubmit _ _ _ h)
  split
  · exact canonical_putQueue _ _ h
  split
  · exact h
  split
  · exact canonical_writeQbind _ _ h
  · have hq {q} : Canonical (s.putQueue b q) := canonical_putQueue _ _ h
    exact ite_canonical hq (ite_canonical hq (ite_canonical hq (ite_canonical hq (ite_canonical hq h))))

theorem canonical_writeClaim (a b c d e) (h : Canonical s) : Canonical (s.writeClaim a b c d e) := by
  unfold State.writeClaim
  dsimp only
  split
  · have hq := ite_canonical (p := e.getLsbD 63) (canonical_after _ h (keeps_execClaimRequest a b d h)) h
    exact ite_canonical (canonical_after _ hq (keeps_execClaimRelease a b d hq)) hq
  split
  · exact canonical_putDbg _ _ h
  · exact h

theorem canonical_writeHalt (a b) (h : Canonical s) : Canonical (s.writeHalt a b) := by
  unfold State.writeHalt
  dsimp only
  split
  · exact canonical_after _ h (keeps_execHaltctlHalt _ _ _ _ h)
  split
  · exact canonical_after _ h (keeps_execHaltctlResume _ _ _ _ h)
  split
  · exact canonical_after _ h (keeps_execHaltctlStep _ _ _ _ h)
  · exact canonical_after _ h (keeps_execHaltctlSave _ _ _ _ h)

theorem canonical_writeTrace (a b c d) (h : Canonical s) : Canonical (s.writeTrace a b c d) := by
  unfold State.writeTrace
  dsimp only
  split
  · split
    · exact h
    split
    · exact canonical_putDbg _ _ h
    split
    · exact canonical_after _ (canonical_putDbg _ _ h) (keeps_execTraceEnable _ _ (canonical_putDbg _ _ h))
    · exact canonical_putDbg _ _ h
  · have hd {d} : Canonical (s.putDbg b d) := canonical_putDbg _ _ h
    exact ite_canonical hd (ite_canonical h (ite_canonical hd (ite_canonical hd h)))

theorem canonical_writeSampler (a b c d e) (h : Canonical s) : Canonical (s.writeSampler a b c d e) := by
  unfold State.writeSampler
  dsimp only
  split
  · split
    · exact h
    split
    · exact canonical_putDbg _ _ h
    split
    · exact canonical_after _ (canonical_putDbg _ _ h) (keeps_execRollCallEnable _ _ _ (canonical_putDbg _ _ h))
    · exact canonical_putDbg _ _ h
  · have hd {d} : Canonical (s.putDbg b d) := canonical_putDbg _ _ h
    exact ite_canonical hd (ite_canonical h (ite_canonical hd (ite_canonical hd h)))

theorem canonical_writeCounter (a b c d) (h : Canonical s) : Canonical (s.writeCounter a b c d) := by
  unfold State.writeCounter
  have h₁ {d} := canonical_putDbg b d h
  refine ite_canonical (canonical_unless ?_ h) (ite_canonical h₁ (ite_canonical h (ite_canonical h₁ (ite_canonical h₁ h))))
  intro _
  exact (fun h₂ => ite_canonical (canonical_after _ h₂ (keeps_execCounterLoad _ _ h₂)) h₂)
    (ite_canonical (canonical_after _ h₁ (keeps_execCounterSave _ _ h₁)) h₁)

theorem canonical_writeDebug (a b c d) (h : Canonical s) : Canonical (s.writeDebug a b c d) := by
  unfold State.writeDebug
  exact ite_canonical h <| ite_canonical (canonical_writeClaim _ _ _ _ _ h) <|
    ite_canonical (canonical_writeClaim _ _ _ _ _ h) <| ite_canonical (canonical_writeClaim _ _ _ _ _ h) <|
    ite_canonical (canonical_writeHalt _ _ h) <| ite_canonical (ite_canonical (canonical_writeBreakpoint _ _ _ _ _ h) h) <|
    ite_canonical (ite_canonical (canonical_writeTrace _ _ _ _ h) h) <|
    ite_canonical (ite_canonical (canonical_writeSampler _ _ _ _ _ h) h) <|
    ite_canonical (ite_canonical (canonical_writeCounter _ _ _ _ h) h) h

/-- The subject of an event and the current team are in no table. -/
theorem canonical_unit (n) (h : Canonical s) : Canonical { s with unit := n } := canonical_congr h rfl rfl rfl rfl

theorem canonical_cur (n) (h : Canonical s) : Canonical { s with cur := n } := canonical_congr h rfl rfl rfl rfl

theorem canonical_unitCur (n c) (h : Canonical s) : Canonical { s with unit := n, cur := c } :=
  canonical_congr h rfl rfl rfl rfl

theorem canonical_escAction (a) (h : Canonical s) : Canonical (s.escAction a) := by
  unfold State.escAction
  dsimp only
  split
  · exact h
  · next id _ =>
    have hu : Canonical { s with unit := id } := canonical_unit id h
    refine canonical_unitCur _ _ ?_
    split
    · exact canonical_after _ h (keeps_execEscalationEnd hu)
    split
    · exact canonical_after _ h (keeps_execEscalationResume hu)
    split
    · exact canonical_after _ h (keeps_execEscalationSave hu)
    · exact h

theorem canonical_writeMgmt (a b) (h : Canonical s) : Canonical (s.writeMgmt a b) := by
  unfold State.writeMgmt
  dsimp only
  split
  · exact canonical_congr h rfl rfl rfl rfl
  split
  · exact canonical_congr h rfl rfl rfl rfl
  split
  · exact canonical_escAction _ h
  split
  · exact canonical_writeWctl _ _ h
  split
  · exact canonical_putLink _ _ h
  · exact h

theorem keeps_execRegisterWrite (a b c) (h : Canonical s) : Keeps (execRegisterWrite a b c s) := by
  refine keeps_next ?_
  split
  · exact h
  split
  · exact canonical_writeQueue _ _ _ _ h
  · exact canonical_writeMgmt _ _ h
  · exact canonical_writeDebug _ _ _ _ h
  · split
    · exact canonical_congr h rfl rfl rfl rfl
    · exact h
  · exact canonical_writeTime _ _ _ h
  · split
    · exact canonical_congr (canonical_noteOver h) rfl rfl rfl rfl
    · exact h
  · exact canonical_congr h rfl rfl rfl rfl
  · exact canonical_congr h rfl rfl rfl rfl
  · exact h

/-! ### The dispatch -/

/-- Whatever an instruction or an event answers from a canonical state is canonical. -/
theorem keeps_exec (i : Instr) (h : Canonical s) : Keeps (exec i s) := by
  cases i
  case iadd | isub | cmp | selCc | brCc | call | dbnz | fcmpF32 | lqcnt | tkrd | fmtget | srseed | nop =>
    exact keeps_next (canonical_upd _ h)
  case imul | imulh | imulhu | and | or | xor | shl | shr | sar | imin | imax | iminu | imaxu =>
    exact keeps_next (canonical_regOp _ _ _ _ h)
  case idiv | idivu | irem | iremu => exact keeps_next (canonical_divOp _ _ _ _ h)
  case sxt8 | sxt16 | sxt32 | shli | shri | sari => exact keeps_next (canonical_regOp1 _ _ _ h)
  case iaddi => exact keeps_next (canonical_addImm _ _ _ _ h)
  case imuli | andi | ori | xori => exact keeps_next (canonical_immOp _ _ _ _ _ h)
  case cmpi => exact keeps_next (canonical_cmpImm _ _ _ h)
  case jr | callr | ret => exact keeps_next (canonical_jumpTo _ _ h)
  case ldS | ldG => exact keeps_guarded _ h (keeps_next (canonical_scalarLoad _ _ _ _ _ h))
  case stS | stG => exact keeps_guarded _ h (keeps_next (canonical_scalarStore _ _ _ _ _ _ h))
  case atomAddS | atomMinS | atomMaxS | atomMinuS | atomMaxuS | atomAndS | atomOrS | atomXorS | atomExchS | atomCasS
     | atomFaddS | atomFmaxS | atomFminS | atomAddG | atomMinG | atomMaxG | atomMinuG | atomMaxuG | atomAndG | atomOrG
     | atomXorG | atomExchG | atomCasG | atomFaddG | atomFmaxG | atomFminG =>
    exact keeps_next (canonical_scalarAtomic _ _ _ _ _ _ _ h)
  case faddF32 | fsubF32 | fmulF32 | ffmaF32 => exact keeps_guarded _ h (keeps_next (canonical_fpOp _ _ _ _ _ h))
  case fminF32 | fmaxF32 => exact keeps_next (canonical_fpMinMax _ _ _ _ h)
  case cvtF32S32 | cvtS32F32 => exact keeps_guarded _ h (keeps_next (canonical_upd _ h))
  case lrun | lrunr => exact keeps_next (canonical_runBlock _ _ h)
  case lsync => exact keeps_execLsync h
  case wait => exact keeps_execWait _ _ h
  case fmtset => exact keeps_execFmtset _ h
  case mand | mor | mxor | mnot => exact keeps_guarded _ h (keeps_next (canonical_maskOp _ _ _ _ h))
  case mcount | mfirst => exact keeps_guarded _ h (keeps_next (canonical_maskRead _ _ _ h))
  case mtest => exact keeps_execMtest _ h
  case mset => exact keeps_execMset _ _ _ h
  case qset => exact keeps_execQset _ _ _ h
  case qget => exact keeps_execQget _ _ _ h
  case bar | barGang => exact keeps_next (canonical_barrier _ _ _ _ h)
  case stexp => exact keeps_execStexp _ _ h
  case starr => exact keeps_guarded _ h (keeps_next (canonical_stileWrite _ _ _ _ h))
  case sttest | stwait => exact keeps_guarded _ h (keeps_next (canonical_stileTest _ _ _ _ h))
  case yield => exact keeps_execYield _ _ _ h
  case mwait => exact keeps_execMwait _ _ _ h
  case fence => exact keeps_execFence _ _ h
  case sub => exact keeps_execSub _ _ _ h
  case unsub | subflush => exact keeps_next (canonical_postEnd _ _ _ _ h)
  case launch => exact keeps_execLaunch _ _ h
  case cget => exact keeps_execCget _ _ h
  case cset => exact keeps_execCset _ _ h
  case tlbw => exact keeps_execTlbw _ _ _ h
  case tlbi => exact keeps_execTlbi _ h
  case tlbrW0 | tlbrW1 => exact keeps_next (canonical_tlbRead _ _ _ _ h)
  case halt => exact keeps_execHalt h
  case eret => exact keeps_execEret h
  case brk => exact keeps_execBrk h
  case trap => exact keeps_execTrap _ _ h
  case mark => exact keeps_next (canonical_upd _ (canonical_traceTeam _ _ _ _ _ h))
  case ext => exact keeps_execExt _ h
  case unassignedScalarWord => exact keeps_next (canonical_illegal _ h)
  case laneIadd | laneIsub | laneImul | laneImulhi | laneImad | laneIdiv | laneIrem | laneImin | laneImax | laneIabs
     | laneIneg | laneMov | laneLfn3 | laneIshl | laneIshr | laneIsar | laneIrot | laneBfext | laneBfins | laneBfrev |
     lanePopc | laneClz | laneCtz | laneIcmp | laneFcmp | laneSel | laneVote | laneFadd | laneFsub | laneFmul |
     laneFfma | laneFmin | laneFmax | laneFabs | laneFneg | laneFclass | laneFrcp | laneFrsq | laneFsqrt | laneFexp2 |
     laneFlog2 | laneFsin | laneFcos | laneFtanh | laneCvt | laneFrnd | laneBpack | laneBunpack | laneBscale |
     laneFpres | laneFdflt | laneHist | laneShfl | laneQuad =>
    exact keeps_next (canonical_issueFixed _ _ _ h)
  case laneWred | laneTred => exact keeps_next (canonical_laneReduce _ _ _ _ h)
  case laneLd => exact keeps_execLaneLd _ h
  case laneSt => exact keeps_execLaneSt _ h
  case lanePref => exact keeps_execLanePref _ h
  case laneAtomAdd | laneAtomMin | laneAtomMax | laneAtomAnd | laneAtomOr | laneAtomXor | laneAtomExch | laneAtomCas
     | laneAtomFadd | laneAtomFmax | laneAtomFmin =>
    exact keeps_next (canonical_laneAtomic _ _ _ _ h)
  case laneRedAdd | laneRedMin | laneRedMax | laneRedAnd | laneRedOr | laneRedXor | laneRedFadd | laneRedFmax |
     laneRedFmin =>
    exact keeps_next (canonical_laneReduction _ _ _ _ h)
  case mma | mmloop | mmzero | mmdrain | mmcheck => exact keeps_next (canonical_issueMatrix _ _ _ _ h)
  case pairWord => exact keeps_next (canonical_issuePair _ _ _ _ _ h)
  case queueEnable => exact keeps_execQueueEnable _ _ h
  case submit => exact keeps_execSubmit _ _ _ h
  case launchPacket => exact keeps_execLaunchPacket _ h
  case revocationRequest => exact keeps_execRevocationRequest _ _ h
  case resourceSeizure => exact keeps_execResourceSeizure _ _ _ h
  case resourceGrant => exact keeps_execResourceGrant _ _ _ _ h
  case claimRequest => exact keeps_execClaimRequest _ _ _ h
  case claimRelease => exact keeps_execClaimRelease _ _ _ h
  case claimDeadline => exact keeps_execClaimDeadline _ _ h
  case haltctlHalt => exact keeps_execHaltctlHalt _ _ _ _ h
  case haltctlResume => exact keeps_execHaltctlResume _ _ _ _ h
  case haltctlStep => exact keeps_execHaltctlStep _ _ _ _ h
  case haltctlSave => exact keeps_execHaltctlSave _ _ _ _ h
  case traceEnable => exact keeps_execTraceEnable _ _ h
  case rollCallEnable => exact keeps_execRollCallEnable _ _ _ h
  case counterSave => exact keeps_execCounterSave _ _ h
  case counterLoad => exact keeps_execCounterLoad _ _ h
  case strike => exact keeps_execStrike _ h
  case selfTest => exact keeps_execSelfTest _ _ _ h
  case partitionJoin => exact keeps_execPartitionJoin _ h
  case quiesce => exact keeps_execQuiesce _ _ h
  case ptmExchange => exact keeps_execPtmExchange _ h
  case telemetryRefresh => exact keeps_execTelemetryRefresh _ h
  case registerWrite => exact keeps_execRegisterWrite _ _ _ h
  case fixedLatencyWriteBack => exact keeps_execFixedLatencyWriteBack h
  case loadDelivery | atomicReturn | reductionComplete | prefetchFetchEnded =>
    exact keeps_next (canonical_deliverKind _ h)
  case storeDelayDeparture => exact keeps_execStoreDelayDeparture h
  case writePerformed => exact keeps_execWritePerformed h
  case reductionLinePerformed => exact keeps_execReductionLinePerformed h
  case matrixCommandStart => exact keeps_execMatrixCommandStart h
  case matrixStep => exact keeps_execMatrixStep h
  case matrixCommandComplete => exact keeps_execMatrixCommandComplete h
  case crewArrival => exact keeps_execCrewArrival h
  case ferryGo => exact keeps_execFerryGo h
  case ferryLinePerformed => exact keeps_execFerryLinePerformed h
  case postcardClose => exact keeps_execPostcardClose h
  case postcardApplication => exact keeps_execPostcardApplication h
  case trapEntry => exact keeps_next (canonical_completeEntry (canonical_atUnit h))
  case escalation => exact keeps_execEscalation h
  case dispatcherRound => exact keeps_next (ite_canonical (canonical_round h) h)
  case headAgeExpiry => exact keeps_execHeadAgeExpiry h
  case yieldDeadline => exact keeps_execYieldDeadline h
  case teamSave => exact keeps_execTeamSave h
  case queuePeriodExpiry => exact keeps_execQueuePeriodExpiry h
  case budgetOverrun => exact keeps_execBudgetOverrun h
  case revocationReply => exact keeps_execRevocationReply h
  case revocationDeadline => exact keeps_execRevocationDeadline h
  case escalationEnd => exact keeps_execEscalationEnd h
  case escalationResume => exact keeps_execEscalationResume h
  case escalationSave => exact keeps_execEscalationSave h
  case wctlKeyLoad => exact keeps_next (ite_canonical h (canonical_writeWctl _ _ h))
  case wctlKeyErase => exact keeps_execWctlKeyErase h
  case wctlGo => exact keeps_execWctlGo h
  case rotationLine => exact keeps_execRotationLine h
  case frameEvict => exact keeps_execFrameEvict h
  case frameReturn => exact keeps_execFrameReturn h
  case frameScrub => exact keeps_execFrameScrub h
  case boot => exact keeps_execBoot h
  case powerLoss | thermalTrip => exact keeps_next (canonical_resets h)
  case attestationReport => exact keeps_execAttestationReport h
  case rollCallSample => exact keeps_execRollCallSample h
  case lifetimeFlush => exact keeps_execLifetimeFlush h
  case errorBlockClear => exact keeps_congr h rfl rfl rfl rfl
  case flitCrcFailure => exact keeps_execFlitCrcFailure h
  case linkUp => exact keeps_next (ite_canonical h (canonical_putLink _ _ h))
  case fabricRequestGiveUp => exact keeps_execFabricRequestGiveUp h
  case stopped => exact keeps_execStopped h
  case fabricResume => exact keeps_execFabricResume h
  case clockReduction => exact keeps_execClockReduction h
  case clockRaise => exact keeps_execClockRaise h
  case linkGoesDown => exact keeps_execLinkGoesDown h
  case orderlyShutdown => exact keeps_next (canonical_flush h)

/-! ### The scalar stream and the lane pipes -/

/-- A fetch that does not issue keeps the form, and the word that it finds runs. -/
theorem keeps_fetchIssue (h : Canonical s) : Keeps (fetchIssue s) := by
  unfold fetchIssue
  dsimp only
  split
  · exact keeps_next (ite_canonical (canonical_trap _ _ h) (canonical_trapHere _ _ _ h))
  · exact keeps_next (canonical_sendTouched _ _ h)
  · exact keeps_next (canonical_trapHere _ _ _ h)
  · exact keeps_next (canonical_escalate _ _ (canonical_checkTags _ h))
  split
  · exact keeps_next (canonical_trap _ _ h)
  split
  · exact keeps_next (canonical_trapHere _ _ _ h)
  · exact keeps_exec _ (canonical_setTeam _ h)

theorem keeps_scalarIssue (h : Canonical s) : Keeps (scalarIssue s) := by
  unfold scalarIssue
  dsimp only
  split
  · exact keeps_next (canonical_enqueueFrom _ _ _ h)
  · exact keeps_exec _ h
  · exact keeps_fetchIssue h

theorem keeps_scalarRun (h : Canonical s) : Keeps (scalarRun s) := by
  unfold scalarRun
  split
  · next he => exact keeps_next (canonical_afterScalar _ (keeps_scalarIssue h _ he))
  · exact keeps_scalarIssue h

theorem keeps_scalarGo (h : Canonical s) : Keeps (scalarGo s) := by
  have hb : Canonical (if s.team.lidx.isNone && !s.team.pastPoint then s.breakpoint none else (s, false)).1 := by
    split
    · exact canonical_breakpoint _ h
    · exact h
  unfold scalarGo
  dsimp only
  split
  · split
    · next he =>
      have h' := keeps_scalarIssue h _ he
      exact keeps_next (ite_canonical (canonical_upd _ h') (ite_canonical hb h'))
    · exact keeps_scalarIssue h
  split
  · next hc => exact keeps_next (canonical_takeCause h _ hc)
  split
  · exact keeps_next h
  · exact keeps_scalarRun hb

theorem keeps_scalarAct (h : Canonical s) : Keeps (scalarAct s) := by
  have hu := canonical_unpark h
  unfold scalarAct
  dsimp only
  split
  · exact keeps_next (canonical_setTeam _ hu)
  split
  · exact keeps_next hu
  · exact keeps_scalarGo hu

theorem keeps_laneIssue (t : Team) (e : LaneEntry) (h : Canonical s) : Keeps (laneIssue t e s) := by
  unfold laneIssue
  dsimp only
  split
  · exact keeps_next h
  split
  · exact keeps_next h
  split
  · next he => exact keeps_next (canonical_afterLane _ _ (canonical_takePipe _ _ _ _ _ (keeps_exec _ h _ he)))
  · exact keeps_exec _ h

theorem keeps_laneAct (h : Canonical s) : Keeps (laneAct s) := by
  unfold laneAct
  dsimp only
  split
  · exact keeps_next h
  split
  · exact keeps_next (canonical_setTeam _ h)
  split
  · exact keeps_next h
  split
  · cases hc : s.takeCause with
    | none => exact keeps_next h
    | some t => exact keeps_next (canonical_takeCause h t hc)
  · exact keeps_laneIssue _ _ h

theorem keeps_act (a : Act) (h : Canonical s) : Keeps (act a s) := by
  cases a
  case scalar => exact keeps_scalarAct (canonical_cur _ h)
  case lane => exact keeps_laneAct (canonical_cur _ h)
  case event => exact keeps_exec _ (canonical_congr h rfl rfl rfl rfl)
  case external => exact keeps_next (canonical_outsideWrite _ h)
  case upset => exact keeps_next (canonical_upsetTile _ _ _ h)
  case upsetCount => exact keeps_next (canonical_upsetParity _ _ h)
  case spoil => exact keeps_next (canonical_spoilSector _ _ _ _ h)
  case correct => exact keeps_next (canonical_correctError _ _ _ _ h)
  case tamper => exact keeps_next (canonical_tamper _ _ _ h)
  case bar fn two off x =>
    unfold act State.writeBar
    dsimp only
    split
    · exact keeps_execRegisterWrite _ _ _ h
    · exact keeps_next h
  case tagFails => exact keeps_next (canonical_tagFails _ h)
  case provision => exact keeps_congr h rfl rfl rfl rfl
  case tenant => exact keeps_next (canonical_createTenant _ _ _ h)
  case quarterWorld => exact keeps_next (canonical_assignQuarter _ _ h)
  case flashImage => exact keeps_next (canonical_writeFlash _ _ h)
  case askPreempt => exact keeps_next (canonical_askCrew _ h)
  case claims => exact keeps_next (canonical_claimTogether _ _ _ h)
  case authenticate => exact keeps_congr h rfl rfl rfl rfl

/-! ### The end of a cycle -/

/-- A timer that runs an event keeps the form where every event does. -/
theorem canonical_onEvent (n) {f : State → Out} (hf : ∀ {s}, Canonical s → Keeps (f s)) (h : Canonical s) :
    Canonical (s.on n f) :=
  canonical_on _ _ h fun _ s' h he => hf h s' he

theorem canonical_samples (h : Canonical s) : Canonical s.samples :=
  canonical_foldl _ _ (fun _ _ h => canonical_foldl _ _ (fun _ _ h => canonical_onEvent _ keeps_execRollCallSample h) _ h) _ h

theorem canonical_queueTimers (n) (h : Canonical s) : Canonical (s.queueTimers n) :=
  canonical_onEvent _ keeps_execHeadAgeExpiry <| canonical_onEvent _ keeps_execQueuePeriodExpiry <|
    canonical_onEvent _ keeps_execBudgetOverrun h

theorem canonical_requestTimer (n) (h : Canonical s) : Canonical (s.requestTimer n) := by
  unfold State.requestTimer
  split
  · exact canonical_onEvent _ keeps_execRevocationDeadline h
  · exact h

theorem canonical_claimTimers (n) (h : Canonical s) : Canonical (s.claimTimers n) :=
  canonical_foldl _ _ (fun _ _ h => canonical_onEvent _ (keeps_execClaimDeadline _ _) h) _ h

theorem canonical_requestWanted (h : Canonical s) : Canonical s.requestWanted := by
  refine canonical_foldl _ _ (fun s x h => ?_) _ h
  split
  · exact h
  · exact canonical_postWanted _ _ (canonical_putTenant _ _ h)

theorem canonical_runTests (h : Canonical s) : Canonical s.runTests := by
  refine canonical_foldl _ _ (fun s x h => ?_) _ h
  split
  · next he => exact keeps_execSelfTest _ _ _ h _ he
  · exact h

theorem canonical_timers (h : Canonical s) : Canonical s.timers := by
  unfold State.timers
  refine (fun h => ite_canonical (canonical_round h) h) (canonical_refresh (canonical_noteOver (canonical_runTests
    (canonical_requestWanted (canonical_retryStiles (canonical_endGrids ?_))))))
  refine canonical_foldl _ _ (fun s x h => ?_) _ (canonical_foldl _ _ (fun s x h => canonical_requestTimer _ h) _
    (canonical_foldl _ _ (fun s x h => canonical_claimTimers _ h) _ (canonical_foldl _ _ (fun s x h => ?_) _
      (canonical_foldl _ _ (fun s x h => canonical_queueTimers _ h) _ h))))
  · exact ite_canonical (canonical_onEvent _ keeps_execPostcardClose h) h
  · exact ite_canonical (canonical_onEvent _ keeps_execYieldDeadline h) h

/-- A load that a replay reads again keeps the form. -/
theorem canonical_reread (a b) (h : Canonical s) : Canonical (s.reread a b) := by
  unfold State.reread
  dsimp only
  split
  · exact h
  · exact canonical_checkTags _ (canonical_putTeam _ _ h)

theorem canonical_endReplays (h : Canonical s) : Canonical s.endReplays :=
  canonical_foldl _ _ (fun _ _ h => canonical_foldl _ _ (fun _ _ h => canonical_reread _ _ h) _ h) _
    (canonical_congr h rfl rfl rfl rfl)

/-- The undo logs are in no table of the form. -/
theorem canonical_logUndo (h : Canonical s) : Canonical s.logUndo := canonical_congr h rfl rfl rfl rfl

theorem canonical_endCycle (h : Canonical s) : Canonical s.endCycle :=
  canonical_fresh <| canonical_logUndo <| canonical_endReplays <| canonical_timers <| canonical_countEnded <|
    canonical_countCycles <| canonical_charge <| canonical_passTime <| canonical_samples h

theorem keeps_tick {o : Out} (h : Keeps o) : Keeps (tick o) := by
  unfold tick
  split
  · exact keeps_next (canonical_endCycle (h _ rfl))
  · exact h

/-- Settles O59: the entry of the script, or what moves on its own, keeps the form, and so does the end of the cycle. -/
theorem stepKeepsCanonical : Obligations.StepKeepsCanonical := by
  intro s s' h
  suffices hk : Keeps (stepOf s) from hk s'
  unfold stepOf
  split
  · exact keeps_tick (keeps_act _ (canonical_congr h rfl rfl rfl rfl))
  split
  · exact keeps_tick (keeps_act _ h)
  · exact keeps_tick (keeps_next h)

end Sys2Proof.Laws
end

section
/-!
Device time, telemetry, the core clock, and what a register reads after it has been written.
-/

namespace Sys2Proof.Laws

open Sys2Proof Sys2Proof.Machine

variable {s : State}

/-! ### Bits of a written register -/

/-- The bits of a register that keeps `len` bits from bit `lo` on. -/
theorem getLsbD_keepBits (x : Word) (lo len i : Nat) :
    (keepBits x lo len).getLsbD i = (decide (i < 64) && (decide (lo ≤ i) && decide (i < lo + len)) && x.getLsbD i) := by
  rw [keepBits, fld, BitVec.getLsbD_ofNat, Nat.testBit_mul_two_pow, Nat.testBit_mod_two_pow, Nat.testBit_div_two_pow]
  by_cases h : lo ≤ i
  · have hi : i - lo + lo = i := Nat.sub_add_cancel h
    have hlt : i - lo < len ↔ i < lo + len := by omega
    simp [h, hi, hlt, BitVec.getLsbD, Bool.and_assoc]
  · simp [h]

/-- A register that keeps some bits reads as the value under their mask. -/
theorem keepBits_eq_and (x : Word) (lo len : Nat) : keepBits x lo len = x &&& BitVec.ofNat 64 ((2 ^ len - 1) * 2 ^ lo) := by
  refine BitVec.eq_of_getLsbD_eq fun i hi => ?_
  rw [getLsbD_keepBits, BitVec.getLsbD_and, BitVec.getLsbD_ofNat, Nat.testBit_mul_two_pow, Nat.testBit_two_pow_sub_one,
    Bool.and_comm]
  by_cases h : lo ≤ i
  · have hlt : i - lo < len ↔ i < lo + len := by omega
    simp [h, hi, hlt]
  · simp [h]

theorem bfld_toNat (x : Word) (lo len : Nat) : bfld x.toNat lo len = x.extractLsb' lo len := by
  apply BitVec.eq_of_toNat_eq
  simp [bfld, fld, BitVec.extractLsb'_toNat, Nat.shiftRight_eq_div_pow]

theorem ofNat_bfld (x : Word) (lo len : Nat) :
    BitVec.ofNat 64 (bfld x.toNat lo len).toNat = (x.extractLsb' lo len).zeroExtend 64 := by
  rw [bfld_toNat]
  apply BitVec.eq_of_toNat_eq
  simp

theorem ofNat_keepBits (x : Word) (lo len : Nat) :
    BitVec.ofNat 64 (keepBits x lo len).toNat = x &&& BitVec.ofNat 64 ((2 ^ len - 1) * 2 ^ lo) := by
  rw [BitVec.ofNat_toNat, BitVec.setWidth_eq, keepBits_eq_and]

theorem ofNat_bit_zero (x : Word) : BitVec.ofNat 64 (bit (x.getLsbD 0) 0) = x &&& 1#64 := by
  refine BitVec.eq_of_getLsbD_eq fun i hi => ?_
  cases i with
  | zero => cases hx : x.getLsbD 0 <;> simpa [bit] using hx
  | succ i => cases hx : x.getLsbD 0 <;> simp [bit]

/-! ### Time, telemetry and the clock -/

theorem exec_ptmExchange_ahead (host : Word) (h : s.now + 4000000 ≤ host.toNat) :
    exec (.ptmExchange host) s = .next { s with now := host.toNat, slew := 0 } :=
  congrArg Host.Outcome.next (if_pos (by omega))

theorem exec_ptmExchange_near (host : Word) (h : host.toNat < s.now + 4000000) :
    exec (.ptmExchange host) s = .next { s with slew := (host.toNat : Int) - s.now } :=
  congrArg Host.Outcome.next (if_neg (by omega))

/-- The state with a measurement taken, before anything follows from it. -/
def measured (s : State) (r : Telemetry) : State :=
  { s.noteOver with
    telemetry := { s.noteOver.telemetry with power := r.power, temps := r.temps.take 5, vcore := r.vcore } }

/-- What noting an excess leaves alone. -/
theorem noteOver_frame (s : State) : s.noteOver.telemetry = s.telemetry ∧ s.noteOver.shown = s.shown
    ∧ s.noteOver.sampled = s.sampled ∧ s.noteOver.ticks = s.ticks ∧ s.noteOver.mem = s.mem ∧ s.noteOver.teams = s.teams := by
  unfold State.noteOver
  split <;> exact ⟨rfl, rfl, rfl, rfl, rfl, rfl⟩

/-- A reset does not see that an excess was noted. -/
theorem resets_noteOver (s : State) (t : TelemetryRegs) : ({ s.noteOver with telemetry := t } : State).resets = s.resets := by
  unfold State.noteOver
  split <;> rfl

theorem exec_telemetryRefresh (r : Telemetry) :
    exec (.telemetryRefresh r) s
      = .next (if (measured s r).telemetry.trips then (measured s r).resets else (measured s r).refresh.noteOver) := rfl

theorem measured_trips (s : State) (r : Telemetry) :
    (measured s r).telemetry.trips = true ↔ ∃ t ∈ r.temps.take 5, 115 * 16 ≤ t.toNat := by
  simp [measured, TelemetryRegs.trips]

theorem exec_telemetryRefresh_trips (r : Telemetry) (h : ∃ t ∈ r.temps.take 5, 115 * 16 ≤ t.toNat) :
    exec (.telemetryRefresh r) s = exec .thermalTrip s := by
  rw [exec_telemetryRefresh, if_pos ((measured_trips s r).mpr h)]
  exact congrArg Host.Outcome.next (resets_noteOver _ _)

/-- What a new sample shows, and what taking it leaves alone. -/
theorem refresh_frame (s : State) : s.refresh.telemetry = s.telemetry ∧ s.refresh.mem = s.mem ∧ s.refresh.teams = s.teams
    ∧ s.refresh.shown = if s.sampled + 400000 ≤ s.ticks then s.telemetry else s.shown := by
  unfold State.refresh
  split <;> exact ⟨rfl, rfl, rfl, rfl⟩

theorem exec_telemetryRefresh_cool (r : Telemetry) (h : ∀ t ∈ r.temps.take 5, t.toNat < 115 * 16) :
    ∃ s', exec (.telemetryRefresh r) s = .next s'
      ∧ s'.telemetry = { s.telemetry with power := r.power, temps := r.temps.take 5, vcore := r.vcore }
      ∧ s'.shown = (if s.sampled + 400000 ≤ s.ticks then s'.telemetry else s.shown) ∧ s'.mem = s.mem
      ∧ s'.teams = s.teams := by
  have hc : ¬ (measured s r).telemetry.trips = true := by
    rw [measured_trips]
    rintro ⟨t, ht, hle⟩
    exact absurd (h t ht) (by omega)
  obtain ⟨nt, ns, nsa, nti, nm, nte⟩ := noteOver_frame s
  obtain ⟨rt, rm, rte, rs⟩ := refresh_frame (measured s r)
  obtain ⟨ot, os, -, -, om, ote⟩ := noteOver_frame (measured s r).refresh
  have hm : (measured s r).telemetry = { s.telemetry with power := r.power, temps := r.temps.take 5, vcore := r.vcore } := by
    simp [measured, nt]
  refine ⟨(measured s r).refresh.noteOver, ?_, ?_, ?_, ?_, ?_⟩
  · rw [exec_telemetryRefresh, if_neg hc]
  · rw [ot, rt, hm]
  · rw [os, rs, ot, rt]
    simp [measured, ns, nsa, nti]
  · rw [om, rm]
    exact nm
  · rw [ote, rte]
    exact nte

theorem exec_clockReduction_over (ho : s.overLimit = true) (hm : 1250 ≤ s.telemetry.mhz) :
    exec .clockReduction s = .next { s with
      lastOver := s.ticks,
      telemetry := { s.telemetry with mhz := s.telemetry.mhz - 250, events := s.telemetry.events + 1 } } := by
  have hmax : max 1000 (s.telemetry.mhz - 250) = s.telemetry.mhz - 250 := by omega
  rw [← hmax]
  exact congrArg Host.Outcome.next (if_pos ⟨ho, by omega⟩)

theorem exec_clockRaise_clear (ho : s.overLimit = false) (hm : s.telemetry.mhz ≤ 3750)
    (ht : s.lastOver + 40000000 ≤ s.ticks) :
    exec .clockRaise s = .next { s with telemetry := { s.telemetry with mhz := s.telemetry.mhz + 250 } } := by
  have hmin : min 4000 (s.telemetry.mhz + 250) = s.telemetry.mhz + 250 := by omega
  rw [← hmin]
  exact congrArg Host.Outcome.next (if_pos ⟨by simp [ho], by omega, ht⟩)

theorem timeAndClock : Claims.TimeAndClock := by
  intro s host r
  refine ⟨exec_ptmExchange_ahead host, exec_ptmExchange_near host, exec_telemetryRefresh_trips r, fun h => ?_, fun ho hm => ?_,
    fun ho hm ht => ?_⟩
  · obtain ⟨s', he, ht, hs, hmem, hteams⟩ := exec_telemetryRefresh_cool (s := s) r h
    exact ⟨s', he, by rw [ht], by rw [ht], by rw [ht], by rw [ht], by rw [ht], hs, hmem, hteams⟩
  · exact ⟨_, exec_clockReduction_over ho hm, rfl, rfl, rfl⟩
  · exact ⟨_, exec_clockRaise_clear ho hm ht, rfl⟩

/-! ### What a register reads after a write -/

theorem queueAt_putQueue (s : State) (n : Nat) (q : Queue) : (s.putQueue n q).queueAt n = q := Store.get_set_same _ _ _ _

/-- A queue register as the hypervisor reads it. -/
theorem readRegister_queue (s : State) (q : BitVec 13) (off : BitVec 7) :
    s.readRegister .pf (.queue q off) = BitVec.ofNat 64 ((s.queueAt q.toNat).read off.toNat) := rfl

/-- A time block as the hypervisor reads it. -/
theorem readRegister_time_pf (s : State) (v off : BitVec 6) :
    s.readRegister .pf (.time v off) = BitVec.ofNat 64 ((s.timeBlock v.toNat).read off.toNat s.now) := rfl

/-- A function reads its own time block where virtual functions are exposed. -/
theorem readRegister_time (s : State) (v : BitVec 6) (off : BitVec 6) (h : s.boot.recovery = false) :
    s.readRegister (.vf v) (.time v off) = BitVec.ofNat 64 ((s.timeBlock v.toNat).read off.toNat s.now) := by
  simp [State.readRegister, State.exposes, h]

/-- The queue registers that take a field of the value written. -/
theorem queue_reads (s : State) (x : Word) (q : BitVec 13) (off : BitVec 7) (t : Queue) (y : Word)
    (hw : s.writeQueue .pf q.toNat off.toNat x = s.putQueue q.toNat t) (hr : BitVec.ofNat 64 (t.read off.toNat) = y) :
    ∃ s', exec (.registerWrite .pf (.queue q off) x) s = .next s' ∧ s'.readRegister .pf (.queue q off) = y
      ∧ s'.mem = s.mem := by
  refine ⟨s.putQueue q.toNat t, congrArg Host.Outcome.next hw, ?_, rfl⟩
  rw [readRegister_queue, queueAt_putQueue, hr]

/-- A write of the hypervisor to a queue register that keeps a field of the value. -/
theorem queue_fields_read (s : State) (x : Word) (q : BitVec 13) :
    let reads (reg : RegAddr) (y : Word) : Prop :=
      ∃ s', exec (.registerWrite .pf reg x) s = .next s' ∧ s'.readRegister .pf reg = y ∧ s'.mem = s.mem
    reads (.queue q 0x10) (x.extractLsb' 0 40 |>.zeroExtend 64) ∧ reads (.queue q 0x18) (x.extractLsb' 0 40 |>.zeroExtend 64)
    ∧ reads (.queue q 0x20) (x.extractLsb' 0 32 |>.zeroExtend 64) ∧ reads (.queue q 0x28) (x.extractLsb' 0 40 |>.zeroExtend 64)
    ∧ reads (.queue q 0x30) (x &&& 0xFFFFFFFFFFFFFFC0#64) :=
  ⟨queue_reads s x q 0x10 _ _ rfl (ofNat_bfld x 0 40), queue_reads s x q 0x18 _ _ rfl (ofNat_bfld x 0 40),
    queue_reads s x q 0x20 _ _ rfl (ofNat_bfld x 0 32), queue_reads s x q 0x28 _ _ rfl (ofNat_bfld x 0 40),
    queue_reads s x q 0x30 _ _ rfl (ofNat_keepBits x 6 58)⟩

theorem timeBlock_set (s : State) (v : Nat) (b : TimeBlock) :
    ({ s with times := Store.set {} s.times v b } : State).timeBlock v = b := Store.get_set_same _ _ _ _

/-- A time register that takes a field of the value written, as the hypervisor and the function read it. -/
theorem time_reads (s : State) (x : Word) (v off : BitVec 6) (b : TimeBlock) (y : Word) (h : s.boot.recovery = false)
    (hw : s.writeTime v.toNat off.toNat x = { s with times := Store.set {} s.times v.toNat b })
    (hr : BitVec.ofNat 64 (b.read off.toNat s.now) = y) (r : Fn) (hf : r = .pf ∨ r = .vf v) :
    ∃ s', exec (.registerWrite .pf (.time v off) x) s = .next s' ∧ s'.readRegister r (.time v off) = y ∧ s'.mem = s.mem := by
  refine ⟨{ s with times := Store.set {} s.times v.toNat b }, congrArg Host.Outcome.next hw, ?_, rfl⟩
  rcases hf with rfl | rfl
  · rw [readRegister_time_pf, timeBlock_set, hr]
  · rw [readRegister_time { s with times := Store.set {} s.times v.toNat b } v off h, timeBlock_set, hr]

/-- The registers of a time block that the hypervisor writes. -/
theorem time_fields_read (s : State) (x : Word) (v : BitVec 6) (h : s.boot.recovery = false) :
    let reads (r : Fn) (off : BitVec 6) (y : Word) : Prop :=
      ∃ s', exec (.registerWrite .pf (.time v off) x) s = .next s' ∧ s'.readRegister r (.time v off) = y ∧ s'.mem = s.mem
    reads .pf 8 x ∧ reads (.vf v) 8 x ∧ reads .pf 0x10 x ∧ reads .pf 0 (x &&& 1#64) :=
  ⟨time_reads s x v 8 _ x h rfl (BitVec.ofNat_toNat ..) _ (.inl rfl),
    time_reads s x v 8 _ x h rfl (BitVec.ofNat_toNat ..) _ (.inr rfl),
    time_reads s x v 0x10 _ x h rfl (BitVec.ofNat_toNat ..) _ (.inl rfl),
    time_reads s x v 0 _ _ h rfl (ofNat_bit_zero x) _ (.inl rfl)⟩

/-- The registers of the management core for the escalation queue. -/
theorem mgmt_fields_read (s : State) (x : Word) :
    let reads (off : BitVec 12) (y : Word) : Prop :=
      ∃ s', exec (.registerWrite .mgmt (.mgmt off) x) s = .next s' ∧ s'.readRegister .mgmt (.mgmt off) = y ∧ s'.mem = s.mem
    reads 0x100 (x &&& 0x000FFFFFFFFFF000#64) ∧ reads 0x110 (x.extractLsb' 0 32 |>.zeroExtend 64) :=
  ⟨⟨{ s with escBase := keepBits x 12 40 }, rfl, ofNat_keepBits x 12 40, rfl⟩,
    ⟨{ s with escTail := bfld x.toNat 0 32 }, rfl, ofNat_bfld x 0 32, rfl⟩⟩

/-- A launch table entry that holds `y` reads as `y`. -/
theorem readRegister_launchTable_set (s : State) (tag : BitVec 16) (e : BitVec 12) (y : Word) :
    State.readRegister { s with launches := Store.set 0 s.launches (4096 * tag.toNat + e.toNat) y } .pf (.launchTable tag e)
      = y := by
  have hr (u : State) : u.readRegister .pf (.launchTable tag e)
      = BitVec.ofNat 64 (Store.get 0 u.launches (4096 * tag.toNat + e.toNat)).toNat := rfl
  rw [hr, Store.get_set_same, BitVec.ofNat_toNat, BitVec.setWidth_eq]

/-- A word of a route entry that holds `y` reads as `y`. -/
theorem readRegister_route_set (s : State) (e : BitVec 12) (w : BitVec 1) (y : Word) :
    State.readRegister { s with routes := Store.set 0 s.routes (2 * e.toNat + w.toNat) y } .mgmt (.route e w) = y := by
  have hr (u : State) : u.readRegister .mgmt (.route e w)
      = BitVec.ofNat 64 (Store.get 0 u.routes (2 * e.toNat + w.toNat)).toNat := rfl
  rw [hr, Store.get_set_same, BitVec.ofNat_toNat, BitVec.setWidth_eq]

theorem exec_registerWrite_launchTable (s : State) (x : Word) (tag : BitVec 16) (e : BitVec 12) :
    exec (.registerWrite .pf (.launchTable tag e) x) s
      = .next { s with
          launches := Store.set 0 s.launches (4096 * tag.toNat + e.toNat)
            (keepBits x 63 1 ||| keepBits x 32 20 ||| keepBits x 16 16 ||| keepBits x 0 13) } := rfl

theorem exec_registerWrite_route (s : State) (x : Word) (e : BitVec 12) (w : BitVec 1) :
    exec (.registerWrite .mgmt (.route e w) x) s
      = .next { s with
          routes := Store.set 0 s.routes (2 * e.toNat + w.toNat)
            (if w = 0#1 then keepBits x 62 2 ||| keepBits x 0 52 else keepBits x 30 34) } := rfl

/-- The bits that an entry of the launch table has. -/
theorem launchBits_eq (x : Word) :
    keepBits x 63 1 ||| keepBits x 32 20 ||| keepBits x 16 16 ||| keepBits x 0 13 = x &&& 0x800FFFFFFFFF1FFF#64 := by
  simp only [keepBits_eq_and, ← BitVec.and_or_distrib_left]
  rfl

/-- The bits that the first word of a route entry has. -/
theorem routeBits_eq (x : Word) : keepBits x 62 2 ||| keepBits x 0 52 = x &&& 0xC00FFFFFFFFFFFFF#64 := by
  simp only [keepBits_eq_and, ← BitVec.and_or_distrib_left]
  rfl

/-- Launch table entries and route entries keep the bits that they have. -/
theorem table_fields_read (s : State) (x : Word) :
    let reads (f : Fn) (reg : RegAddr) (y : Word) : Prop :=
      ∃ s', exec (.registerWrite f reg x) s = .next s' ∧ s'.readRegister f reg = y ∧ s'.mem = s.mem
    (∀ (tag : BitVec 16) (e : BitVec 12), reads .pf (.launchTable tag e) (x &&& 0x800FFFFFFFFF1FFF#64))
    ∧ ∀ e : BitVec 12, reads .mgmt (.route e 0) (x &&& 0xC00FFFFFFFFFFFFF#64)
        ∧ reads .mgmt (.route e 1) (x &&& 0xFFFFFFFFC0000000#64) :=
  ⟨fun tag e => ⟨_, exec_registerWrite_launchTable s x tag e,
      (readRegister_launchTable_set s tag e _).trans (launchBits_eq x), rfl⟩,
    fun e => ⟨⟨_, exec_registerWrite_route s x e 0, (readRegister_route_set s e 0 _).trans (routeBits_eq x), rfl⟩,
      ⟨_, exec_registerWrite_route s x e 1, (readRegister_route_set s e 1 _).trans (keepBits_eq_and x 30 34), rfl⟩⟩⟩

/-! ### Offsets of BAR0 and BAR2, and registers that a function does not reach -/

/-- A field of an offset is the number whose bits stand there. -/
theorem bfld_eq {len : Nat} (off lo : Nat) (n : BitVec len) (h : off / 2 ^ lo % 2 ^ len = n.toNat) : bfld off lo len = n := by
  rw [bfld, fld, h, BitVec.ofNat_toNat, BitVec.setWidth_eq]

theorem bar0Reg_queue (q : BitVec 13) (o : BitVec 7) : bar0Reg (128 * q.toNat + o.toNat) = some (.queue q o) := by
  have hq := q.isLt
  have ho := o.isLt
  rw [bar0Reg, if_pos (by omega), bfld_eq _ 7 q (by omega), bfld_eq _ 0 o (by omega)]

theorem bar2Reg_telemetry (o : BitVec 7) : bar2Reg .pf (0x32000 + o.toNat) = some (.telemetry o) := by
  have ho := o.isLt
  simp only [bar2Reg]
  rw [if_neg (by omega), if_neg (by omega), if_pos (by omega), bfld_eq _ 0 o (by omega)]

theorem bar2Reg_telemetry_vf (v : BitVec 6) (o : BitVec 7) : bar2Reg (.vf v) (0x32000 + o.toNat) = none := by
  have ho := o.isLt
  simp only [bar2Reg]
  rw [if_neg (by omega), if_neg (by omega), if_neg (by omega)]

theorem bar2Reg_time (v o : BitVec 6) : bar2Reg .pf (0x31000 + 64 * v.toNat + o.toNat) = some (.time v o) := by
  have hv := v.isLt
  have ho := o.isLt
  simp only [bar2Reg]
  rw [if_neg (by omega), if_pos (by omega), bfld_eq _ 6 v (by omega), bfld_eq _ 0 o (by omega)]

theorem bar2Reg_time_vf (v o : BitVec 6) : bar2Reg (.vf v) (0x31000 + o.toNat) = some (.time v o) := by
  have ho := o.isLt
  simp only [bar2Reg]
  rw [if_neg (by omega), if_neg (by omega), if_pos (by omega), bfld_eq _ 0 o (by omega)]

theorem bar2Reg_errors_vf (v o : BitVec 6) : bar2Reg (.vf v) (0x30000 + o.toNat) = some (.errors v o) := by
  have ho := o.isLt
  simp only [bar2Reg]
  rw [if_neg (by omega), if_pos (by omega), bfld_eq _ 0 o (by omega)]

theorem bar2Reg_debug (core : BitVec 6) (o : BitVec 12) (fn : Fn) (h : core.toNat < 48) :
    bar2Reg fn (4096 * core.toNat + o.toNat) = some (.debug core o) := by
  have ho := o.isLt
  unfold bar2Reg
  rw [if_pos (by omega), bfld_eq _ 12 core (by omega), bfld_eq _ 0 o (by omega)]

theorem exec_registerWrite_queue_unbound (x : Word) (q : BitVec 13) (n : BitVec 6) (off : BitVec 7)
    (hq : (s.queueAt q.toNat).vf.toNat ≠ n.toNat) : exec (.registerWrite (.vf n) (.queue q off) x) s = .next s := by
  have hw : s.writeQueue (.vf n) q.toNat off.toNat x = s := by
    simp [State.writeQueue, Queue.reachedBy, hq]
  refine congrArg Host.Outcome.next ?_
  dsimp only
  rw [hw, ite_self]

/-- A function that clears its error block reads it as zero. -/
theorem errors_cleared (x : Word) (v : BitVec 6) (h : s.boot.recovery = false) (hx : x.getLsbD 0 = true) :
    ∃ s', exec (.registerWrite (.vf v) (.errors v 0x38) x) s = .next s'
      ∧ ∀ off, s'.readRegister (.vf v) (.errors v off) = 0 := by
  have he : s.exposes (.vf v) = true := by simp [State.exposes, h]
  refine ⟨{ s with errors := Store.erase s.errors v.toNat }, congrArg Host.Outcome.next ?_, fun off => ?_⟩
  · dsimp only
    rw [if_neg (by simp [he]), if_pos ⟨rfl, rfl, hx⟩]
  · simp [State.readRegister, State.exposes, h, Store.get_erase_same, Store.get]

theorem registerWrites : Claims.RegisterWrites := by
  intro s x q v n h reads
  obtain ⟨period, budget, yields, age, resp⟩ := queue_fields_read s x q
  obtain ⟨escBase, escTail⟩ := mgmt_fields_read s x
  obtain ⟨offset, offsetVf, scale, hide⟩ := time_fields_read s x v h
  obtain ⟨launches, routes⟩ := table_fields_read s x
  refine ⟨period, budget, yields, age, resp, escBase, escTail, offset, offsetVf, scale, hide, ?_, ?_,
    fun o => ⟨bar0Reg_queue q o, bar2Reg_telemetry o, bar2Reg_telemetry_vf v o⟩,
    fun o => ⟨bar2Reg_time v o, bar2Reg_time_vf v o, bar2Reg_errors_vf v o⟩, bar2Reg_debug, launches, routes, ?_, rfl, rfl,
    fun hq off => exec_registerWrite_queue_unbound x q n off hq, fun h hx => errors_cleared x v h hx⟩
  · obtain ⟨-, hs, -, -, hm, -⟩ := noteOver_frame s
    exact ⟨_, rfl, bfld_toNat x 0 12, hs, hm⟩
  · exact BitVec.ofNat_toNat ..
  · exact congrArg Host.Outcome.next (ite_self _)

/-- Settles O54: device time and the clock, and what the registers read. -/
theorem timeAndRegisters : Obligations.TimeAndRegisters := ⟨timeAndClock, registerWrites⟩

end Sys2Proof.Laws
end

section
/-!
What an instruction of a team may reach beyond the team: the relation of the state before and after, and the operations that
stay within it.
-/

namespace Sys2Proof.Machine

/-- What places a team: its TAG and WORLD (R20), and where it runs. -/
def Team.place (t : Team) : BitVec 16 × BitVec 8 × Nat × Nat × Nat × Nat :=
  (t.pstat.tag, t.pstat.world, t.core, t.quarter, t.slot, t.group)

/-- The place of a team with its level. -/
def Team.stand (t : Team) : (BitVec 16 × BitVec 8 × Nat × Nat × Nat × Nat) × BitVec 2 := (t.place, t.pstat.pl)

/-! ### Operations on a team that leave its place and its level -/

@[simp] theorem Team.stand_setReg (t : Team) (d : BitVec 6) (x : Word) : (t.setReg d x).stand = t.stand := by
  unfold Team.setReg
  split <;> rfl
@[simp] theorem Team.stand_advance (t : Team) : t.advance.stand = t.stand := rfl
@[simp] theorem Team.stand_setFlags (t : Team) (f : Nzcv) : (t.setFlags f).stand = t.stand := rfl
@[simp] theorem Team.stand_putFlags (t : Team) (d : BitVec 6) (x : Word) (f : Nzcv) (n : Word) :
    (t.putFlags d x f n).stand = t.stand := Team.stand_setReg t d x
@[simp] theorem Team.stand_jump (t : Team) (x : Word) : (t.jump x).stand = t.stand := rfl
@[simp] theorem Team.stand_setMask (t : Team) (n : Nat) (x : Mask) : (t.setMask n x).stand = t.stand := by
  unfold Team.setMask
  split <;> rfl
@[simp] theorem Team.stand_setMaskFlags (t : Team) (x : Mask) : (t.setMaskFlags x).stand = t.stand := rfl
@[simp] theorem Team.stand_setToken (t : Team) (k : Nat) (x : Token) : (t.setToken k x).stand = t.stand := rfl
@[simp] theorem Team.stand_countSr (t : Team) (r : BitVec 3) : (t.countSr r).stand = t.stand := by
  unfold Team.countSr
  split <;> rfl
@[simp] theorem Team.stand_putF32 (t : Team) (d : BitVec 6) (r : BitVec 3) (x : Nat) : (t.putF32 d r x).stand = t.stand := by
  simp [Team.putF32]
@[simp] theorem Team.stand_addWrites (t : Team) (op cycle : Nat) (release : Option Nat) (ws : List (WriteWhat × Option Word))
    (acquire : Bool) : (t.addWrites op cycle release ws acquire).stand = t.stand := rfl
@[simp] theorem Team.stand_newOp (t : Team) : t.newOp.stand = t.stand := rfl
@[simp] theorem Team.stand_postOpt (t : Team) (tok : Option Nat) : (t.postOpt tok).stand = t.stand := by
  cases tok <;> rfl
@[simp] theorem Team.stand_addPend (t : Team) (free : Nat) (x : Layout) (cyc : Nat → Nat) (q : Pend) :
    (t.addPend free x cyc q).stand = t.stand := rfl
@[simp] theorem Team.stand_dropOp (t : Team) (id : Nat) : (t.dropOp id).stand = t.stand := rfl
@[simp] theorem Team.stand_release (t : Team) (p : Pend) (c : Bool) : (t.release p c).stand = t.stand := by
  unfold Team.release
  split
  · rfl
  split <;> rfl
@[simp] theorem Team.stand_issuesUntil (t : Team) (cycle : Nat) : (t.issuesUntil cycle).stand = t.stand := rfl
@[simp] theorem Team.stand_stopCount (t : Team) : t.stopCount.stand = t.stand := rfl
@[simp] theorem Team.stand_addAsync (t : Team) (c : Nat) (x : Word) : (t.addAsync c x).stand = t.stand := rfl
@[simp] theorem Team.stand_countEnqueue (t : Team) (w : Nat) : (t.countEnqueue w).stand = t.stand := rfl
@[simp] theorem Team.stand_addBins (t : Team) (cycle : Nat) (ops : List Rmw) : (t.addBins cycle ops).stand = t.stand := rfl
@[simp] theorem Team.stand_noteStale (t : Team) (s : State) (g : Bool) (keys : List Nat) :
    (t.noteStale s g keys).stand = t.stand := by
  unfold Team.noteStale
  split <;> rfl
@[simp] theorem Team.stand_atIndex (t : Team) (b : LaneBlock) (i : Nat) : (t.atIndex b i).stand = t.stand := by
  unfold Team.atIndex
  split <;> rfl
@[simp] theorem Team.stand_parkOn (t : Team) (p : Park) : (t.parkOn p).stand = t.stand := by
  unfold Team.parkOn
  split <;> rfl

theorem Team.stand_async (t : Team) (l : List (Nat × Word)) : ({ t with async := l } : Team).stand = t.stand := rfl

/-- A fold over a team leaves what each of its steps leaves. -/
theorem Team.stand_foldl {α : Type} (f : Team → α → Team) (hf : ∀ t a, (f t a).stand = t.stand) (l : List α) (t : Team) :
    (l.foldl f t).stand = t.stand := by
  induction l generalizing t with
  | nil => rfl
  | cons a l ih => exact (ih _).trans (hf t a)

@[simp] theorem Team.stand_addPends (t : Team) (free : Nat) (x : Layout) (ps : List (Nat × Pend)) :
    (t.addPends free x ps).stand = t.stand := by
  unfold Team.addPends
  exact Team.stand_foldl _ (by intros; rfl) ps t
@[simp] theorem Team.stand_advanceSlots (t : Team) (o : LaneOp) : (t.advanceSlots o).stand = t.stand := by
  unfold Team.advanceSlots
  exact Team.stand_foldl _ (by intros; rfl) o.slots t
@[simp] theorem Team.stand_yieldTo (t : Team) (d : BitVec 6) (x : Word) : (t.yieldTo d x).stand = t.stand := by
  have h := Team.stand_setReg t d x
  simp only [Team.stand, Team.place, Prod.mk.injEq] at h
  obtain ⟨⟨-, -, hc, hq, hs, hg⟩, -⟩ := h
  unfold Team.yieldTo
  dsimp only
  split
  all_goals simp only [Team.stand, Team.place, hc, hq, hs, hg]

/-- The team that begins a lane instruction stands where it stood. -/
theorem Team.stand_takeEntry (t : Team) (w : Nat) : (t.takeEntry w).2.1.stand = t.stand := by
  unfold Team.takeEntry
  split
  · rfl
  split <;> rfl

@[simp] theorem Ctx.stand_outstanding (c : Ctx) (ps : List Pass) (tok : Option Nat) (kind : OpKind) :
    (c.outstanding ps tok kind).stand = c.t.stand := by
  simp [Ctx.outstanding]

/-! ### What may happen to another team -/

/-- Tokens, operations and the saved tokens are all that changes: a crewed operation of the team is cancelled. -/
def Team.Cancelled (t t' : Team) : Prop := ∃ a b c, t' = { t with tok := a, pend := b, frame := c }

/-- The pending causes may change as well. -/
def Team.Disturbed (t t' : Team) : Prop := ∃ a b c d, t' = { t with tok := a, pend := b, frame := c, async := d }

theorem Team.Cancelled.refl (t : Team) : t.Cancelled t := ⟨_, _, _, rfl⟩

theorem Team.Cancelled.trans {t u v : Team} : t.Cancelled u → u.Cancelled v → t.Cancelled v := by
  rintro ⟨a, b, c, rfl⟩ ⟨a', b', c', rfl⟩
  exact ⟨a', b', c', rfl⟩

theorem Team.Cancelled.disturbed {t u : Team} : t.Cancelled u → t.Disturbed u := by
  rintro ⟨a, b, c, rfl⟩
  exact ⟨a, b, c, _, rfl⟩

theorem Team.Disturbed.trans {t u v : Team} : t.Disturbed u → u.Disturbed v → t.Disturbed v := by
  rintro ⟨a, b, c, d, rfl⟩ ⟨a', b', c', d', rfl⟩
  exact ⟨a', b', c', d', rfl⟩

theorem Team.Cancelled.stand {t u : Team} : t.Cancelled u → u.stand = t.stand := by
  rintro ⟨a, b, c, rfl⟩
  rfl

theorem Team.cancelled_release (t : Team) (p : Pend) (c : Bool) : t.Cancelled (t.release p c) := by
  unfold Team.release
  split
  · exact .refl t
  split
  · exact ⟨t.tok, t.pend, _, rfl⟩
  · exact ⟨_, t.pend, t.frame, rfl⟩

theorem Team.cancelled_dropOp (t : Team) (id : Nat) : t.Cancelled (t.dropOp id) := ⟨t.tok, _, t.frame, rfl⟩

theorem Team.cancelled_setOp (t : Team) (p : Pend) : t.Cancelled (t.setOp p) := ⟨t.tok, _, t.frame, rfl⟩

theorem Team.cancelled_foldl {α : Type} (f : Team → α → Team) (hf : ∀ (t : Team) a, t.Cancelled (f t a)) (l : List α) (t : Team) :
    t.Cancelled (l.foldl f t) := by
  induction l generalizing t with
  | nil => exact .refl t
  | cons a l ih => exact (hf t a).trans (ih _)

end Sys2Proof.Machine
end

section
/-!
The relations between the states before and after an instruction, and the shared operations that keep them.
-/

namespace Sys2Proof.Laws

open Sys2Proof Sys2Proof.Machine

/-- What no instruction changes outside its team, whatever it reads: with `slots` the translation entries may change. -/
structure Framed (slots : Bool) (s s' : State) : Prop where
  cur     : s'.cur = s.cur
  tiles   : s'.tiles = s.tiles
  tlb     : slots = false → s'.tlb = s.tlb
  handler : ∀ g, (s'.groupAt g).handler = (s.groupAt g).handler
  owner   : ∀ kind n, ∃ b, s'.owner kind n = { s.owner kind n with poison := b }
  others  : ∀ id, id ≠ s.cur → (s.teamAt id).Disturbed (s'.teamAt id)

/-- The same, and the team stands where it stood. -/
structure Loose (slots : Bool) (s s' : State) : Prop extends Framed slots s s' where
  stand : s'.team.stand = s.team.stand

/-- What an instruction leaves alone while no line's tag fails: with `crew` an operation of other teams may be cancelled. -/
def Clean (crew : Bool) (s s' : State) : Prop :=
  s.tampers = [] → s'.tampers = [] ∧ s'.mem = s.mem ∧ s'.owners = s.owners
    ∧ (crew = false → ∀ id, id ≠ s.cur → s'.teamAt id = s.teamAt id) ∧ ∀ id, id ≠ s.cur → (s.teamAt id).Cancelled (s'.teamAt id)

/-- A part of an instruction that takes no trap. -/
structure Quiet (crew slots : Bool) (s s' : State) : Prop extends Loose slots s s' where
  clean : Clean crew s s'

/-- The team is at user level as before, or in its handler with INH = 1 (R304). -/
def Handled (s s' : State) : Prop :=
  s.team.pstat.pl = 0#2 → s'.team.pstat.pl = 0#2
    ∨ (s'.team.pstat.inh = true ∧ s'.team.pc = (s.groupAt s.team.group).handler)

/-- A whole instruction, its trap included. -/
structure Confined (crew slots : Bool) (s s' : State) : Prop extends Framed slots s s' where
  clean   : Clean crew s s'
  place   : s'.team.place = s.team.place
  handled : Handled s s'

variable {c w : Bool} {s t u : State}

/-! ### Composition -/

theorem Framed.refl (s : State) : Framed w s s :=
  ⟨rfl, rfl, fun _ => rfl, fun _ => rfl, fun _ _ => ⟨_, rfl⟩, fun _ _ => ⟨_, _, _, _, rfl⟩⟩

theorem Framed.trans (h : Framed w s t) (g : Framed w t u) : Framed w s u where
  cur := g.cur.trans h.cur
  tiles := g.tiles.trans h.tiles
  tlb hw := (g.tlb hw).trans (h.tlb hw)
  handler n := (g.handler n).trans (h.handler n)
  owner kind n := by
    obtain ⟨a, ha⟩ := h.owner kind n
    obtain ⟨b, hb⟩ := g.owner kind n
    exact ⟨b, by rw [hb, ha]⟩
  others id hid := (h.others id hid).trans (g.others id (h.cur ▸ hid))

theorem Loose.refl (s : State) : Loose w s s := ⟨.refl s, rfl⟩

theorem Loose.trans (h : Loose w s t) (g : Loose w t u) : Loose w s u := ⟨h.toFramed.trans g.toFramed, g.stand.trans h.stand⟩

theorem Clean.refl (s : State) : Clean c s s := fun h => ⟨h, rfl, rfl, fun _ _ _ => rfl, fun _ _ => .refl _⟩

theorem Clean.trans (hc : t.cur = s.cur) (h : Clean c s t) (g : Clean c t u) : Clean c s u := by
  intro hs
  obtain ⟨ht, hm, ho, he, hd⟩ := h hs
  obtain ⟨ht', hm', ho', he', hd'⟩ := g ht
  rw [hc] at he' hd'
  exact ⟨ht', hm'.trans hm, ho'.trans ho, fun hf id hid => (he' hf id hid).trans (he hf id hid),
    fun id hid => (hd id hid).trans (hd' id hid)⟩

theorem Quiet.refl (s : State) : Quiet c w s s := ⟨.refl s, .refl s⟩

theorem Quiet.trans (h : Quiet c w s t) (g : Quiet c w t u) : Quiet c w s u :=
  ⟨h.toLoose.trans g.toLoose, h.clean.trans h.cur g.clean⟩

theorem Loose.level (h : Loose w s t) : t.team.pstat.pl = s.team.pstat.pl := congrArg Prod.snd h.stand

theorem Loose.place (h : Loose w s t) : t.team.place = s.team.place := congrArg Prod.fst h.stand

theorem Quiet.confined (h : Quiet c w s t) : Confined c w s t :=
  ⟨h.toFramed, h.clean, h.place, fun hp => .inl (h.level.trans hp)⟩

theorem Confined.refl (s : State) : Confined c w s s := (Quiet.refl s).confined

/-- A trap after a part that takes none. -/
theorem Quiet.then (h : Quiet c w s t) (g : Confined c w t u) : Confined c w s u where
  toFramed := h.toFramed.trans g.toFramed
  clean := h.clean.trans h.cur g.clean
  place := g.place.trans h.place
  handled hp := by
    have hg : t.team.group = s.team.group := congrArg (fun p => p.2.2.2.2.2) h.place
    have := g.handled (h.level.trans hp)
    rwa [hg, h.handler] at this

/-- What follows a trap and leaves pc and INH. -/
theorem Confined.after (h : Confined c w s t) (g : Quiet c w t u) (hi : u.team.pstat.inh = t.team.pstat.inh)
    (hp : u.team.pc = t.team.pc) : Confined c w s u where
  toFramed := h.toFramed.trans g.toFramed
  clean := h.clean.trans h.cur g.clean
  place := g.place.trans h.place
  handled hl := by
    rcases h.handled hl with hu | ⟨hinh, hpc⟩
    · exact .inl (g.level.trans hu)
    · exact .inr ⟨hi.trans hinh, hp.trans hpc⟩

theorem Quiet.ite {p : Prop} [Decidable p] (h : Quiet c w s t) (g : Quiet c w s u) : Quiet c w s (if p then t else u) := by
  split
  · exact h
  · exact g

theorem Confined.ite {p : Prop} [Decidable p] (h : Confined c w s t) (g : Confined c w s u) :
    Confined c w s (if p then t else u) := by
  split
  · exact h
  · exact g

theorem Quiet.foldl {α : Type} (f : State → α → State) (hf : ∀ s a, Quiet c w s (f s a)) (l : List α) (s : State) :
    Quiet c w s (l.foldl f s) := by
  induction l generalizing s with
  | nil => exact .refl s
  | cons a l ih => exact (hf s a).trans (ih _)

theorem Loose.foldl {α : Type} (f : State → α → State) (hf : ∀ s a, Loose w s (f s a)) (l : List α) (s : State) :
    Loose w s (l.foldl f s) := by
  induction l generalizing s with
  | nil => exact .refl s
  | cons a l ih => exact (hf s a).trans (ih _)

/-! ### Changes of one table -/

/-- Only tables of which the relation does not speak change. -/
theorem Quiet.congr (hc : t.cur = s.cur) (hi : t.tiles = s.tiles) (hb : t.tlb = s.tlb) (hg : t.groups = s.groups)
    (ho : t.owners = s.owners) (ht : t.teams = s.teams) (hm : t.mem = s.mem) (hp : t.tampers = s.tampers) : Quiet c w s t := by
  have team (id : Nat) : t.teamAt id = s.teamAt id := by rw [State.teamAt, State.teamAt, ht]
  refine ⟨⟨⟨hc, hi, fun _ => hb, fun g => ?_, fun kind n => ⟨(s.owner kind n).poison, ?_⟩, fun id _ => ?_⟩, ?_⟩,
    fun h => ⟨hp.trans h, hm, ho, fun _ id _ => team id, fun id _ => ?_⟩⟩
  · rw [State.groupAt, State.groupAt, hg]
  · rw [State.owner, State.owner, ho]
  · rw [team]
    exact (Team.Cancelled.refl _).disturbed
  · rw [State.team, State.team, hc, team]
  · rw [team]
    exact .refl _

/-- A change of the executing team is none of another. -/
theorem framed_setTeam (x : Team) : Framed w s (s.setTeam x) := by
  refine ⟨rfl, rfl, fun _ => rfl, fun _ => rfl, fun kind n => ⟨_, rfl⟩, fun id hid => ?_⟩
  rw [State.teamAt_setTeam_other s x hid]
  exact (Team.Cancelled.refl _).disturbed

theorem clean_setTeam (x : Team) : Clean c s (s.setTeam x) := by
  refine fun h => ⟨h, rfl, rfl, fun _ id hid => State.teamAt_setTeam_other s x hid, fun id hid => ?_⟩
  rw [State.teamAt_setTeam_other s x hid]
  exact .refl _

/-- The executing team changes and stands where it stood. -/
theorem quiet_setTeam {x : Team} (h : x.stand = s.team.stand) : Quiet c w s (s.setTeam x) :=
  ⟨⟨framed_setTeam x, (congrArg Team.stand (State.team_setTeam s x)).trans h⟩, clean_setTeam x⟩

theorem quiet_upd {f : Team → Team} (h : (f s.team).stand = s.team.stand) : Quiet c w s (s.upd f) := quiet_setTeam h

/-- A crewed operation of any team is cancelled. -/
theorem quiet_putTeam_cancelled {id : Nat} {x : Team} (h : (s.teamAt id).Cancelled x) : Quiet true w s (s.putTeam id x) := by
  have team (j : Nat) : (s.teamAt j).Cancelled ((s.putTeam id x).teamAt j) := by
    rcases eq_or_ne j id with rfl | hj
    · rwa [State.teamAt_putTeam]
    · rw [State.teamAt_putTeam_other s x hj]
      exact .refl _
  exact ⟨⟨⟨rfl, rfl, fun _ => rfl, fun _ => rfl, fun kind n => ⟨_, rfl⟩, fun j _ => (team j).disturbed⟩,
    (team s.cur).stand⟩, fun h => ⟨h, rfl, rfl, nofun, fun j _ => team j⟩⟩

/-- A group changes and keeps its handler. -/
theorem quiet_putGroup {n : Nat} {g : Group} (h : g.handler = (s.groupAt n).handler) : Quiet c w s (s.putGroup n g) := by
  refine ⟨⟨⟨rfl, rfl, fun _ => rfl, fun k => ?_, fun kind n => ⟨_, rfl⟩,
    fun _ _ => (Team.Cancelled.refl _).disturbed⟩, rfl⟩, fun h => ⟨h, rfl, rfl, fun _ _ _ => rfl, fun _ _ => .refl _⟩⟩
  rw [State.groupAt, State.putGroup, Store.get_set]
  split
  · next hk => rw [h, hk]
  · rfl

theorem quiet_fresh : Quiet c w s s.fresh := .congr rfl rfl rfl rfl rfl rfl rfl rfl
theorem quiet_putDbg (n d) : Quiet c w s (s.putDbg n d) := .congr rfl rfl rfl rfl rfl rfl rfl rfl
theorem quiet_putSequencer (n q) : Quiet c w s (s.putSequencer n q) := .congr rfl rfl rfl rfl rfl rfl rfl rfl
theorem quiet_putChannel (n x) : Quiet c w s (s.putChannel n x) := .congr rfl rfl rfl rfl rfl rfl rfl rfl
theorem quiet_sendLines (p) : Quiet c w s (s.sendLines p) := .congr rfl rfl rfl rfl rfl rfl rfl rfl
theorem quiet_sendTouched (n k) : Quiet c w s (s.sendTouched n k) := quiet_sendLines _
theorem quiet_setPoison (n b) : Quiet c w s (s.setPoison n b) := .congr rfl rfl rfl rfl rfl rfl rfl rfl
theorem quiet_noteError (x n k) : Quiet c w s (s.noteError x n k) := .congr rfl rfl rfl rfl rfl rfl rfl rfl

theorem quiet_countErr (n r k) : Quiet c w s (s.countErr n r k) := by
  unfold State.countErr
  refine Quiet.foldl _ (fun _ _ => ?_) _ s
  exact .congr rfl rfl rfl rfl rfl rfl rfl rfl

theorem quiet_countEvent (n g e k) : Quiet c w s (s.countEvent n g e k) := by
  unfold State.countEvent
  exact .ite (quiet_putDbg _ _) (.refl s)

theorem quiet_putPost (n x) : Quiet c w s (s.putPost n x) := by
  have h : Quiet c w s { s with posts := Store.set {} s.posts n x } := .congr rfl rfl rfl rfl rfl rfl rfl rfl
  unfold State.putPost
  exact .ite (h.trans (quiet_countEvent _ _ _ _)) h

theorem quiet_closeCards (x) : Quiet c w s (s.closeCards x) :=
  Quiet.foldl _ (fun s _ => .ite (quiet_putPost _ _) (.refl s)) _ s

theorem quiet_traceTeam (k p q l v) : Quiet c w s (s.traceTeam k p q l v) := by
  unfold State.traceTeam
  exact .ite (quiet_setTeam rfl) (.refl s)

theorem handler_noteKill (g : Group) (i n : Nat) : (g.noteKill i n).handler = g.handler := by
  unfold Group.noteKill
  rfl

/-- A kill of a warp of the executing team. -/
theorem quiet_killWarp (n) : Quiet c w s (s.killWarp s.cur n) := by
  have kill (x) : Quiet c w s (s.putTeam s.cur { s.teamAt s.cur with killed := x }) := quiet_setTeam rfl
  unfold State.killWarp
  refine .ite (.refl s) ((kill _).trans (Quiet.trans (quiet_putGroup ?_) (quiet_countErr _ _ _)))
  exact handler_noteKill _ _ _

theorem quiet_killWarps (l : List Nat) : Quiet c w s (l.foldl (fun s n => s.killWarp s.cur n) s) :=
  Quiet.foldl _ (fun _ _ => quiet_killWarp _) l s

/-! ### Lines whose tag fails (R412) -/

theorem loose_setOwner_poison (frame : Nat) : Loose w s (s.setOwner 2 frame { s.owner 2 frame with poison := true }) := by
  refine ⟨⟨rfl, rfl, fun _ => rfl, fun _ => rfl, fun kind n => ?_, fun _ _ => (Team.Cancelled.refl _).disturbed⟩, rfl⟩
  by_cases hk : resKey kind n = resKey 2 frame
  · exact ⟨true, by simp only [State.owner, State.setOwner, hk, Store.get_set_same]⟩
  · exact ⟨(s.owner kind n).poison, by simp only [State.owner, State.setOwner, Store.get_set_other _ _ _ hk]⟩

theorem loose_deliverCause (id cause x) : Loose w s (s.deliverCause id cause x) := by
  have put : Loose w s (s.putTeam id ((s.teamAt id).addAsync cause x)) := by
    have team (j : Nat) : (s.teamAt j).Disturbed ((s.putTeam id ((s.teamAt id).addAsync cause x)).teamAt j)
        ∧ ((s.putTeam id ((s.teamAt id).addAsync cause x)).teamAt j).stand = (s.teamAt j).stand := by
      rcases eq_or_ne j id with rfl | hj
      · rw [State.teamAt_putTeam]
        exact ⟨⟨_, _, _, _, rfl⟩, rfl⟩
      · rw [State.teamAt_putTeam_other _ _ hj]
        exact ⟨(Team.Cancelled.refl _).disturbed, rfl⟩
    exact ⟨⟨rfl, rfl, fun _ => rfl, fun _ => rfl, fun kind n => ⟨_, rfl⟩, fun j _ => (team j).1⟩,
      (team s.cur).2⟩
  unfold State.deliverCause
  dsimp only
  split
  · exact put
  split
  · split
    · exact put.trans ⟨⟨rfl, rfl, fun _ => rfl, fun _ => rfl, fun kind n => ⟨_, rfl⟩,
        fun _ _ => (Team.Cancelled.refl _).disturbed⟩, rfl⟩
    · exact .refl s
  · exact .refl s

theorem loose_frameFails (n l) : Loose w s (s.frameFails n l) := by
  unfold State.frameFails
  exact (loose_setOwner_poison n).trans <|
    (Loose.foldl _ (fun _ _ => (quiet_setPoison (c := false) _ _).toLoose) _ _).trans <|
    (quiet_noteError (c := false) _ _ _).toLoose.trans <| (quiet_countErr (c := false) _ _ _).toLoose.trans <|
    Loose.foldl _ (fun _ _ => loose_deliverCause _ _ _) _ _

theorem loose_tampers (l) : Loose w s { s with tampers := l } :=
  ⟨⟨rfl, rfl, fun _ => rfl, fun _ => rfl, fun _ _ => ⟨_, rfl⟩, fun _ _ => (Team.Cancelled.refl _).disturbed⟩, rfl⟩

theorem loose_tagFails (n) : Loose w s (s.tagFails n) := by
  unfold State.tagFails
  split
  · exact (loose_tampers _).trans (loose_frameFails _ _)
  · exact .refl s

/-- With no line whose tag fails, a read finds none. -/
theorem checkTags_of_clean (keys : List Nat) (h : s.tampers = []) : s.checkTags keys = s := by
  simp [State.checkTags, h]

theorem quiet_checkTags (keys) : Quiet c w s (s.checkTags keys) := by
  refine ⟨Loose.foldl _ (fun _ _ => loose_tagFails _) _ s, fun h => ?_⟩
  rw [checkTags_of_clean keys h]
  exact Clean.refl s h

/-! ### Traps (R304 to R307) -/

theorem quiet_escalate (n r) : Quiet c w s (s.escalate n r) := quiet_upd rfl

theorem quiet_poisonStop (k a) : Quiet c w s (s.poisonStop k a) := (quiet_checkTags k).trans (quiet_escalate _ _)

theorem quiet_cancelOrphans : Quiet c w s s.cancelOrphans := by
  unfold State.cancelOrphans
  dsimp only
  refine .ite (.refl s) ((quiet_setTeam ?_).trans (quiet_putSequencer _ _))
  exact Team.stand_foldl _ (fun t p => by simp) _ _

/-- Entry puts the team into its handler with INH = 1. -/
theorem confined_enterTrap (r) : Confined c w s (s.enterTrap r) := by
  have enter : Confined c w s (s.upd fun t => t.enter r (s.groupOf t).handler) := by
    refine ⟨framed_setTeam _, clean_setTeam _, ?_, fun _ => .inr ?_⟩
    · rw [State.team_upd]
      rfl
    · rw [State.team_upd]
      exact ⟨rfl, rfl⟩
  have trace (u : State) (k p q l v) : (u.traceTeam k p q l v).team.pstat.inh = u.team.pstat.inh
      ∧ (u.traceTeam k p q l v).team.pc = u.team.pc := by
    unfold State.traceTeam
    dsimp only
    split
    · rw [State.team_setTeam]
      exact ⟨rfl, rfl⟩
    · exact ⟨rfl, rfl⟩
  have count (u : State) (n g e k) : (u.countEvent n g e k).team = u.team := by
    unfold State.countEvent
    dsimp only
    split <;> rfl
  have traced {k p q l v} := enter.after (quiet_traceTeam k p q l v) (trace _ _ _ _ _ _).1 (trace _ _ _ _ _ _).2
  unfold State.enterTrap
  refine .ite (traced.after (quiet_countEvent _ _ _ _) ?_ ?_) traced
  · rw [count]
  · rw [count]

theorem confined_completeEntry : Confined c w s s.completeEntry := by
  unfold State.completeEntry
  split
  · exact .refl s
  refine .ite (.ite (quiet_escalate _ _).confined (.refl s)) (quiet_cancelOrphans.then ?_)
  exact .ite (confined_enterTrap _) (.refl _)

theorem confined_raise (r) : Confined c w s (s.raise r) := (quiet_upd rfl).then confined_completeEntry
theorem confined_trap (k v) : Confined c w s (s.trap k v) := confined_raise _
theorem confined_trapVec (k v l) : Confined c w s (s.trapVec k v l) := confined_raise _
theorem confined_trapHere (k v l) : Confined c w s (s.trapHere k v l) := confined_raise _
theorem confined_trapEnqueue (p i k v l) : Confined c w s (s.trapEnqueue p i k v l) := confined_raise _
theorem confined_trapLane (e k v l) : Confined c w s (s.trapLane e k v l) := (quiet_upd rfl).then (confined_raise _)
theorem confined_illegal (n) : Confined c w s (s.illegal n) := confined_trap _ _
theorem confined_priv (n) : Confined c w s (s.priv n) := confined_trap _ _

theorem confined_checkTrap {x : Checked} (h : s.checkTrap x = some t) : Confined c w s t := by
  obtain ⟨f, -, rfl⟩ := Option.map_eq_some_iff.mp h
  exact confined_trapVec _ _ _

theorem confined_accTrap {e : LaneEntry} {l : List LaneAcc} (h : s.accTrap e l = some t) : Confined c w s t := by
  obtain ⟨f, -, rfl⟩ := Option.map_eq_some_iff.mp h
  exact confined_trapLane _ _ _ _

end Sys2Proof.Laws
end

section
/-!
The operations that instructions share stay within their team.
-/

namespace Sys2Proof.Laws

open Sys2Proof Sys2Proof.Machine

variable {c w : Bool} {s t u : State}

/-! ### Scalar operations -/

theorem quiet_regOp (f d a b) : Quiet c w s (s.regOp f d a b) := quiet_upd (by simp)
theorem quiet_regOp1 (f d a) : Quiet c w s (s.regOp1 f d a) := quiet_upd (by simp)
theorem quiet_addImm (d a i n) : Quiet c w s (s.addImm d a i n) := quiet_upd (by simp)
theorem quiet_cmpImm (a i n) : Quiet c w s (s.cmpImm a i n) := quiet_upd (by simp)
theorem quiet_immOp (f d a i n) : Quiet c w s (s.immOp f d a i n) := quiet_upd (Team.stand_setReg s.team d _)
theorem quiet_fpOp (f d a b r) : Quiet c w s (s.fpOp f d a b r) := quiet_upd (by simp)
theorem quiet_fpMinMax (x d a b) : Quiet c w s (s.fpMinMax x d a b) := quiet_upd (by simp)

theorem confined_divOp (f d a b) : Confined c w s (s.divOp f d a b) := by
  unfold State.divOp
  exact .ite (confined_trap _ _) (quiet_regOp _ _ _ _).confined

theorem confined_jumpTo (x) {f : Team → Team} (hf : (f s.team).stand = s.team.stand) : Confined c w s (s.jumpTo x f) := by
  unfold State.jumpTo
  exact .ite (confined_trap _ _) (quiet_upd (by simp [hf])).confined

theorem confined_prefixed (hi i) : Confined c w s (s.prefixed hi i) := by
  unfold State.prefixed
  split
  · exact (quiet_addImm _ _ _ _).confined
  · exact (quiet_immOp _ _ _ _ _).confined
  · exact (quiet_immOp _ _ _ _ _).confined
  · exact (quiet_immOp _ _ _ _ _).confined
  · exact (quiet_immOp _ _ _ _ _).confined
  · exact (quiet_cmpImm _ _ _).confined
  · exact confined_illegal _

theorem quiet_maskOp (g d a b) : Quiet c w s (s.maskOp g d a b) := by
  unfold State.maskOp
  exact .ite (.refl s) (quiet_upd (by simp))

theorem quiet_maskRead (g d a) : Quiet c w s (s.maskRead g d a) := by
  unfold State.maskRead
  exact .ite (.refl s) (quiet_upd (by simp))

/-! ### Blocks of lane instructions -/

theorem quiet_breakpoint (l) : Quiet c w s (s.breakpoint l).1 := by
  unfold State.breakpoint
  dsimp only
  split
  · exact .refl s
  split
  · exact .refl s
  split
  · exact quiet_upd (f := fun t => { t with bpHalt := true }) rfl
  · dsimp only
    exact (quiet_traceTeam _ _ _ _ _).trans (quiet_upd rfl)

/-- One word of a block is enqueued, or something stops it. -/
theorem confined_enqueueOne (b i) : Confined c w s (s.enqueueOne b i).1 := by
  unfold State.enqueueOne
  dsimp only
  split
  · exact confined_trapEnqueue _ _ _ _ _
  · exact ((quiet_upd (by simp)).trans (quiet_sendTouched _ _)).confined
  · exact confined_trapEnqueue _ _ _ _ _
  · exact ((quiet_checkTags _).trans (quiet_escalate _ _)).confined
  split
  · exact confined_trapEnqueue _ _ _ _ _
  · exact (quiet_setTeam (by rfl)).confined

/-- A word that is enqueued takes no trap. -/
theorem quiet_enqueueOne (b i) (h : (s.enqueueOne b i).2 = true) : Quiet c w s (s.enqueueOne b i).1 := by
  unfold State.enqueueOne at h ⊢
  dsimp only at h ⊢
  split at h
  · cases h
  · cases h
  · cases h
  · cases h
  split at h
  · cases h
  · exact quiet_setTeam rfl

/-- A block that begins at a breakpoint stops there, unless its word took a trap. -/
theorem confined_enqueueFrom (b n i) : Confined c w s (s.enqueueFrom b n i) := by
  induction n generalizing s i with
  | zero => exact (quiet_upd (by simp)).confined
  | succ n ih =>
    have hb : Quiet c w s (s.breakpoint (some i)).1 := quiet_breakpoint _
    unfold State.enqueueFrom
    dsimp only
    generalize s.breakpoint (some i) = x at hb ⊢
    have hx : Quiet c w s (if x.2 then s else x.1) := .ite (.refl s) hb
    have hr := hx.then (confined_enqueueOne (c := c) (w := w) b i)
    have hq := fun h => hx.trans (quiet_enqueueOne (c := c) (w := w) b i h)
    generalize (if x.2 then s else x.1).enqueueOne b i = r at hr hq ⊢
    split
    · exact (quiet_upd (by simp)).confined
    split
    · exact .ite (hr.after (quiet_upd rfl) (by simp) (by simp)) hr
    next hn =>
    replace hq := hq (by simpa using hn)
    split
    · exact (hb.trans (quiet_upd (by simp))).confined
    split
    · refine (hq.trans (quiet_upd (f := fun t => { t.atIndex b (i + 1) with stepOnce := false, bpHalt := true }) ?_)).confined
      exact Team.stand_atIndex _ _ _
    · exact hq.then (ih _)

theorem confined_runBlock (x h) : Confined c w s (s.runBlock x h) := by
  unfold State.runBlock
  dsimp only
  split
  · exact confined_enqueueFrom _ _ _
  split
  · split
    · exact confined_enqueueFrom _ _ _
    · exact .ite (.refl s) ((quiet_upd rfl).then (confined_enqueueFrom _ _ _))
  · exact confined_trapHere _ _ _
  · exact confined_trapHere _ _ _
  · exact (quiet_sendTouched _ _).confined
  · exact confined_trapHere _ _ _
  · exact ((quiet_checkTags _).trans (quiet_escalate _ _)).confined

/-! ### Scalar accesses -/

theorem confined_windowStore (a v r x) : Confined c w s (s.windowStore a v r x) := by
  have put {y} : Confined c w s (if s.team.binsAhead r.isSome [] then s
      else s.setTeam (s.team.addWrites 0 s.cycle r [(y, none)]).advance) :=
    .ite (.refl s) (quiet_setTeam (by simp)).confined
  unfold State.windowStore
  dsimp only
  split
  · exact put
  split
  · exact put
  split
  · exact (quiet_setTeam (by simp)).confined
  split
  · exact .refl s
  split
  · exact confined_trap _ _
  split
  · exact confined_trapVec _ _ _
  · exact ((quiet_putChannel _ _).trans (quiet_setTeam (by rfl))).confined

theorem confined_scalarLoad (g d a b z) : Confined c w s (s.scalarLoad g d a b z) := by
  unfold State.scalarLoad
  dsimp only
  split
  · next h => exact confined_checkTrap h
  split
  · split
    · exact confined_trap _ _
    · exact (quiet_setTeam (by simp)).confined
  split
  · exact (quiet_sendTouched _ _).confined
  split
  · exact (quiet_poisonStop _ _).confined
  split
  · exact confined_trap _ _
  split
  · exact (quiet_setTeam (by rfl)).confined
  · exact (quiet_setTeam (by simp)).confined

theorem confined_scalarStore (g d a b r z) : Confined c w s (s.scalarStore g d a b r z) := by
  unfold State.scalarStore
  dsimp only
  split
  · next h => exact confined_checkTrap h
  split
  · split
    · exact confined_trap _ _
    split
    · exact confined_windowStore _ _ _ _
    · exact .refl s
  · exact .ite (.refl s) (quiet_setTeam (by simp)).confined

theorem confined_scalarAtomic (g op ty n d a b) : Confined c w s (s.scalarAtomic g op ty n d a b) := by
  unfold State.scalarAtomic
  extract_lets t ea chk
  split
  · exact confined_trap _ _
  split
  · next h => exact confined_checkTrap h
  split
  · exact (quiet_poisonStop _ _).confined
  split
  · exact .refl s
  split
  · exact confined_trap _ _
  · exact (quiet_setTeam (by rfl)).confined

/-! ### Stiles, fences and postcards -/

theorem confined_stileWrite (a x n r) : Confined c w s (s.stileWrite a x n r) := by
  unfold State.stileWrite
  dsimp only
  split
  · exact confined_trap _ _
  · exact .ite (quiet_poisonStop _ _).confined (.ite (.refl s) (quiet_setTeam (by simp)).confined)

theorem confined_stileTest (x d a b) : Confined c w s (s.stileTest x d a b) := by
  unfold State.stileTest
  dsimp only
  split
  · exact confined_trap _ _
  · exact .ite (.refl s) (.ite (quiet_poisonStop _ _).confined (.ite (.refl s) (quiet_setTeam (by simp)).confined))

theorem confined_yieldTest (d a b) : Confined c w s (s.yieldTest d a b) := by
  unfold State.yieldTest
  dsimp only
  split
  · exact (quiet_setTeam (by simp)).confined
  split
  · exact confined_trap _ _
  · exact .ite (.refl s) (.ite (quiet_poisonStop _ _).confined (.ite (quiet_setTeam (by simp)).confined
      (.ite (quiet_setTeam (by simp)).confined (quiet_setTeam (by simp)).confined)))

theorem quiet_fenceWait {r n} (h : s.fenceWait r n = some t) : Quiet c w s t := by
  unfold State.fenceWait at h
  dsimp only at h
  split at h
  · cases h; exact .refl s
  split at h
  · cases h; exact .refl s
  split at h
  · cases h; exact .refl s
  split at h
  · cases h; exact quiet_sendLines _
  split at h
  · cases h; exact quiet_closeCards _
  · cases h

theorem confined_postEnd (word stop d a) : Confined c w s (s.postEnd word stop d a) := by
  have done {s : State} (x) : Quiet c w s (s.upd fun t => { (t.setReg d x).advance with going := none, flush := none }) :=
    quiet_upd (Team.stand_setReg s.team d x)
  have put {n x y} : Quiet c w s ((if stop then s.putPost n x else s).upd fun t =>
      { (t.setReg d y).advance with going := none, flush := none }) :=
    (Quiet.ite (quiet_putPost _ _) (.refl s)).trans (done y)
  have wait {f} : Quiet c w s (if stop then s else s.upd fun t => { t with flush := f }) := .ite (.refl s) (quiet_upd rfl)
  unfold State.postEnd
  dsimp only
  split
  · exact confined_illegal _
  refine .ite (done _).confined (.ite (done _).confined (.ite (confined_trap _ _) (.ite (confined_trap _ _)
    (.ite put.confined (.ite (.ite wait.confined put.confined) (.ite wait.confined (.ite ?_ (.ite (done _).confined
      wait.confined))))))))
  exact .ite ((quiet_putPost _ _).trans (done _)).confined (.ite (.refl s)
    ((quiet_putPost _ _).trans (quiet_upd rfl)).confined)

/-! ### Translation slots -/

theorem quiet_endReplace (r) : Quiet c w s (s.endReplace r) := by
  unfold State.endReplace
  exact .ite (quiet_upd rfl) (quiet_sendLines _)

/-- Slots of the buffer change. -/
theorem quiet_tlb (l) : Quiet c true s { s with tlb := l } :=
  ⟨⟨⟨rfl, rfl, nofun, fun _ => rfl, fun _ _ => ⟨_, rfl⟩, fun _ _ => (Team.Cancelled.refl _).disturbed⟩, rfl⟩,
    fun h => ⟨h, rfl, rfl, fun _ _ _ => rfl, fun _ _ => .refl _⟩⟩

theorem quiet_replaceSlots (n l) : Quiet c true s (s.replaceSlots n l) := by
  unfold State.replaceSlots
  exact .ite (.refl s) ((quiet_tlb _).trans ((quiet_setTeam (by rfl)).trans (quiet_endReplace _)))

theorem confined_tlbOp (n) {f : Team → State} (hf : ∀ t, Confined c w s (f t)) : Confined c w s (s.tlbOp n f) := by
  unfold State.tlbOp
  dsimp only
  split
  · exact confined_priv _
  split
  · exact (quiet_endReplace _).confined
  · exact hf _

theorem confined_tlbRead (n d a g) : Confined c w s (s.tlbRead n d a g) := by
  unfold State.tlbRead
  dsimp only
  split
  · exact confined_priv _
  split
  · exact confined_illegal _
  split
  · exact confined_trap _ _
  · exact (quiet_setTeam (by simp)).confined

/-! ### Lane instructions -/

theorem quiet_endLane {x : Team} (h : x.stand = s.team.stand) (p n) : Quiet c w s (s.endLane x p n) :=
  (quiet_setTeam (x := { x.issuesUntil (s.cycle + p) with laneFree := nextIssue s.cycle p n }) h).trans
    (quiet_fresh.trans (quiet_countEvent _ _ _ _))

/-- A lane instruction that does not begin takes its trap, or waits. -/
theorem confined_beginLane {i o q rl wl} (h : s.beginLane i o q rl wl = .error t) : Confined c w s t := by
  unfold State.beginLane at h
  dsimp only at h
  split at h
  · cases h
    exact confined_trapLane _ _ _ _
  split at h
  · cases h
    exact .refl s
  split at h
  · cases h
    exact (quiet_sendTouched _ _).confined
  split at h
  · cases h
    exact confined_trapLane _ _ _ _
  · cases h

/-- A lane instruction begins in its team's place. -/
theorem beginLane_stand {i o q rl wl x ps} (h : s.beginLane i o q rl wl = .ok (x, ps)) : x.t.stand = s.team.stand := by
  unfold State.beginLane at h
  dsimp only at h
  split at h
  · cases h
  split at h
  · cases h
  split at h
  · cases h
  split at h
  · cases h
  · cases h
    exact Team.stand_takeEntry _ _

theorem confined_issueFixed (i o sp) : Confined c w s (s.issueFixed i o sp) := by
  unfold State.issueFixed
  split
  · next h => exact confined_beginLane h
  next x ps h =>
  have hx := beginLane_stand h
  dsimp only
  split
  · exact confined_trapLane _ _ _ _
  split
  · exact confined_trapLane _ _ _ _
  · refine ((quiet_endLane ?_ _ _).trans ((quiet_killWarps _).trans (quiet_checkTags _))).confined
    refine Eq.trans ?_ hx
    exact (Team.stand_async _ _).trans (by simp)

end Sys2Proof.Laws
end

section
/-!
Lane accesses, the reductions of a warp or a team, and matrix commands stay within their team, but for the cancellation of a
crewed operation (R294; log entry 79).
-/

namespace Sys2Proof.Laws

open Sys2Proof Sys2Proof.Machine

variable {c w : Bool} {s t u : State}

/-- Whatever an instruction answers is confined. -/
def Within (c w : Bool) (s : State) (o : Out) : Prop := ∀ t, o = .next t → Confined c w s t

theorem within_next (h : Confined c w s t) : Within c w s (.next t) := by
  rintro _ ⟨⟩
  exact h

theorem within_guarded (i) {o : Out} (h : Within c w s o) : Within c w s (guarded i s o) := by
  unfold guarded
  split
  · exact h
  · exact within_next (confined_illegal _)

/-! ### Lane accesses and reductions -/

/-- A lane instruction that is through leaves the team where it stood. -/
theorem confined_endLane {x : Team} (h : x.stand = s.team.stand) (p n) : Confined c w s (s.endLane x p n) :=
  (quiet_endLane h p n).confined

theorem stand_ite {p : Prop} [Decidable p] {x y z : Team} (hx : x.stand = z.stand) (hy : y.stand = z.stand) :
    (if p then x else y).stand = z.stand := by
  split
  · exact hx
  · exact hy

theorem confined_laneAtomic (i o f op) : Confined c w s (s.laneAtomic i o f op) := by
  unfold State.laneAtomic
  split
  · next h => exact confined_beginLane h
  next x ps h =>
  have hx := beginLane_stand h
  dsimp only
  split
  · next h => exact confined_accTrap h
  · refine .ite (.refl s) (confined_endLane ?_ _ _)
    exact (Team.stand_async _ _).trans (stand_ite hx (by simp [hx]))

theorem confined_laneReduction (i o f op) : Confined c w s (s.laneReduction i o f op) := by
  unfold State.laneReduction
  split
  · next h => exact confined_beginLane h
  next x ps h =>
  have hx := beginLane_stand h
  dsimp only
  split
  · next h => exact confined_accTrap h
  · exact .ite (.refl s) (confined_endLane (stand_ite hx (by simp [hx])) _ _)

theorem confined_laneReduce (i o f b) : Confined c w s (s.laneReduce i o f b) := by
  unfold State.laneReduce
  split
  · next h => exact confined_beginLane h
  next x ps h =>
  have hx := beginLane_stand h
  dsimp only
  split
  · exact confined_trapLane _ _ _ _
  · refine ((quiet_endLane ?_ _ _).trans ((quiet_killWarps _).trans (quiet_checkTags _))).confined
    exact (Team.stand_async _ _).trans <| (Team.stand_advanceSlots _ _).trans (stand_ite hx (by simp [hx]))

theorem within_execLaneLd (f) : Within c w s (execLaneLd f s) := by
  unfold execLaneLd
  refine within_next ?_
  split
  · next h => exact confined_beginLane h
  next x ps h =>
  have hx := beginLane_stand h
  dsimp only
  split
  · next h => exact confined_accTrap h
  split
  · exact (quiet_sendTouched _ _).confined
  · refine ((quiet_endLane ?_ _ _).trans (quiet_checkTags _)).confined
    exact (Team.stand_async _ _).trans (stand_ite hx (by simp [hx]))

theorem within_execLaneSt (f) : Within c w s (execLaneSt f s) := by
  unfold execLaneSt
  refine within_next ?_
  split
  · next h => exact confined_beginLane h
  next x ps h =>
  have hx := beginLane_stand h
  dsimp only
  split
  · next h => exact confined_accTrap h
  · have stored (k n m r l) : ((x.outstanding ps k .store).addWrites n m r l).stand = s.team.stand := by simp [hx]
    refine .ite (.refl s) (confined_endLane ?_ _ _)
    exact (Team.stand_noteStale _ _ _ _).trans (stand_ite hx (stored _ _ _ _ _))

theorem within_execLanePref (f) : Within c w s (execLanePref f s) := by
  unfold execLanePref
  refine within_next ?_
  split
  · next h => exact confined_beginLane h
  next x ps h =>
  have hx := beginLane_stand h
  dsimp only
  split
  · next h => exact confined_accTrap h
  · exact .ite (.refl s) (confined_endLane (stand_ite hx (by simp [hx])) _ _)

theorem confined_issuePair (i x y sx sy) : Confined c w s (s.issuePair i x y sx sy) := by
  have ht := Team.stand_takeEntry s.team (encode i)
  unfold State.issuePair
  dsimp only
  generalize s.team.takeEntry (encode i) = r at ht ⊢
  obtain ⟨e, t, queued⟩ := r
  dsimp only at ht ⊢
  split
  · exact confined_trapLane _ _ _ _
  split
  · exact .refl s
  split
  · exact confined_trapLane _ _ _ _
  · refine ((quiet_setTeam ?_).trans (quiet_fresh.trans (quiet_countEvent _ _ _ _))).confined
    exact (Team.stand_addPends _ _ _ _).trans ((Team.stand_addPends _ _ _ _).trans ht)

/-! ### Matrix commands -/

theorem quiet_noteReads (q n) : Quiet true w s (s.noteReads q n) := by
  refine quiet_putTeam_cancelled (Team.cancelled_foldl _ (fun t d => ?_) _ _)
  split
  · exact .refl t
  split
  · exact .refl t
  · exact Team.cancelled_setOp _ _

theorem quiet_cancelCmd (q d) : Quiet true w s (s.cancelCmd q d) := by
  have drop : Quiet true w s (s.dropCmd q d) := quiet_putSequencer _ _
  unfold State.cancelCmd
  dsimp only
  split
  · refine drop.trans (Quiet.trans (quiet_putTeam_cancelled ?_) (quiet_noteReads _ _))
    exact (Team.cancelled_release _ _ _).trans (Team.cancelled_dropOp _ _)
  · exact drop

theorem quiet_cancelCrew (id n) : Quiet true w s (s.cancelCrew id n) := by
  have cmds (l : List (Nat × MatCmd)) : Quiet true w s (l.foldl (fun s x => s.cancelCmd x.1 x.2) s) :=
    Quiet.foldl _ (fun _ _ => quiet_cancelCmd _ _) l s
  unfold State.cancelCrew
  exact .ite ((cmds _).trans (quiet_putGroup rfl)) (cmds _)

/-- A crewed operation that finds its tile not owned is cancelled in every member; every other change is the team's own. -/
theorem confined_issueMatrix (i o k f) (hc : o ≤ 1 → f.modF 5 1 = 1 → c = true) : Confined c w s (s.issueMatrix i o k f) := by
  have ht := Team.stand_takeEntry s.team (encode i)
  unfold State.issueMatrix
  dsimp only
  generalize s.team.takeEntry (encode i) = r at ht ⊢
  obtain ⟨e, t, queued⟩ := r
  dsimp only at ht ⊢
  split
  · exact confined_trapLane _ _ _ _
  split
  · exact .refl s
  split
  · exact confined_trapLane _ _ _ _
  split
  · exact confined_trapLane _ _ _ _
  generalize hb : ((0xA : Nat) == 0xA && decide (o ≤ 1) && f.modF 5 1 == 1) = b
  have hb : b = true → c = true := by
    rintro rfl
    simp only [Bool.and_eq_true, decide_eq_true_eq, beq_iff_eq] at hb
    obtain ⟨⟨-, ho⟩, hm⟩ := hb
    exact hc ho hm
  have post (a l cy p k) : (((t.addPend a l cy p).newOp).postOpt k).stand = s.team.stand := by simp [ht]
  have stop {x : Team} (h : x.stand = s.team.stand) (p n) : ((x.release p true).dropOp n).stand = s.team.stand :=
    (Team.stand_dropOp _ _).trans ((Team.stand_release _ _ _).trans h)
  have queue {q l} {x : Team} (h : x.stand = s.team.stand) (n m) : Confined c w s ((s.putSequencer q l).endLane x n m) :=
    ((quiet_putSequencer q l).trans (quiet_endLane (s := s.putSequencer q l) h n m)).confined
  cases b with
  | false =>
    simp only [Bool.false_and, Bool.false_eq_true, if_false]
    exact .ite (confined_endLane (stop (post _ _ _ _ _) _ _) _ _)
      (queue (post _ _ _ _ _) _ _)
  | true =>
    obtain rfl := hb rfl
    simp only [Bool.true_and, if_true]
    have count {x : Team} (h : x.stand = s.team.stand) (n) : ({ x with crewCmds := n } : Team).stand = s.team.stand := h
    have stopped (a l cy p k m q n) :=
      quiet_endLane (c := true) (w := w) (stop (count (post a l cy p k) m) q n) 0 f.stall.toNat
    refine .ite (stopped _ _ _ _ _ _ _ _).confined (.ite ((stopped _ _ _ _ _ _ _ _).trans (quiet_cancelCrew _ _)).confined ?_)
    exact queue (count (post _ _ _ _ _) _) _ _

end Sys2Proof.Laws
end

section
/-!
Every scalar and lane instruction but `bar`, `bar.gang`, `halt` and `launch` stays within its team.
-/

namespace Sys2Proof.Machine

/-- The instructions that replace translation entries. -/
def Instr.replacesSlots : Instr → Bool
  | .tlbw _ _ _ | .tlbi _ => true
  | _ => false

end Sys2Proof.Machine

namespace Sys2Proof.Laws

open Sys2Proof Sys2Proof.Machine

variable {c w : Bool} {s t u : State}

/-- What takes no trap, from its next state. -/
theorem within_quiet (h : Quiet c w s t) : Within c w s (.next t) := within_next h.confined

/-! ### Queue and token instructions -/

theorem within_execLsync : Within c w s (execLsync s) := within_next (.ite (quiet_upd (by simp)).confined (.refl s))

theorem within_execWait (k n) : Within c w s (execWait k n s) :=
  within_next (.ite (confined_trap _ _) (.ite (.refl s) (quiet_upd (by simp)).confined))

theorem within_execFmtset (a) : Within c w s (execFmtset a s) := within_next (.ite (quiet_upd (by rfl)).confined (confined_illegal _))

theorem within_execMtest (a) : Within c w s (execMtest a s) :=
  within_guarded _ (within_next (.ite (.refl s) (quiet_upd (by simp)).confined))

theorem within_execMset (d a b) : Within c w s (execMset d a b s) :=
  within_guarded _ (within_next (.ite (.refl s) (quiet_upd (by simp)).confined))

theorem within_execQset (a b f) : Within c w s (execQset a b f s) := by
  refine within_guarded _ (within_next (.ite (.refl s) ?_))
  split
  · exact confined_illegal _
  · exact (quiet_upd (by rfl)).confined

theorem within_execQget (d b f) : Within c w s (execQget d b f s) :=
  within_guarded _ (within_next (.ite (.refl s) (quiet_upd (by simp)).confined))

/-! ### Stiles, waits and subscriptions -/

theorem within_execStexp (a b) : Within c w s (execStexp a b s) :=
  within_next (.ite (confined_illegal _) (confined_stileWrite _ _ _ _))

theorem within_execYield (d a b) : Within c w s (execYield d a b s) := by
  refine within_guarded _ (within_next ?_)
  dsimp only
  split
  · exact confined_trap _ _
  · exact .ite (.refl s) (.ite (confined_trap _ _) (.ite (confined_raise _) (confined_yieldTest _ _ _)))

theorem within_execMwait (d a b) : Within c w s (execMwait d a b s) := by
  refine within_next ?_
  dsimp only
  split
  · exact confined_trap _ _
  split
  · exact confined_trap _ _
  · exact .ite (.refl s) (.ite (quiet_poisonStop _ _).confined (.ite (quiet_setTeam (by simp)).confined
      (quiet_setTeam (by simp)).confined))

theorem within_execFence (a b) : Within c w s (execFence a b s) := by
  refine within_guarded _ (within_next ?_)
  split
  · next h => exact (quiet_fenceWait h).confined
  · exact (quiet_upd (by rfl)).confined

theorem within_execSub (d a b) : Within c w s (execSub d a b s) := by
  have answer {x} : Confined c w s (s.setTeam (s.team.setReg d x).advance) := (quiet_setTeam (by simp)).confined
  have put {n x} : Quiet c w s (s.putPost n x) := quiet_putPost _ _
  unfold execSub
  refine within_next ?_
  dsimp only
  refine .ite (confined_illegal _) (.ite (confined_trap _ _) (.ite (confined_trap _ _) (.ite (confined_trap _ _) ?_)))
  split
  · exact confined_trap _ _
  split
  · refine .ite answer (.ite answer ?_)
    split
    · exact answer
    · refine (put.trans (quiet_setTeam ?_)).confined
      exact Eq.trans (by simp) put.stand.symm
  · exact answer

/-! ### Control registers -/

theorem within_execCget (d r) : Within c w s (execCget d r s) := by
  refine within_guarded _ (within_next (.ite (confined_priv _) (quiet_upd ?_).confined))
  dsimp only
  split
  · exact Team.stand_setReg _ _ _
  · simp

/-- Where a write of a control register answers a team, it stands where `x` stands. -/
def Stands (x : Team) (r : Except (Nat × Word) Team) : Prop := ∀ y, r = .ok y → y.stand = x.stand

theorem stands_ok {x y : Team} (h : y.stand = x.stand) : Stands x (.ok y) := by
  rintro _ ⟨⟩
  exact h

theorem stands_error {x : Team} {e} : Stands x (.error e) := by
  intro y h
  contradiction

theorem Stands.ite {p : Prop} [Decidable p] {x : Team} {q r} (hq : Stands x q) (hr : Stands x r) : Stands x (if p then q else r) := by
  split
  · exact hq
  · exact hr

/-- No control register places a team, and what PSTAT lets a program write is no part of its place or its level (R151). -/
theorem stands_setControl (x : Team) (r v) : Stands x (s.setControl x r v) := by
  have done {y : Team} (h : y.stand = x.stand) : Stands x (.ok y) := stands_ok h
  unfold State.setControl
  refine .ite (.ite (done rfl) stands_error) (.ite (done rfl) (.ite (done rfl) (.ite (done rfl) (.ite (done rfl) (.ite (done rfl)
    (.ite (done rfl) (.ite (done rfl) (.ite (done rfl) (.ite (done rfl) (.ite ?_ (done rfl)))))))))))
  split
  · exact stands_error
  · exact done rfl

theorem within_execCset (a r) : Within c w s (execCset a r s) := by
  refine within_guarded _ (within_next ?_)
  refine .ite (confined_priv _) ?_
  split
  · exact .ite (confined_illegal _) (confined_trap _ _)
  · next h => exact (quiet_setTeam ((Team.stand_advance _).trans (stands_setControl _ _ _ _ h))).confined

/-! ### Translation entries -/

theorem within_execTlbw (d a b) : Within c true s (execTlbw d a b s) := by
  refine within_next (confined_tlbOp _ fun x => ?_)
  dsimp only
  split
  · exact confined_illegal _
  split
  · exact confined_trap _ _
  split
  · exact confined_trap _ _
  · exact (quiet_replaceSlots _ _).confined

theorem within_execTlbi (a) : Within c true s (execTlbi a s) := by
  refine within_next (confined_tlbOp _ fun x => ?_)
  dsimp only
  split
  · exact .ite (confined_illegal _) (quiet_replaceSlots _ _).confined
  split
  · exact confined_illegal _
  split
  · exact confined_trap _ _
  · exact (quiet_replaceSlots _ _).confined

/-! ### Traps and the debugger -/

/-- What is not at user level may change its level. -/
theorem confined_privileged {x : Team} (hp : s.team.pstat.pl ≠ 0#2) (h : x.place = s.team.place) :
    Confined c w s (s.setTeam x) :=
  ⟨framed_setTeam x, clean_setTeam x, (congrArg Team.place (State.team_setTeam s x)).trans h, fun hl => absurd hl hp⟩

/-- The return leaves the handler of a team that is not at user level (R306). -/
theorem within_execEret : Within c w s (execEret s) := by
  refine within_next ?_
  dsimp only
  split
  · exact confined_priv _
  next hp =>
  split
  · exact confined_illegal _
  split
  · exact confined_trap _ _
  split
  · exact .refl s
  split
  · exact confined_trapVec _ _ _
  · exact (quiet_sendTouched _ _).confined
  · exact (quiet_poisonStop _ _).confined
  · have traced := quiet_traceTeam (c := c) (w := w) (s := s) 4 s.team.trappc s.team.trapseq.toNat s.team.traplidx 0
    refine traced.then (confined_privileged (traced.level ▸ hp) ?_)
    dsimp only
    split
    · rfl
    · rfl

theorem within_execBrk : Within c w s (execBrk s) :=
  within_next (.ite (.ite (quiet_setTeam (by rfl)).confined (quiet_setTeam (by rfl)).confined) (confined_trap _ _))

theorem within_execTrap (a b) : Within c w s (execTrap a b s) := within_next (.ite (confined_raise _) (confined_illegal _))

theorem within_execMark (a) : Within c w s (execMark a s) :=
  within_quiet ((quiet_traceTeam _ _ _ _ _).trans (quiet_upd rfl))

theorem within_execExt (i) : Within c w s (execExt i s) := by
  refine within_next ?_
  dsimp only
  split
  · exact confined_trapVec _ _ _
  · exact (quiet_sendTouched _ _).confined
  · exact confined_trap _ _
  · exact (quiet_poisonStop _ _).confined
  · exact .ite (confined_trap _ _) (.ite (confined_prefixed _ _) (confined_illegal _))

end Sys2Proof.Laws
end

section
/-!
Whatever a scalar or lane instruction answers is confined, and what that says of memory, of other teams and of ownership.
-/

namespace Sys2Proof.Laws

open Sys2Proof Sys2Proof.Machine

variable {s : State}

/-- The crewed bit of MOD is its field of one bit at 5. -/
theorem crewedBit_of_modF {f : LaneFields} (h : f.modF 5 1 = 1) : f.mod.getLsbD 5 = true := by
  rw [BitVec.getLsbD, Nat.testBit_eq_decide_div_mod_eq]
  exact decide_eq_true h

/-- Every scalar or lane instruction but those that reach out stays within its team. -/
theorem within_exec (i : Instr) (hn : i.nbits ≠ 0) (hr : Instr.reachesOut i = false) :
    Within (Instr.crewedCommand i) (Instr.replacesSlots i) s (exec i s) := by
  cases i
  case iadd | isub | cmp | selCc | call | fcmpF32 | lqcnt | tkrd | fmtget | nop => exact within_quiet (quiet_upd (by simp))
  case srseed => exact within_quiet (quiet_upd (by rfl))
  case brCc => exact within_quiet (quiet_upd (stand_ite (by simp) (by simp)))
  case dbnz => exact within_quiet (quiet_upd (stand_ite (by simp) (by simp)))
  case imul | imulh | imulhu | and | or | xor | shl | shr | sar | imin | imax | iminu | imaxu =>
    exact within_quiet (quiet_regOp _ _ _ _)
  case idiv | idivu | irem | iremu => exact within_next (confined_divOp _ _ _ _)
  case sxt8 | sxt16 | sxt32 | shli | shri | sari => exact within_quiet (quiet_regOp1 _ _ _)
  case iaddi => exact within_quiet (quiet_addImm _ _ _ _)
  case imuli | andi | ori | xori => exact within_quiet (quiet_immOp _ _ _ _ _)
  case cmpi => exact within_quiet (quiet_cmpImm _ _ _)
  case jr | callr | ret => exact within_next (confined_jumpTo _ (by simp))
  case ldS | ldG => exact within_guarded _ (within_next (confined_scalarLoad _ _ _ _ _))
  case stS | stG => exact within_guarded _ (within_next (confined_scalarStore _ _ _ _ _ _))
  case atomAddS | atomMinS | atomMaxS | atomMinuS | atomMaxuS | atomAndS | atomOrS | atomXorS | atomExchS | atomCasS
     | atomFaddS | atomFmaxS | atomFminS | atomAddG | atomMinG | atomMaxG | atomMinuG | atomMaxuG | atomAndG | atomOrG
     | atomXorG | atomExchG | atomCasG | atomFaddG | atomFmaxG | atomFminG =>
    exact within_next (confined_scalarAtomic _ _ _ _ _ _ _)
  case faddF32 | fsubF32 | fmulF32 | ffmaF32 => exact within_guarded _ (within_quiet (quiet_fpOp _ _ _ _ _))
  case fminF32 | fmaxF32 => exact within_quiet (quiet_fpMinMax _ _ _ _)
  case cvtF32S32 | cvtS32F32 => exact within_guarded _ (within_quiet (quiet_upd (by simp)))
  case lrun | lrunr => exact within_next (confined_runBlock _ _)
  case lsync => exact within_execLsync
  case wait => exact within_execWait _ _
  case fmtset => exact within_execFmtset _
  case mand | mor | mxor | mnot => exact within_guarded _ (within_quiet (quiet_maskOp _ _ _ _))
  case mcount | mfirst => exact within_guarded _ (within_quiet (quiet_maskRead _ _ _))
  case mtest => exact within_execMtest _
  case mset => exact within_execMset _ _ _
  case qset => exact within_execQset _ _ _
  case qget => exact within_execQget _ _ _
  case bar | barGang | launch | halt => exact absurd hr (by simp [Instr.reachesOut])
  case stexp => exact within_execStexp _ _
  case starr => exact within_guarded _ (within_next (confined_stileWrite _ _ _ _))
  case sttest | stwait => exact within_guarded _ (within_next (confined_stileTest _ _ _ _))
  case yield => exact within_execYield _ _ _
  case mwait => exact within_execMwait _ _ _
  case fence => exact within_execFence _ _
  case sub => exact within_execSub _ _ _
  case unsub | subflush => exact within_next (confined_postEnd _ _ _ _)
  case cget => exact within_execCget _ _
  case cset => exact within_execCset _ _
  case tlbw => exact within_execTlbw _ _ _
  case tlbi => exact within_execTlbi _
  case tlbrW0 | tlbrW1 => exact within_next (confined_tlbRead _ _ _ _)
  case eret => exact within_execEret
  case brk => exact within_execBrk
  case trap => exact within_execTrap _ _
  case mark => exact within_execMark _
  case ext => exact within_execExt _
  case unassignedScalarWord => exact within_next (confined_illegal _)
  case laneIadd | laneIsub | laneImul | laneImulhi | laneImad | laneIdiv | laneIrem | laneImin | laneImax | laneIabs
     | laneIneg | laneMov | laneLfn3 | laneIshl | laneIshr | laneIsar | laneIrot | laneBfext | laneBfins | laneBfrev |
     lanePopc | laneClz | laneCtz | laneIcmp | laneFcmp | laneSel | laneVote | laneFadd | laneFsub | laneFmul |
     laneFfma | laneFmin | laneFmax | laneFabs | laneFneg | laneFclass | laneFrcp | laneFrsq | laneFsqrt | laneFexp2 |
     laneFlog2 | laneFsin | laneFcos | laneFtanh | laneCvt | laneFrnd | laneBpack | laneBunpack | laneBscale |
     laneFpres | laneFdflt | laneHist | laneShfl | laneQuad =>
    exact within_next (confined_issueFixed _ _ _)
  case laneWred | laneTred => exact within_next (confined_laneReduce _ _ _ _)
  case laneLd => exact within_execLaneLd _
  case laneSt => exact within_execLaneSt _
  case lanePref => exact within_execLanePref _
  case laneAtomAdd | laneAtomMin | laneAtomMax | laneAtomAnd | laneAtomOr | laneAtomXor | laneAtomExch | laneAtomCas
     | laneAtomFadd | laneAtomFmax | laneAtomFmin =>
    exact within_next (confined_laneAtomic _ _ _ _)
  case laneRedAdd | laneRedMin | laneRedMax | laneRedAnd | laneRedOr | laneRedXor | laneRedFadd | laneRedFmax |
     laneRedFmin =>
    exact within_next (confined_laneReduction _ _ _ _)
  case mma | mmloop => exact within_next (confined_issueMatrix _ _ _ _ fun _ hm => crewedBit_of_modF hm)
  case mmzero | mmdrain | mmcheck => exact within_next (confined_issueMatrix _ _ _ _ fun ho => absurd ho (by decide))
  case pairWord => exact within_next (confined_issuePair _ _ _ _ _)
  case queueEnable | submit | launchPacket | revocationRequest | resourceSeizure | resourceGrant | claimRequest
     | claimRelease | claimDeadline | haltctlHalt | haltctlResume | haltctlStep | haltctlSave | traceEnable
     | rollCallEnable | counterSave | counterLoad | strike | selfTest | partitionJoin | quiesce | ptmExchange
     | telemetryRefresh | registerWrite | fixedLatencyWriteBack | loadDelivery | atomicReturn | reductionComplete
     | prefetchFetchEnded | storeDelayDeparture | writePerformed | reductionLinePerformed | matrixCommandStart
     | matrixStep | matrixCommandComplete | crewArrival | ferryGo | ferryLinePerformed | postcardClose
     | postcardApplication | trapEntry | escalation | dispatcherRound | headAgeExpiry | yieldDeadline | teamSave
     | queuePeriodExpiry | budgetOverrun | revocationReply | revocationDeadline | escalationEnd | escalationResume
     | escalationSave | wctlKeyLoad | wctlKeyErase | wctlGo | rotationLine | frameEvict | frameReturn | frameScrub
     | boot | powerLoss | thermalTrip | attestationReport | rollCallSample | lifetimeFlush | errorBlockClear
     | flitCrcFailure | linkUp | fabricRequestGiveUp | stopped | fabricResume | clockReduction | clockRaise
     | linkGoesDown | orderlyShutdown => exact absurd rfl hn

theorem replacesSlots_of_ne {i : Instr} (hw : ∀ d a b, i ≠ .tlbw d a b) (hi : ∀ a, i ≠ .tlbi a) : Instr.replacesSlots i = false := by
  unfold Instr.replacesSlots
  split
  · next d a b => exact absurd rfl (hw d a b)
  · next a => exact absurd rfl (hi a)
  · rfl

/-- Settles O60: every instruction of the dispatch is confined, and each clause is a part of that. -/
theorem instructionsStayInside : Obligations.InstructionsStayInside := by
  intro i s s' hn hr he
  have h := within_exec i hn hr s' he
  have place := h.place
  simp only [Team.place, Prod.mk.injEq] at place
  obtain ⟨htag, hworld, hcore, hquarter, hslot, -⟩ := place
  refine ⟨fun ht => ?_, h.others, h.owner, h.tiles, fun hw hi => h.tlb (replacesSlots_of_ne hw hi), htag, hworld, hcore,
    hquarter, hslot, h.handled⟩
  obtain ⟨-, hmem, howners, hsame, hcancelled⟩ := h.clean ht
  exact ⟨hmem, howners, hsame, hcancelled⟩

end Sys2Proof.Laws
end

section
/-!
The scalar registers (R19) and the state in which a team starts (R309, R310).
-/

namespace Sys2Proof.Machine

/-- One team of a group starts: its identity, quarter and number (State.startGroup). -/
def State.startTeam (x : Desc) (r : Grid) (gid core : Nat) (s : State) (t : Nat × Nat × Nat) : State :=
  let u := x.team r r.placed gid core t.2.1 (s.freeSlot core t.2.1) t.2.2
  let s := (s.putTeam t.1 u).giveSack t.1 r.world
  if s.traces core u.pstat.tag 7 then s.traceOut core (s.traceRecord u 7 u.pc 0 0xFFFFFFFF#32 0) else s

/-- The state in which the teams of a group start, its quarters taken. -/
def State.groupPlaced (s : State) (grid core : Nat) (qs : List Nat) : State :=
  let r := s.gridAt grid
  let x : Desc := ⟨r.words⟩
  let g : Group := { alive := true, grid := grid, linear := r.placed, core := core, nteam := x.nteam,
                     members := (List.range x.nteam).map fun i => s.nextId + 1 + i,
                     nbar := x.nbar, tilemask := BitVec.ofNat 16 x.tilemask, chanmask := x.words.getD 4 0,
                     gang := if x.gang = 0 then none else some (r.placed / x.gang), lcbase := x.words.getD 6 0,
                     lclen := x.w 7, handler := x.words.getD 8 0, extX := x.lx, extY := x.ly, extZ := x.lz }
  let s' := { ((s.putGroup s.nextId g).putGrid grid { r with placed := r.placed + 1 }) with nextId := s.nextId + 1 + x.nteam }
  qs.eraseDups.foldl (fun (v : State) q => (v.holdQuarter s.nextId q).writePins s.nextId q) s'

end Sys2Proof.Machine

namespace Sys2Proof.Laws

open Sys2Proof Sys2Proof.Machine

variable {s : State}

/-- Settles O1: s0 reads 0, and of the other registers a write changes the one that it names. -/
theorem scalarRegisterFile : Obligations.ScalarRegisterFile := by
  intro t d e x
  by_cases he : e = 0#6
  · simp [he]
  by_cases hd : e = d
  · subst hd
    simp [Team.reg_setReg_same t x he, he]
  · simp [Team.reg_setReg_other t x hd, he, hd]

/-! ### What placing a group leaves alone -/

/-- Whether a record is traced depends on the debug blocks and the queues alone. -/
theorem traces_congr {t : State} (hd : t.dbgs = s.dbgs) (hq : t.queues = s.queues) (core tag kind) :
    t.traces core tag kind = s.traces core tag kind := by
  simp only [State.traces, State.dbg, State.sees, State.functionsOf, hd, hq]

/-- Teams, debug blocks and queues are as they were. -/
structure KeepsTeams (s t : State) : Prop where
  teams  : t.teams = s.teams
  dbgs   : t.dbgs = s.dbgs
  queues : t.queues = s.queues

theorem KeepsTeams.refl (s : State) : KeepsTeams s s := ⟨rfl, rfl, rfl⟩

theorem KeepsTeams.trans {s t u : State} (h : KeepsTeams s t) (g : KeepsTeams t u) : KeepsTeams s u :=
  ⟨g.teams.trans h.teams, g.dbgs.trans h.dbgs, g.queues.trans h.queues⟩

theorem KeepsTeams.foldl {α : Type} (f : State → α → State) (hf : ∀ s a, KeepsTeams s (f s a)) (l : List α) (s : State) :
    KeepsTeams s (l.foldl f s) := by
  induction l generalizing s with
  | nil => exact .refl s
  | cons a l ih => exact (hf s a).trans (ih _)

theorem keepsTeams_grantTiles (g q : Nat) : KeepsTeams s (s.grantTiles g q) := by
  refine KeepsTeams.foldl _ (fun s i => ?_) _ s
  exact ⟨rfl, rfl, rfl⟩

theorem keepsTeams_holdQuarter (g q : Nat) : KeepsTeams s (s.holdQuarter g q) := by
  unfold State.holdQuarter
  dsimp only
  split
  · exact .refl s
  · obtain ⟨ht, hd, hq⟩ := keepsTeams_grantTiles (s := s) g q
    exact ⟨ht, hd, hq⟩

theorem keepsTeams_writePins (g q : Nat) : KeepsTeams s (s.writePins g q) := by
  refine KeepsTeams.foldl _ (fun s p => ?_) _ s
  dsimp only
  split <;> exact ⟨rfl, rfl, rfl⟩

theorem keepsTeams_assignSack (w : BitVec 8) (b : Nat) : KeepsTeams s (s.assignSack w b) := by
  refine KeepsTeams.foldl _ (fun s i => ?_) _ s
  dsimp only
  split <;> exact ⟨rfl, rfl, rfl⟩

/-- A rucksack changes the entry of its team only, and there the place of the rucksack only. -/
theorem giveSack_frame (s : State) (id : Nat) (w : BitVec 8) :
    (s.giveSack id w).dbgs = s.dbgs ∧ (s.giveSack id w).queues = s.queues
    ∧ (∃ b, (s.giveSack id w).teamAt id = { s.teamAt id with sack := b })
    ∧ ∀ j, j ≠ id → (s.giveSack id w).teamAt j = s.teamAt j := by
  unfold State.giveSack
  split
  · exact ⟨rfl, rfl, ⟨_, rfl⟩, fun _ _ => rfl⟩
  · next b _ =>
    obtain ⟨ht, hd, hq⟩ := keepsTeams_assignSack (s := s) w b
    generalize s.assignSack w b = v at ht hd hq
    refine ⟨hd, hq, ⟨some b, ?_⟩, fun j hj => ?_⟩
    · rw [State.modTeam, State.teamAt_putTeam, State.teamAt_of_teams ht]
    · rw [State.modTeam, State.teamAt_putTeam_other _ _ hj, State.teamAt_of_teams ht]

/-! ### The teams of a group -/

theorem startGroup_eq (s : State) (grid core : Nat) (qs : List Nat) :
    s.startGroup grid core qs
      = (((List.range (Desc.mk (s.gridAt grid).words).nteam).map fun i => s.nextId + 1 + i).zip qs.zipIdx).foldl
          (State.startTeam ⟨(s.gridAt grid).words⟩ (s.gridAt grid) s.nextId core) (s.groupPlaced grid core qs) := rfl

theorem keepsTeams_groupPlaced (s : State) (grid core : Nat) (qs : List Nat) : KeepsTeams s (s.groupPlaced grid core qs) := by
  unfold State.groupPlaced
  refine KeepsTeams.trans ?_ (KeepsTeams.foldl _ (fun v q => ?_) _ _)
  · exact ⟨rfl, rfl, rfl⟩
  · exact (keepsTeams_holdQuarter _ _).trans (keepsTeams_writePins _ _)

variable {x : Desc} {r : Grid} {gid core : Nat}

/-- With no trace of starts, a start changes the entry of its team only. -/
theorem startTeam_frame (t : Nat × Nat × Nat) (h : s.traces core r.tag 7 = false) :
    (State.startTeam x r gid core s t).traces core r.tag 7 = false
    ∧ (∃ slot b, (State.startTeam x r gid core s t).teamAt t.1
        = { x.team r r.placed gid core t.2.1 slot t.2.2 with sack := b })
    ∧ ∀ j, j ≠ t.1 → (State.startTeam x r gid core s t).teamAt j = s.teamAt j := by
  obtain ⟨hd, hq, ⟨b, hb⟩, ho⟩ :=
    giveSack_frame (s.putTeam t.1 (x.team r r.placed gid core t.2.1 (s.freeSlot core t.2.1) t.2.2)) t.1 r.world
  have ht := (traces_congr (s := s) hd hq core r.tag 7).trans h
  have hs : State.startTeam x r gid core s t = _ := if_neg (by simpa [Desc.team] using ht)
  rw [hs]
  refine ⟨ht, ⟨_, b, by rw [hb, State.teamAt_putTeam]⟩, fun j hj => ?_⟩
  rw [ho j hj, State.teamAt_putTeam_other _ _ hj]

/-- Starts of other teams leave a team as it is. -/
theorem startTeams_other (l : List (Nat × Nat × Nat)) {j : Nat} (h : s.traces core r.tag 7 = false)
    (hj : ∀ t ∈ l, j ≠ t.1) : (l.foldl (State.startTeam x r gid core) s).teamAt j = s.teamAt j := by
  induction l generalizing s with
  | nil => rfl
  | cons t l ih =>
    obtain ⟨ht, -, ho⟩ := startTeam_frame (x := x) (gid := gid) t h
    rw [List.foldl_cons, ih ht fun u hu => hj u (List.mem_cons_of_mem _ hu), ho j (hj t List.mem_cons_self)]

/-- Each of the teams that start, under identities of their own, is as its descriptor starts it. -/
theorem startTeams_mem (l : List (Nat × Nat × Nat)) (h : s.traces core r.tag 7 = false) (hd : (l.map Prod.fst).Nodup)
    {t : Nat × Nat × Nat} (ht : t ∈ l) : ∃ slot b, (l.foldl (State.startTeam x r gid core) s).teamAt t.1
      = { x.team r r.placed gid core t.2.1 slot t.2.2 with sack := b } := by
  induction l generalizing s with
  | nil => cases ht
  | cons u l ih =>
    obtain ⟨hu, hs, -⟩ := startTeam_frame (x := x) (gid := gid) u h
    rw [List.map_cons, List.nodup_cons] at hd
    rcases List.mem_cons.mp ht with rfl | ht
    · obtain ⟨slot, b, hs⟩ := hs
      refine ⟨slot, b, ?_⟩
      rw [List.foldl_cons, startTeams_other _ hu, hs]
      rintro v hv he
      exact hd.1 (List.mem_map.mpr ⟨v, hv, he.symm⟩)
    · exact ih hu hd.2 ht

/-- Team `i` of a group that starts. -/
theorem teamAt_startGroup (s : State) (grid core i : Nat) (qs : List Nat)
    (hi : i < qs.length) (hl : qs.length = (Desc.mk (s.gridAt grid).words).nteam)
    (h : s.traces core (s.gridAt grid).tag 7 = false) :
    ∃ slot b, (s.startGroup grid core qs).teamAt (s.nextId + 1 + i)
      = { Desc.team ⟨(s.gridAt grid).words⟩ (s.gridAt grid) (s.gridAt grid).placed s.nextId core qs[i] slot i with
          sack := b } := by
  obtain ⟨-, hd, hqs⟩ := keepsTeams_groupPlaced s grid core qs
  rw [startGroup_eq]
  refine startTeams_mem (t := (s.nextId + 1 + i, qs[i], i)) _ ((traces_congr hd hqs _ _ _).trans h) ?_ ?_
  · rw [List.map_fst_zip (by simp [hl])]
    exact List.nodup_range.map fun a b hab => by simpa using hab
  · refine List.mem_iff_getElem.mpr ⟨i, by simpa using ⟨hl ▸ hi, hi⟩, by simp⟩

/-! ### The registers and the lanes of a team that starts -/

/-- The argument block in s2 and the eight arguments in s3 to s10 (R310). -/
theorem reg_desc_team (x : Desc) (r : Grid) (g gid core q slot i : Nat) (e : BitVec 6) :
    (x.team r g gid core q slot i).reg e = if e = 2#6 then BitVec.ofNat 64 (x.w 12 + (x.nteam * g + i) * x.w 13)
      else if 3 ≤ e.toNat ∧ e.toNat ≤ 10 then x.words.getD (11 + e.toNat) 0 else 0 := by
  obtain ⟨n, hn⟩ : ∃ n, e.toNat = n := ⟨_, rfl⟩
  have he : ∀ k : BitVec 6, e = k ↔ n = k.toNat := fun k => by rw [← hn, BitVec.toNat_inj]
  simp only [Team.reg, Desc.team, he, hn, List.range, List.range.loop, List.map, Store.setAll, Store.get_set]
  by_cases h : 3 ≤ n ∧ n ≤ 10
  · obtain ⟨h3, h10⟩ := h
    interval_cases n <;> simp
  · have h' : ∀ k, 3 ≤ k → k ≤ 10 → n ≠ k := by omega
    by_cases h2 : n = 2
    · simp [h2]
    · simp [h, h', h2, Store.get]

/-- m0 of a team without a killed warp is its live lanes (R27). -/
theorem mask_zero_of_alive (t : Team) (h : t.killed = 0#32) (l : Nat) (hl : l < 1024) :
    (t.mask 0).getLsbD l = decide (l < t.live) := by
  have hw : warpMask 0#32 = 0 := by decide
  simp only [Team.mask, Team.m0, h, hw, if_true, BitVec.getLsbD_and, BitVec.getLsbD_not, BitVec.getLsbD_ofNat,
    Nat.testBit_two_pow_sub_one, Nat.zero_testBit]
  simp [hl]

/-- Settles O45: the fold that starts the teams of the group puts each of them as its descriptor says. -/
theorem teamAtLaunch : Obligations.TeamAtLaunch := by
  intro s grid core i qs r x id t hi hl htr _
  have hq : i < qs.length := hl ▸ hi
  obtain ⟨slot, b, ht⟩ := teamAt_startGroup s grid core i qs hq hl htr
  change t = _ at ht
  clear_value t
  subst ht
  refine ⟨rfl, rfl, rfl, rfl, rfl, rfl, rfl, rfl, rfl, List.getElem?_eq_getElem _, rfl, reg_desc_team x r r.placed s.nextId core qs[i] slot i,
    fun _ => rfl, fun _ => rfl, fun _ => rfl, rfl, rfl, rfl, rfl, rfl, fun l h => ?_⟩
  rw [mask_zero_of_alive _ rfl l h]
  change decide (l < min (32 * x.nwarp) (x.lanes - (x.perGroup * r.placed + 32 * x.nwarp * i))) = _
  exact decide_eq_decide.mpr (by omega)

end Sys2Proof.Laws
end

section
/-!
What a step runs (R37, R49, R168, R185, R314): the scalar stream, the head of a lane queue, and a hardware event.
-/

namespace Sys2Proof.Laws

open Sys2Proof Sys2Proof.Machine

variable {s : State}

/-! ### The scalar stream -/

/-- A team that runs is not parked, and has no halt to take. -/
theorem runs_frees {t : Team} (h : t.runs = true) : t.park = none ∧ t.haltHere = false := by
  simp only [Team.runs, Team.stands, Bool.and_eq_true, Bool.or_eq_true, Bool.not_eq_true', Option.isNone_iff_eq_none] at h
  obtain ⟨⟨⟨⟨⟨-, hp⟩, -⟩, -⟩, -⟩, hr⟩ := h
  refine ⟨hp, ?_⟩
  rcases hr with hr | ⟨⟨-, hq⟩, hb⟩
  · simp [Team.haltHere, hr]
  · simp [Team.haltHere, hq, hb]

theorem unpark_of_runs (h : s.team.park = none) : s.unpark = s := by
  simp [State.unpark, h]

theorem causeWaits_of_async {t : Team} (h : t.async = []) : t.causeWaits = false := by
  simp [Team.causeWaits, h, firstCause]

theorem takeCause_of_async (h : s.team.async = []) : s.takeCause = none := by
  simp [State.takeCause, h, firstCause]

/-- A point without a match, or at which a breakpoint has acted, has no breakpoint. -/
theorem breakpoint_none {lane : Option Nat}
    (h : s.team.bpSkip = some (s.team.pc, lane) ∨ s.breakAt s.team lane = none) : s.breakpoint lane = (s, false) := by
  unfold State.breakpoint
  rcases h with h | h
  · simp [h]
  · simp [h]

/-- A scalar stream that is ready issues, and completion is noted. -/
theorem scalarAct_of_ready (h : s.scalarReady) : scalarAct s = scalarRun s := by
  obtain ⟨hr, hq, ha, hb, hh⟩ := h
  obtain ⟨hp, hhalt⟩ := runs_frees hr
  have hbp : (if s.team.lidx.isNone && !s.team.pastPoint then s.breakpoint none else (s, false)) = (s, false) := by
    split
    · next hc =>
      rw [Bool.and_eq_true, Option.isNone_iff_eq_none, Bool.not_eq_true'] at hc
      exact breakpoint_none (by simpa [hc.1, hc.2] using hb)
    · rfl
  have hgo : scalarGo s = scalarRun s := by
    unfold scalarGo
    dsimp only
    rw [hbp, hh, takeCause_of_async ha, causeWaits_of_async ha]
    rfl
  simp [scalarAct, unpark_of_runs hp, hhalt, hq, hr, hgo]

/-- The completion that follows whatever a scalar stream answers. -/
theorem scalarRun_eq (s : State) :
    scalarRun s = thenDo (scalarIssue s) fun v => v.afterScalar { s.team with came := none } := by
  unfold scalarRun
  cases scalarIssue s <;> rfl

/-- The end of a cycle follows whatever is answered. -/
theorem tick_eq (o : Out) : tick o = thenDo o State.endCycle := by
  unfold tick thenDo
  cases o with
  | next v => rfl
  | fault f => rfl
  | refused r => rfl

theorem tick_thenDo (o : Out) (f : State → State) : tick (thenDo o f) = thenDo o fun v => (f v).endCycle := by
  rw [tick_eq]
  unfold thenDo
  cases o with
  | next v => rfl
  | fault f => rfl
  | refused r => rfl

/-- A step with a scalar stream next that is ready. -/
theorem step_of_scalarReady {id : Nat} {rest : List Act} (h : s.script = .scalar id :: rest)
    (hr : State.scalarReady { s with script := rest, cur := id }) :
    step s = thenDo (scalarIssue { s with script := rest, cur := id }) fun v =>
      (v.afterScalar { ({ s with script := rest, cur := id } : State).team with came := none }).endCycle := by
  simp only [step, stepOf, h, act]
  rw [scalarAct_of_ready hr, scalarRun_eq, tick_thenDo]

/-- With nothing under way the stream fetches. -/
theorem scalarIssue_fetch (hg : s.team.going = none) (hl : s.team.lidx = none ∨ s.team.lhdr = none) :
    scalarIssue s = fetchIssue s := by
  unfold scalarIssue
  rcases hl with h | h <;> simp [h, hg]

/-- An instruction past its instant goes on. -/
theorem scalarIssue_going {w : BitVec 32} (hg : s.team.going = some w) (hl : s.team.lidx = none ∨ s.team.lhdr = none) :
    scalarIssue s = exec (decodeScalar w.toNat) s := by
  unfold scalarIssue
  rcases hl with h | h <;> simp [h, hg]

theorem headerOf_lrun {t : Team} {w : Nat} (h : (∃ d, decodeScalar w = .lrun d) ∨ ∃ a, decodeScalar w = .lrunr a) :
    (s.headerOf t w).isNone = false := by
  unfold State.headerOf
  rcases h with ⟨d, h⟩ | ⟨a, h⟩ <;> rw [h] <;> rfl

/-- A word that is fetched runs, where no prefix stands before it and no other block is part-way through. -/
theorem fetchIssue_word {w : Nat} (hf : s.fetchAt s.team s.team.pc.toNat 4 = .word w)
    (hb : s.badTarget s.team (some (decodeScalar w)) = false)
    (hl : s.team.lidx = none ∨ (∃ d, decodeScalar w = .lrun d) ∨ ∃ a, decodeScalar w = .lrunr a) :
    fetchIssue s = exec (decodeScalar w) (s.setTeam { s.team with came := none }) := by
  have hh : (s.team.lidx.isSome && (s.headerOf s.team w).isNone) = false := by
    rcases hl with h | h
    · simp [h]
    · simp [headerOf_lrun h]
  simp [fetchIssue, hf, hb, hh]

theorem scalarSteps : Claims.ScalarSteps := by
  intro s id rest hs u t ends hr
  have hstep : step s = thenDo (scalarIssue u) ends := step_of_scalarReady hs hr
  refine ⟨fun w i hg hl hf hi hb hx => ?_, fun keys hg hl hf => ?_, fun w hg hl => ?_, fun n b hl hh => ?_⟩
  · subst hi
    rw [hstep, scalarIssue_fetch hg hl, fetchIssue_word hf hb hx]
  · have hw : fetchIssue u = .next (u.sendTouched id keys) := by simp only [fetchIssue, hf]; rfl
    rw [hstep, scalarIssue_fetch hg hl, hw]
    rfl
  · rw [hstep, scalarIssue_going hg hl]
  · have hw : scalarIssue u = .next (u.enqueueFrom b (64 - u.team.laneq.length) n) := by
      simp [scalarIssue, hl, hh, laneQueueSize]
    rw [hstep, hw]
    rfl

theorem scalarCompletion : Claims.ScalarCompletion := by
  intro v t htr hc he hstp hso hh
  have hl : (if v.team.lastRun = some t.pc then v.team.lastRun else none)
      = if v.team.lastRun = some t.pc then some t.pc else none := by
    split <;> simp_all
  simp [State.afterScalar, htr, hc, he, hstp, hso, hh, hl, Team.issuesScalar, Team.issuesUntil]

/-! ### Lane queues and pipes -/

/-- A lane queue that may issue asks its pipes. -/
theorem laneAct_of_laneRuns {e : LaneEntry} {es : List LaneEntry} (h : s.laneRuns) (hq : s.team.laneq = e :: es) :
    laneAct s = laneIssue s.team e s := by
  obtain ⟨hl, hh, hs, hk, ha, hr, hb⟩ := h
  have hhalt : s.team.haltHere = false := by simp [Team.haltHere, hr, hb]
  have hstop : s.team.stopsAtHead = false := by simp [Team.stopsAtHead, causeWaits_of_async ha]
  simp [laneAct, hl, hh, hs, hk, hhalt, hq, hstop]

theorem laneSteps : Claims.LaneSteps := by
  intro s id rest e es i hs u w hr hq
  have hstep : step s = tick (laneIssue u.team e u) := by
    simp only [step, stepOf, hs, act]
    rw [laneAct_of_laneRuns hr hq]
  refine ⟨fun p hp hi => ?_, fun hp => ?_⟩
  · have hw : laneIssue u.team e u = thenDo (exec i u) fun v =>
        (v.takePipe u.team.gq p u.team.slot (max v.team.lastIssue (u.cycle + 1)) (w / 2 ^ 92 % 16 == 15)).afterLane u.team e := by
      simp only [laneIssue, show e.word.toNat = w from rfl, hp, hi]
      cases exec i u <;> rfl
    rw [hstep, hw, tick_thenDo]
  · have hw : laneIssue u.team e u = .next u := by
      simp only [laneIssue, show e.word.toNat = w from rfl, hp]
    rw [hstep, hw]
    rfl

/-- The first of the next sixteen places, in round-robin order, that is in a list. -/
theorem nextSlot_eq_some {l : List Nat} {last slot : Nat} : nextSlot l (some last) = some slot ↔
    ∃ d, 1 ≤ d ∧ d ≤ 16 ∧ slot = (last + d) % 16 ∧ slot ∈ l ∧ ∀ e, 1 ≤ e → e < d → (last + e) % 16 ∉ l := by
  simp only [nextSlot, List.find?_eq_some_iff_getElem, List.contains_iff_mem, List.getElem_map, List.getElem_range,
    List.length_map, List.length_range, Bool.not_eq_true', Bool.eq_false_iff, ne_eq]
  constructor
  · rintro ⟨hm, i, hi, rfl, hb⟩
    refine ⟨i + 1, by omega, by omega, by congr 1; omega, hm, fun e h1 he => ?_⟩
    have := hb (e - 1) (by omega)
    rwa [show last + 1 + (e - 1) = last + e by omega] at this
  · rintro ⟨d, h1, h16, rfl, hm, hb⟩
    refine ⟨hm, d - 1, by omega, by congr 1; omega, fun e he => ?_⟩
    have := hb (e + 1) (by omega) (by omega)
    rwa [show last + (e + 1) = last + 1 + e by omega] at this

/-- The places of the Ready teams of a quarter. -/
theorem mem_readySlots {gq p n : Nat} :
    n ∈ (s.teams.filter fun t => t.2.gq == gq && s.laneReady p t.2).map (fun t => t.2.slot)
      ↔ ∃ t ∈ s.teams, t.2.gq = gq ∧ t.2.slot = n ∧ s.laneReady p t.2 = true := by
  simp only [List.mem_map, List.mem_filter, Bool.and_eq_true, beq_iff_eq]
  constructor
  · rintro ⟨t, ⟨ht, hg, hr⟩, rfl⟩
    exact ⟨t, ht, hg, rfl, hr⟩
  · rintro ⟨t, ht, hg, rfl, hr⟩
    exact ⟨t, ⟨ht, hg, hr⟩, rfl⟩

/-- Classes 8 to A issue on pipe Y alone, and a pair word when X selects its team (R49). -/
theorem mem_selectors {w p : Nat} (h : p ∈ selectors w) :
    (w / 2 ^ 92 % 16 = 15 → p = 0) ∧ (8 ≤ w / 2 ^ 92 % 16 → w / 2 ^ 92 % 16 ≤ 10 → p = 1) := by
  unfold selectors at h
  rw [show fld w 92 4 = w / 2 ^ 92 % 16 from rfl] at h
  dsimp only at h
  split at h
  · next hc => exact ⟨fun _ => List.mem_singleton.mp h, fun _ hle => by omega⟩
  split at h
  · next hc hy => exact ⟨fun hf => absurd hf hc, fun _ _ => List.mem_singleton.mp h⟩
  · next hc hy => exact ⟨fun hf => absurd hf hc, fun h8 hA => absurd ⟨h8, hA⟩ hy⟩

theorem pipeSelection : Claims.PipeSelection := by
  intro s gq p slot x ready
  refine ⟨fun hb => ?_, fun hf => ?_, fun t w hs => ?_⟩
  · exact if_pos hb
  · have hp : s.picks gq p
        = nextSlot ((s.teams.filter fun t => t.2.gq == gq && s.laneReady p t.2).map fun t => t.2.slot) (some x.last) :=
      if_neg (Nat.not_lt.mpr hf)
    rw [hp, nextSlot_eq_some]
    simp only [mem_readySlots]
    rfl
  · have hm := List.mem_of_find?_eq_some hs
    have hp := List.find?_some hs
    exact ⟨by simpa using hp, mem_selectors hm⟩

/-! ### Events -/

theorem eventSteps : Claims.EventSteps := by
  intro s rest
  refine ⟨fun i unit item hs => ?_, fun fn two off x reg hs hb => ?_⟩
  · simp only [step, stepOf, hs, act, tick_eq]
  · simp only [step, stepOf, hs, act, tick_eq, State.writeBar, hb]
    rfl

/-- Settles O57, stream by stream. -/
theorem stepRunsDecoded : Obligations.StepRunsDecoded :=
  ⟨scalarSteps, scalarCompletion, laneSteps, pipeSelection, eventSteps⟩

end Sys2Proof.Laws
end

section
/-!
What an access or a fetch finds depends on memory, on its tables and on the team that makes it, and not on what the table of
teams holds (R90, R122, R168); and a table that is written twice at one key.
-/

namespace Sys2Proof.Laws

open Sys2Proof Sys2Proof.Machine

variable {s : State} {t u : Team}

/-! ### A table is written twice at one key -/

theorem erase_of_forall_ne {α : Type} {m : List (Nat × α)} {k : Nat} (h : ∀ p ∈ m, p.1 ≠ k) : Store.erase m k = m :=
  List.filter_eq_self.mpr fun p hp => by simpa using h p hp

theorem erase_insert {α : Type} (k : Nat) (v : α) (m : List (Nat × α)) (h : ∀ p ∈ m, p.1 ≠ k) :
    Store.erase (Store.insert k v m) k = m := by
  induction m with
  | nil => simp [Store.insert, Store.erase]
  | cons p m ih =>
    have hp : p.1 ≠ k := h p List.mem_cons_self
    have hm : ∀ q ∈ m, q.1 ≠ k := fun q hq => h q (List.mem_cons_of_mem _ hq)
    have he := erase_of_forall_ne hm
    have hi := ih hm
    simp only [Store.erase] at he hi
    unfold Store.insert
    split
    · simp [Store.erase, hp, he]
    · simp [Store.erase, hp, hi]

theorem erase_set {α : Type} [DecidableEq α] (d : α) (m : List (Nat × α)) (k : Nat) (v : α) :
    Store.erase (Store.set d m k v) k = Store.erase m k := by
  unfold Store.set
  split
  · exact erase_of_forall_ne (Store.not_mem_erase m k)
  · exact erase_insert k v _ (Store.not_mem_erase m k)

/-- The later of two writes of one key stands. -/
theorem set_set {α : Type} [DecidableEq α] (d : α) (m : List (Nat × α)) (k : Nat) (v w : α) :
    Store.set d (Store.set d m k v) k w = Store.set d m k w := by
  rw [Store.set, erase_set]
  rfl

theorem setTeam_twice (s : State) (t u : Team) : (s.setTeam t).setTeam u = s.setTeam u := by
  simp only [State.setTeam, State.putTeam, set_set]

/-! ### The table of teams takes no part -/

@[simp] theorem rangeOf_setTeam : (s.setTeam u).rangeOf = s.rangeOf := by
  funext k
  unfold State.rangeOf
  rw [State.setTeam_remotes]

@[simp] theorem place_setTeam : (s.setTeam u).place = s.place := by
  funext k
  unfold State.place
  rw [rangeOf_setTeam]
  cases s.rangeOf k with
  | none => rfl
  | some n => rfl

@[simp] theorem unreachable_setTeam : (s.setTeam u).unreachable = s.unreachable := by
  funext k
  unfold State.unreachable State.linkOf
  rw [rangeOf_setTeam]
  cases s.rangeOf k with
  | none => rfl
  | some n => rfl

@[simp] theorem poisoned_setTeam : (s.setTeam u).poisoned = s.poisoned := by
  funext k
  simp only [State.poisoned, State.tampered, place_setTeam, State.setTeam_poison, State.setTeam_tampers]

@[simp] theorem homeByte_setTeam : (s.setTeam u).homeByte = s.homeByte := by
  funext g k
  unfold State.homeByte
  rw [place_setTeam]
  rfl

@[simp] theorem loadByte_setTeam : (s.setTeam u).loadByte t = s.loadByte t := by
  funext k
  simp only [State.loadByte, homeByte_setTeam]

@[simp] theorem check_setTeam : (s.setTeam u).check t = s.check t := by rfl

@[simp] theorem mustWait_setTeam : (s.setTeam u).mustWait t = s.mustWait t := by
  funext keys
  have hb (id k : Nat) : (s.setTeam u).bufferedFor id k = s.bufferedFor id k := by
    simp only [State.bufferedFor, State.sameLine, place_setTeam, State.setTeam_redbuf]
  have hr : (s.setTeam u).renamed t keys = s.renamed t keys := by simp only [State.renamed, place_setTeam]
  simp only [State.mustWait, hb, hr]
  rfl

@[simp] theorem fetchAt_setTeam : (s.setTeam u).fetchAt t = s.fetchAt t := by
  funext va n
  simp only [State.fetchAt, State.fetch, State.fetched, State.load, State.loadPoisoned, check_setTeam, mustWait_setTeam,
    loadByte_setTeam, poisoned_setTeam, unreachable_setTeam]
  rfl

@[simp] theorem enqueueFault_setTeam : (s.setTeam u).enqueueFault t = s.enqueueFault t := by
  funext w mf
  simp only [State.enqueueFault, State.tileOwned, State.groupOf, State.groupAt_setTeam, State.owner_setTeam]
  rfl

/-! ### What of the team takes part -/

/-- A check depends on the place, the tag and the world of the team. -/
theorem check_team (hp : u.pstat = t.pstat) (hc : u.core = t.core) (hq : u.quarter = t.quarter) : s.check u = s.check t := by
  funext g need lane ea n
  unfold State.check Team.gq
  rw [hp, hc, hq]

/-- A load depends on the store-delay queue and the tag of the team (R122). -/
theorem loadByte_team (hs : u.sdq = t.sdq) (hp : u.pstat = t.pstat) : s.loadByte u = s.loadByte t := by
  funext k
  simp only [State.loadByte, hs, hp]

/-- A fetch depends on both, and on what stores of the team it may still see unwritten (R168). -/
theorem fetchAt_team (hs : u.sdq = t.sdq) (hp : u.pstat = t.pstat) (hc : u.core = t.core) (hq : u.quarter = t.quarter)
    (hl : u.stale = t.stale) : s.fetchAt u = s.fetchAt t := by
  funext va n
  simp only [State.fetchAt, State.fetch, check_team hp hc hq, State.fetched, State.load, loadByte_team hs hp, State.mustWait,
    State.renamed, State.loadPoisoned, hs, hl]
  rfl

/-! ### Fetches at addresses that agree modulo 2^64 -/

theorem eq_nil_of_worst {l : List Fail} (h : worst l = none) : l = [] := by
  cases l with
  | nil => rfl
  | cons f l =>
    unfold worst at h
    split at h
    · cases h
    · split at h <;> cases h

/-- A check of a G-address that finds nothing has translated every byte (R90). -/
theorem translates_of_checkG {gq need lane ea n : Nat} {tag : BitVec 16} {world : BitVec 8}
    (h : (s.checkG gq tag world need lane ea n).fails = []) (i : Nat) (hi : i < n) :
    ∃ p, s.translate gq tag world need ((ea + i) % 2 ^ 64) = .ok p := by
  unfold State.checkG at h
  dsimp only at h
  split at h
  · next hk =>
    have hn := List.filterMap_eq_nil_iff.mp (List.isEmpty_iff.mp hk) _ (List.mem_map.mpr ⟨i, List.mem_range.mpr hi, rfl⟩)
    cases ht : s.translate gq tag world need ((ea + i) % 2 ^ 64) with
    | ok p => exact ⟨p, rfl⟩
    | error c => simp only [ht, reduceCtorEq] at hn
  · next hk => exact absurd (List.isEmpty_iff.mpr h) hk

/-- The keys of a G-access whose bytes are all translated. -/
theorem checkG_of_translates {gq need lane ea n : Nat} {tag : BitVec 16} {world : BitVec 8}
    (h : ∀ i, i < n → ∃ p, s.translate gq tag world need ((ea + i) % 2 ^ 64) = .ok p) :
    s.checkG gq tag world need lane ea n
      = { keys := (List.range n).filterMap fun i => (s.translate gq tag world need ((ea + i) % 2 ^ 64)).toOption } := by
  unfold State.checkG
  dsimp only
  rw [if_pos]
  · rw [List.filterMap_map]
    congr 1
    refine List.filterMap_congr fun i hi => ?_
    obtain ⟨p, hp⟩ := h i (List.mem_range.mp hi)
    simp only [Function.comp_apply, hp]
    rfl
  · refine List.isEmpty_iff.mpr (List.filterMap_eq_nil_iff.mpr fun r hr => ?_)
    obtain ⟨i, hi, rfl⟩ := List.mem_map.mp hr
    obtain ⟨p, hp⟩ := h i (List.mem_range.mp hi)
    simp only [hp]

/-- A check that finds nothing depends on the address modulo 2^64 (R91). -/
theorem check_congr {g va vb n : Nat} (h : va % 2 ^ 64 = vb % 2 ^ 64) (hc : (s.check t true g 0 va n).fails = []) :
    s.check t true g 0 vb n = s.check t true g 0 va n := by
  have hmod (i : Nat) : (vb + i) % 2 ^ 64 = (va + i) % 2 ^ 64 := by omega
  simp only [State.check, if_true] at hc ⊢
  split at hc
  · cases hc
  next hw =>
  have ht := translates_of_checkG hc
  have heq : s.checkG t.gq t.pstat.tag t.pstat.world g 0 vb n = s.checkG t.gq t.pstat.tag t.pstat.world g 0 va n := by
    rw [checkG_of_translates ht, checkG_of_translates (by simpa only [hmod] using ht)]
    simp only [hmod]
  rw [heq, if_neg hw, if_neg hw]

/-- A word that is fetched is fetched at every address that agrees modulo 2^64. -/
theorem fetchAt_congr {va vb n w : Nat} (h : va % 2 ^ 64 = vb % 2 ^ 64) (hf : s.fetchAt t va n = .word w) :
    s.fetchAt t vb n = .word w := by
  have hc : (s.check t true needX 0 va n).fails = [] := by
    apply eq_nil_of_worst
    unfold State.fetchAt State.fetch at hf
    dsimp only at hf
    cases hw : worst (s.check t true needX 0 va n).fails with
    | none => rfl
    | some f => simp [hw] at hf
  rw [← hf]
  simp only [State.fetchAt, State.fetch, check_congr h hc, State.fetched, h]

end Sys2Proof.Laws
end

section
/-!
A block of lane instructions goes into the lane queue (R37, R39, R41, R182).
-/

namespace Sys2Proof.Machine

/-- What the entry of word `w`, number `n` of a block, has captured of the team that enqueues it. -/
def Team.Captured (t : Team) (w n : Nat) (e : LaneEntry) : Prop :=
  e.word = BitVec.ofNat 96 w ∧ e.lidx = n ∧ e.pc = t.pc ∧ e.seq = t.seqctr + BitVec.ofNat 32 n
    ∧ e.x = t.reg (BitVec.ofNat 6 w) ∧ e.y = t.reg (BitVec.ofNat 6 (w / 2 ^ 8))
    ∧ e.fmt = t.fmt ∧ e.seed = t.srseed ∧ e.hist = t.histbase ∧ e.chk = t.pstat.chk

/-- The team after the first `n` words of a block: their entries stand behind its queue, and SEQCTR has advanced by `n`. -/
def Team.Enqueued (t : Team) (w : Nat → Nat) (n : Nat) (u : Team) : Prop :=
  ∃ es : List LaneEntry, es.length = n ∧ (∀ k, k < n → ∃ e, es[k]? = some e ∧ t.Captured (w k) k e)
    ∧ ∃ ctr skip, u = { t with
        laneq := t.laneq ++ es, seqctr := t.seqctr + BitVec.ofNat 32 n, lcptr := u.lcptr, srctr := ctr, bpSkip := skip }

/-- The team after one more word: what the word captures goes behind the queue, and the counters advance. -/
def Team.enqueueWord (t : Team) (w n : Nat) (holds : Bool) (lcptr : Word) : Team :=
  Team.countEnqueue { t with laneq := t.laneq ++ [t.capture w t.pc n holds], lcptr := lcptr, bpSkip := none } w

end Sys2Proof.Machine

namespace Sys2Proof.Laws

open Sys2Proof Sys2Proof.Machine

variable {s : State} {t u : Team} {w : Nat → Nat} {k : Nat}

/-! ### The words of a block -/

/-- What a block changes while it is enqueued takes no part in a fetch. -/
theorem fetchAt_enqueued (h : t.Enqueued w k u) (va n : Nat) : (s.setTeam u).fetchAt u va n = s.fetchAt t va n := by
  obtain ⟨es, -, -, a, b, hu⟩ := h
  rw [fetchAt_setTeam, hu]
  exact congrFun (congrFun (fetchAt_team rfl rfl rfl rfl rfl) va) n

/-- Nor in the checks at enqueue. -/
theorem enqueueFault_enqueued (h : t.Enqueued w k u) (x : Nat) (mf : Bool) :
    (s.setTeam u).enqueueFault u x mf = s.enqueueFault t x mf := by
  obtain ⟨es, -, -, a, b, hu⟩ := h
  rw [enqueueFault_setTeam, hu]
  unfold State.enqueueFault
  cases decodeLane x with
  | error _ => rfl
  | ok i => rfl

/-- On a core without breakpoints none acts. -/
theorem breakpoint_of_bps {lane : Option Nat} (h : (s.dbg s.team.core).bps = []) : s.breakpoint lane = (s, false) := by
  have hb : s.breakAt s.team lane = none := by simp [State.breakAt, h]
  simp [State.breakpoint, hb]

theorem laneWord_x (w : Nat) : (laneFields w).imm.truncate 6 = BitVec.ofNat 6 w := by
  apply BitVec.eq_of_toNat_eq
  simp only [laneFields, bfld, fld, BitVec.truncate_eq_setWidth, BitVec.toNat_setWidth, BitVec.toNat_ofNat]
  omega

theorem laneWord_y (w : Nat) : BitVec.ofNat 6 ((laneFields w).immF 8 6) = BitVec.ofNat 6 (w / 2 ^ 8) := by
  apply BitVec.eq_of_toNat_eq
  simp only [LaneFields.immF, laneFields, bfld, fld, BitVec.toNat_ofNat]
  omega

/-- Before its first word a block has enqueued nothing. -/
theorem enqueued_zero (t : Team) (w : Nat → Nat) (lcptr : Word) : t.Enqueued w 0 { t with lcptr := lcptr } :=
  ⟨[], rfl, fun _ hk => absurd hk (Nat.not_lt_zero _), t.srctr, t.bpSkip, by simp⟩

/-- One more word. -/
theorem enqueued_succ (h : t.Enqueued w k u) (holds : Bool) (lcptr : Word) :
    t.Enqueued w (k + 1) (u.enqueueWord (w k) k holds lcptr) := by
  obtain ⟨es, hl, he, ctr, skip, hu⟩ := h
  have hseq : t.seqctr + BitVec.ofNat 32 (k + 1) = t.seqctr + BitVec.ofNat 32 k + 1 := by
    rw [BitVec.add_assoc, ← BitVec.ofNat_add_ofNat]
    rfl
  have hc : t.Captured (w k) k (u.capture (w k) u.pc k holds) := by
    rw [hu]
    refine ⟨rfl, rfl, rfl, rfl, ?_, ?_, rfl, rfl, rfl, rfl⟩
    · exact congrArg t.reg (laneWord_x _)
    · exact congrArg t.reg (laneWord_y _)
  refine ⟨es ++ [u.capture (w k) u.pc k holds], by simp [hl], fun n hn => ?_, (u.enqueueWord (w k) k holds lcptr).srctr, none, ?_⟩
  · rcases Nat.lt_succ_iff_lt_or_eq.mp hn with hn | rfl
    · obtain ⟨e, hx, hc⟩ := he n hn
      exact ⟨e, by rw [List.getElem?_append_left (hl ▸ hn), hx], hc⟩
    · exact ⟨_, by rw [List.getElem?_append_right hl.le, hl, Nat.sub_self]; rfl, hc⟩
  · rw [hseq, ← List.append_assoc, hu]
    rfl

theorem enqueueOne_word {b : LaneBlock} {i x : Nat} (hf : s.fetchAt s.team (b.hdr.toNat + 12 * (1 + i)) 12 = .word x)
    (he : s.enqueueFault s.team x (b.mf || s.team.pstat.chk) = none) : ∃ holds, s.enqueueOne b i
      = (s.setTeam (s.team.enqueueWord x i holds (BitVec.ofNat 64 (b.hdr.toNat + 12 * (1 + i) + 12))), true) := by
  unfold State.enqueueOne
  simp only [hf, he]
  exact ⟨_, rfl⟩

/-- Every word of a block that finds room goes into the queue, and the block is over. -/
theorem enqueueFrom_words {hdr len : Nat} {mf : Bool} (hb : (s.dbg t.core).bps = []) (hst : t.stepOnce = false)
    (hw : ∀ n, n < len → s.fetchAt t (hdr + 12 * (n + 1)) 12 = .word (w n)
      ∧ s.enqueueFault t (w n) (mf || t.pstat.chk) = none) (fuel i : Nat) (hi : i ≤ len) (hf : len ≤ fuel + i)
    (h : t.Enqueued w i u) (hp : u.lcptr = BitVec.ofNat 64 (hdr + 12 * (i + 1))) :
    ∃ v, t.Enqueued w len v ∧ v.lcptr = BitVec.ofNat 64 (hdr + 12 * (len + 1))
      ∧ (s.setTeam u).enqueueFrom ⟨BitVec.ofNat 64 hdr, len, mf⟩ fuel i = s.setTeam (v.atIndex ⟨BitVec.ofNat 64 hdr, len, mf⟩ len) := by
  induction fuel generalizing i u with
  | zero =>
    obtain rfl : i = len := by omega
    refine ⟨u, h, hp, ?_⟩
    rw [State.enqueueFrom, State.upd, State.team_setTeam, setTeam_twice]
  | succ fuel ih =>
    rcases hi.eq_or_lt with rfl | hi
    · refine ⟨u, h, hp, ?_⟩
      rw [State.enqueueFrom, if_pos (by exact le_refl i), State.upd, State.team_setTeam, setTeam_twice]
    obtain ⟨hfetch, hfault⟩ := hw i hi
    obtain ⟨hcore, hchk, hstep⟩ : u.core = t.core ∧ u.pstat = t.pstat ∧ u.stepOnce = t.stepOnce := by
      obtain ⟨es, -, -, a, b, hu⟩ := h
      rw [hu]
      exact ⟨rfl, rfl, rfl⟩
    have hbp : (s.setTeam u).breakpoint (some i) = (s.setTeam u, false) :=
      breakpoint_of_bps (by rw [State.team_setTeam, hcore]; exact hb)
    obtain ⟨holds, hone⟩ := enqueueOne_word (s := s.setTeam u) (b := ⟨BitVec.ofNat 64 hdr, len, mf⟩) (i := i) (x := w i)
      (by
        rw [State.team_setTeam, fetchAt_enqueued h]
        exact fetchAt_congr (by simp only [BitVec.toNat_ofNat]; omega) hfetch)
      (by rw [State.team_setTeam, enqueueFault_enqueued h, hchk, hfault])
    rw [State.team_setTeam, setTeam_twice] at hone
    obtain ⟨v, hv, hvp, he⟩ := ih (i + 1) hi (by omega)
      (enqueued_succ h holds (BitVec.ofNat 64 ((BitVec.ofNat 64 hdr).toNat + 12 * (1 + i) + 12))) (by
      apply BitVec.eq_of_toNat_eq
      simp only [Team.enqueueWord, Team.countEnqueue, BitVec.toNat_ofNat]
      omega)
    refine ⟨v, hv, hvp, ?_⟩
    rw [← he, State.enqueueFrom, if_neg (by exact not_le.mpr hi)]
    simp only [hbp, Bool.false_eq_true, if_false, hone, State.team_setTeam, hstep, hst, Bool.not_true]

/-- A block whose header is read from outside any `lrun` goes from its first word. -/
theorem runBlock_block {word hdr len : Nat} {mf : Bool} (hh : s.header s.team hdr = .block len mf) (hl : s.team.lidx = none)
    (hq : s.team.laneq.length < 64) :
    s.runBlock word hdr = (s.setTeam { s.team with lcptr := BitVec.ofNat 64 (hdr + 12) }).enqueueFrom
      ⟨BitVec.ofNat 64 hdr, len, mf⟩ (64 - s.team.laneq.length) 0 := by
  conv_lhs =>
    unfold State.runBlock
    simp only [hl, hh, laneQueueSize]
  exact if_neg (Nat.not_le.mpr hq)

/-- Settles O12, by induction on the room in the queue. -/
theorem blockEnqueued : Obligations.BlockEnqueued := by
  intro s i hdr len mf w t hi hh hl hq h1 hb hst hw
  have hx : ∃ word, exec i s = .next (s.runBlock word hdr) := by
    rcases hi with ⟨d, rfl, rfl⟩ | ⟨a, rfl, rfl⟩ <;> exact ⟨_, rfl⟩
  obtain ⟨word, hx⟩ := hx
  obtain ⟨v, hv, hvp, he⟩ := enqueueFrom_words (s := s) (t := t) (mf := mf) hb hst hw (64 - t.laneq.length) 0 (by omega) (by omega)
    (enqueued_zero t w (BitVec.ofNat 64 (hdr + 12))) rfl
  rw [runBlock_block hh hl (by change t.laneq.length < 64; omega), he] at hx
  have hat : v.atIndex ⟨BitVec.ofNat 64 hdr, len, mf⟩ len
      = { v.advance with lidx := none, lhdr := none, lastRun := some v.pc } := if_pos (le_refl len)
  obtain ⟨es, hlen, hes, ctr, skip, hu⟩ := hv
  refine ⟨_, es, hx, ?_, hlen, ?_⟩
  · rw [hat, hu]; rfl
  rw [hat]
  refine ⟨?_, ?_, rfl, ?_, ?_, ?_, ?_, ?_, hvp, fun n hn => ?_⟩
  · rw [hu]; rfl
  · rw [hu]; rfl
  · rw [hu]; rfl
  · rw [hu]; rfl
  · rw [hu]; rfl
  · rw [hu]; rfl
  · rw [hu]; rfl
  · obtain ⟨e, hx, hc⟩ := hes n hn
    exact ⟨e, hx, hc⟩

end Sys2Proof.Laws
end

section
/-!
Control registers (R20 to R23, R190): what `cget` reads and what `cset` writes.
-/

namespace Sys2Proof.Laws

open Sys2Proof Sys2Proof.Machine

variable {s : State}

/-! ### `cget` -/

/-- A register is written and the next instruction follows. -/
theorem setReg_advance (t : Team) (d : BitVec 6) (x : Word) : (t.setReg d x).advance = t.wrote d x 4 := by
  unfold Team.setReg Team.wrote
  split <;> rfl

theorem exec_cget_priv (d : BitVec 6) {r : BitVec 6} (hr : r.toNat < 16) (hp : s.team.pstat.pl = 0#2)
    (hc : (4 ≤ r.toNat ∧ r.toNat ≤ 9) ∨ r.toNat = 15) :
    exec (.cget d r) s = .next (s.trap 0x03 (BitVec.ofNat 64 (encode (.cget d r)))) := by
  have hw : (Instr.cget d r).wf = true := decide_eq_true hr
  have hv : privReg r.toNat false = true := by
    rcases hc with hc | hc <;> simp [privReg, hc]
  change guarded (.cget d r) s _ = _
  rw [guarded, if_pos hw, if_pos ⟨hp, hv⟩]
  rfl

theorem exec_cget (d : BitVec 6) {r : BitVec 6} (hr : r.toNat < 16)
    (hc : s.team.pstat.pl ≠ 0#2 ∨ ¬ ((4 ≤ r.toNat ∧ r.toNat ≤ 9) ∨ r.toNat = 15)) :
    Gives (.cget d r) s { s.team.wrote d (s.control r.toNat) 4 with
      trapcur := if r = 9#6 then s.team.trapcur + 1 else s.team.trapcur } := by
  have hw : (Instr.cget d r).wf = true := decide_eq_true hr
  have hv : ¬ (s.team.pstat.pl = 0#2 ∧ privReg r.toNat false = true) := by
    rintro ⟨hp, hv⟩
    refine hc.elim (· hp) (· ?_)
    simpa [privReg] using hv
  unfold Gives
  change guarded (.cget d r) s _ = _
  rw [guarded, if_pos hw, if_neg hv]
  simp only [State.upd, setReg_advance]
  split <;> rfl

/-! ### What the registers with fields read -/

theorem bit_eq (b : Bool) (i : Nat) : bit b i = (if b then 1 else 0) % 2 ^ 1 * 2 ^ i := by
  cases b <;> simp [bit]

theorem toNat_mod_width {n : Nat} (x : BitVec n) : x.toNat % 2 ^ n = x.toNat := Nat.mod_eq_of_lt x.isLt

theorem mod_of_fit {x n : Nat} (h : x < 2 ^ n) : x % 2 ^ n = x := Nat.mod_eq_of_lt h

/-! Fields that fit their place are packed as they are. Every equation is a rewriting step (`-implicitDefEqProofs`): two sums with
powers of two compared by unfolding would be too deep for the kernel. -/

theorem pstat_word (p : Pstat) :
    let b (x : Bool) : Nat := if x then 1 else 0
    p.word = packed [(24, 16, p.tag.toNat), (16, 8, p.world.toNat), (11, 1, b p.inh), (10, 1, b p.stp),
      (8, 2, p.pl.toNat), (7, 1, b p.chk), (6, 1, b p.p), (5, 1, b p.ma), (4, 1, b p.mz), (3, 1, b p.n),
      (2, 1, b p.z), (1, 1, b p.c), (0, 1, b p.v)] := by
  simp -implicitDefEqProofs only [Pstat.word, packed, bit_eq, List.map, List.sum_cons, List.sum_nil, toNat_mod_width, Nat.add_zero,
    Nat.pow_zero, Nat.mul_one, Nat.add_assoc]

theorem team_info (t : Team) (h1 : t.nvreg < 2 ^ 8) (h2 : t.core < 2 ^ 6) (h3 : t.quarter < 2 ^ 2) (h4 : t.index < 2 ^ 4)
    (h5 : t.nwarp < 2 ^ 8) (h6 : t.crewed.getD 0 < 2 ^ 3) :
    t.info = packed [(32, 32, t.seqctr.toNat), (24, 8, t.nvreg), (23, 1, if t.crewed.isSome then 1 else 0),
      (20, 3, t.crewed.getD 0), (14, 6, t.core), (12, 2, t.quarter), (8, 4, t.index), (0, 8, t.nwarp)] := by
  simp -implicitDefEqProofs only [Team.info, packed, bit_eq, List.map, List.sum_cons, List.sum_nil, toNat_mod_width, mod_of_fit h1,
    mod_of_fit h2, mod_of_fit h3, mod_of_fit h4, mod_of_fit h5, mod_of_fit h6, Nat.add_zero, Nat.pow_zero, Nat.mul_one,
    Nat.add_assoc]

theorem group_info (g : Group) (h1 : g.nteam < 2 ^ 5) (h2 : g.linear < 2 ^ 32) :
    g.info = packed [(56, 1, if g.gang.isSome then 1 else 0), (40, 16, g.gang.getD 0), (32, 5, g.nteam), (0, 32, g.linear)] := by
  simp -implicitDefEqProofs only [Group.info, packed, bit_eq, List.map, List.sum_cons, List.sum_nil, mod_of_fit h1, mod_of_fit h2,
    Nat.add_zero, Nat.pow_zero, Nat.mul_one, Nat.add_assoc]

/-- TIME of a team whose queue is bound to a function (R464). -/
theorem guest_toNat (b : TimeBlock) (now : Nat) (hs : (if b.hide then b.stolen else 0) ≤ now) (hn : now < 2 ^ 64) :
    (b.guest now).toNat
      = (b.offset.toNat + (now - if b.hide then b.stolen else 0) * b.scale.toNat / 2 ^ 32) % 2 ^ 64 := by
  have hw : wrapTo ((now : Int) - (if b.hide then (b.stolen : Int) else 0)) 64 = now - if b.hide then b.stolen else 0 := by
    split at hs <;> simp [wrapTo, *] <;> omega
  rw [TimeBlock.guest, hw, BitVec.toNat_ofNat]

theorem teamTime_unbound {t : Team} (h : (s.queueAt (s.gridAt (s.groupAt t.group).grid).queue).function = none) :
    s.teamTime t = BitVec.ofNat 64 s.now := by
  change (match (s.queueAt (s.gridAt (s.groupAt t.group).grid).queue).function with | some f => _ | none => _) = _
  rw [h]

theorem teamTime_bound {t : Team} {f : Nat}
    (h : (s.queueAt (s.gridAt (s.groupAt t.group).grid).queue).function = some f) :
    s.teamTime t = (s.timeBlock f).guest s.now := by
  change (match (s.queueAt (s.gridAt (s.groupAt t.group).grid).queue).function with | some f => _ | none => _) = _
  rw [h]

theorem controlRegisterReads : Claims.ControlRegisterReads := by
  intro s d r hr t p b closed
  refine ⟨exec_cget_priv d hr, fun hc => ⟨s.control r.toNat, exec_cget d hr hc, ?_⟩⟩
  refine ⟨?_, ?_, ?_, ?pstat, ?_, ?_, ?_, ?_, ?_, ?_, ?_, ?teamInfo, ?groupInfo, ?time, ?_, ?_⟩
  case pstat => rintro rfl; exact pstat_word _
  case teamInfo => rintro rfl; exact team_info _
  case groupInfo => rintro rfl; exact fun _ => group_info _
  case time =>
    rintro rfl
    refine ⟨fun hf => teamTime_unbound hf, fun n hf => ?_⟩
    intro k stolen hs hn
    exact (congrArg BitVec.toNat (teamTime_bound hf)).trans (guest_toNat _ _ hs hn)
  all_goals rintro rfl; rfl

/-! ### `cset` -/

section Writes

variable {a r : BitVec 6}

theorem exec_cset_priv (hr : r.toNat = 3 ∨ (4 ≤ r.toNat ∧ r.toNat ≤ 9) ∨ r.toNat = 15) (hp : s.team.pstat.pl = 0#2) :
    exec (.cset a r) s = .next (s.trap 0x03 (BitVec.ofNat 64 (encode (.cset a r)))) := by
  have hw : (Instr.cset a r).wf = true := decide_eq_true (p := r.toNat < 16) (by omega)
  have hv : privReg r.toNat true = true := by rcases hr with h | h | h <;> simp [privReg, h]
  change guarded (.cset a r) s _ = _
  rw [guarded, if_pos hw, if_pos ⟨hp, hv⟩]
  rfl

/-- What a `cset` that is not refused for PL does. -/
theorem exec_cset (hr : r.toNat < 16) (hv : s.team.pstat.pl ≠ 0#2 ∨ privReg r.toNat true = false) :
    exec (.cset a r) s = .next (match s.setControl s.team r.toNat (s.team.reg a) with
      | .error (c, v) => if c = cIllegal then s.illegal (encode (.cset a r)) else s.trap c v
      | .ok t => s.setTeam t.advance) := by
  have hw : (Instr.cset a r).wf = true := decide_eq_true hr
  have hn : ¬ (s.team.pstat.pl = 0#2 ∧ privReg r.toNat true = true) := by
    rintro ⟨hp, ht⟩
    exact hv.elim (· hp) (by simp [ht])
  change guarded (.cset a r) s _ = _
  rw [guarded, if_pos hw]
  exact congrArg Host.Outcome.next (if_neg hn)

theorem exec_cset_ok (r : BitVec 6) (u : Team) (hr : r.toNat < 16) (hv : s.team.pstat.pl ≠ 0#2 ∨ privReg r.toNat true = false)
    (h : s.setControl s.team r.toNat (s.team.reg a) = .ok u) : Gives (.cset a r) s u.advance := by
  rw [Gives, exec_cset hr hv, h]

theorem setControl_fmt (t : Team) (x : Word) :
    s.setControl t 0 x = if fmtOk x then .ok { t with fmt := x } else .error (cIllegal, 0) := rfl

theorem setControl_histbase (t : Team) (x : Word) :
    s.setControl t 14 x = match s.histCause t.pstat.tag t.pstat.world t.core (x.setWidth 32).toNat with
      | some c => .error (c, x)
      | none => .ok { t with histbase := x.setWidth 32 } := rfl

theorem fld_nine (x : Word) : BitVec.ofNat 64 (fld x.toNat 0 9) = x &&& 0x1FF#64 := by
  apply BitVec.eq_of_toNat_eq
  have h : x.toNat &&& 0x1FF = x.toNat % 2 ^ 9 := Nat.and_two_pow_sub_one_eq_mod x.toNat 9
  simp [fld, h]
  omega

theorem setWidth_low (x : Word) : x.setWidth 32 = x.extractLsb' 0 32 := by
  apply BitVec.eq_of_toNat_eq
  simp

/-! The test of HISTBASE (R84) -/

variable {tag : BitVec 16} {world : BitVec 8} {core y : Nat}

theorem histCause_misaligned (h : y % 1024 ≠ 0) : s.histCause tag world core y = some cAlign := if_pos h

theorem histCause_outside (h : y % 1024 = 0) (ho : 2 ^ 31 ≤ y ∨ (48 ≤ y / 2 ^ 25 ∧ y / 2 ^ 25 ≤ 62)) :
    s.histCause tag world core y = some cOwner := by
  have hf : sFlat core y = none := by
    unfold sFlat
    split
    · rfl
    · rw [if_neg (by omega), if_neg (by omega)]
  rw [State.histCause, if_neg (not_not.mpr h), hf]

theorem bankCause_isSome (n : Nat) :
    ((s.bankCause tag world n).map fun _ => cOwner)
      = if (s.owner 1 n).tag = tag ∧ (s.owner 1 n).world = world then none else some cOwner := by
  unfold State.bankCause
  by_cases ht : (s.owner 1 n).tag = tag
  · by_cases hw : (s.owner 1 n).world = world <;> simp [ht, hw]
  · simp [ht]

theorem histCause_inside {k : Nat} (h : y % 1024 = 0)
    (hk : (y / 2 ^ 25 = 63 ∧ k = core * 2 ^ 25 + y % 2 ^ 25) ∨ (y / 2 ^ 25 < 48 ∧ k = y)) :
    s.histCause tag world core y
      = if (s.owner 1 (k / 2 ^ 19)).tag = tag ∧ (s.owner 1 (k / 2 ^ 19)).world = world then none else some cOwner := by
  have hf : sFlat core y = some k := by
    unfold sFlat
    rw [if_neg (by omega)]
    rcases hk with ⟨hy, rfl⟩ | ⟨hy, rfl⟩
    · rw [if_pos hy]
    · rw [if_neg (by omega), if_pos hy]
  rw [State.histCause, if_neg (not_not.mpr h), hf]
  exact bankCause_isSome _

theorem exec_cset_histbase_trap {c : Nat} (hc : c ≠ cIllegal)
    (h : s.histCause s.team.pstat.tag s.team.pstat.world s.team.core ((s.team.reg a).setWidth 32).toNat = some c) :
    exec (.cset a 14) s = .next (s.trap c (s.team.reg a)) := by
  rw [exec_cset (by decide) (.inr rfl)]
  have hs := setControl_histbase (s := s) s.team (s.team.reg a)
  rw [h] at hs
  erw [hs]
  exact congrArg Host.Outcome.next (if_neg hc)

theorem gives_cset_histbase
    (h : s.histCause s.team.pstat.tag s.team.pstat.world s.team.core ((s.team.reg a).setWidth 32).toNat = none) :
    Gives (.cset a 14) s { s.team with pc := s.team.pc + 4, histbase := (s.team.reg a).setWidth 32 } := by
  refine exec_cset_ok 14 { s.team with histbase := (s.team.reg a).setWidth 32 } (by decide) (.inr rfl) ?_
  exact (setControl_histbase _ _).trans (by rw [h])

end Writes

theorem controlRegisterWrites : Claims.ControlRegisterWrites := by
  intro s a t x w u
  refine ⟨?_, ?_, ?_, fun hf => ?_, fun hf => ?_, fun hp => ⟨?_, ?_, ?_, ?_, ?_, ?_, ?_, ?_⟩, ?_, ?_, ?_,
    fun hp r hr => exec_cset_priv hr hp, ?_⟩
  · exact exec_cset_ok 1 { t with srseed := x } (by decide) (.inr rfl) rfl
  · exact exec_cset_ok 2 { t with srctr := x } (by decide) (.inr rfl) rfl
  · exact exec_cset_ok 10 { t with yieldpc := x } (by decide) (.inr rfl) rfl
  · exact exec_cset_ok 0 { t with fmt := x } (by decide) (.inr rfl) ((setControl_fmt _ _).trans (if_pos hf))
  · have hs : s.setControl t 0 x = .error (cIllegal, 0) := (setControl_fmt _ _).trans (if_neg (by simp [hf]))
    rw [exec_cset (by decide) (.inr rfl)]
    erw [hs]
    rfl
  · exact exec_cset_ok 3 { t with pstat := t.pstat.write x } (by decide) (.inl hp) rfl
  · rw [← fld_nine]
    exact exec_cset_ok 4 { t with trapcause := BitVec.ofNat 64 (fld x.toNat 0 9) } (by decide) (.inl hp) rfl
  · exact exec_cset_ok 5 { t with trappc := x } (by decide) (.inl hp) rfl
  · exact exec_cset_ok 6 { t with trapseq := x } (by decide) (.inl hp) rfl
  · rw [← setWidth_low]
    exact exec_cset_ok 7 { t with traplidx := x.setWidth 32 } (by decide) (.inl hp) rfl
  · exact exec_cset_ok 8 { t with trapval := x } (by decide) (.inl hp) rfl
  · exact exec_cset_ok 9 t (by decide) (.inl hp) rfl
  · exact exec_cset_ok 15 t (by decide) (.inl hp) rfl
  · exact exec_cset_ok 11 t (by decide) (.inr rfl) rfl
  · exact exec_cset_ok 12 t (by decide) (.inr rfl) rfl
  · exact exec_cset_ok 13 t (by decide) (.inr rfl) rfl
  · have hy : (x.setWidth 32).toNat = x.toNat % 2 ^ 32 := BitVec.toNat_setWidth 32 x
    refine ⟨fun h => ?_, fun h ho => ?_, fun k h hk => ⟨fun ho => ?_, fun ho => ?_⟩⟩
    · exact exec_cset_histbase_trap (by decide) (histCause_misaligned (hy ▸ h))
    · exact exec_cset_histbase_trap (by decide) (histCause_outside (hy ▸ h) (hy ▸ ho))
    · rw [← setWidth_low]
      exact gives_cset_histbase ((histCause_inside (hy ▸ h) (hy ▸ hk)).trans (if_pos ho))
    · refine exec_cset_histbase_trap (by decide) ((histCause_inside (hy ▸ h) (hy ▸ hk)).trans (if_neg ?_))
      exact fun hn => ho.elim (· hn.1) (· hn.2)

/-- Settles O25: `cget` and `cset` register by register; a word with fields is compared field by field, the test of HISTBASE case
by case. -/
theorem controlRegisters : Obligations.ControlRegisters := ⟨controlRegisterReads, controlRegisterWrites⟩

end Sys2Proof.Laws
end

section
/-!
The issue of a lane instruction (R34, R204, R296 to R298): what its beginning, the writes it leaves outstanding and its end do to
the team.
-/

namespace Sys2Proof.Machine

/-- An outstanding operation has lost some of what it was to write (R297, R298), and nothing else. -/
structure Pend.LessOf (p q : Pend) : Prop where
  same  : p = { q with part := p.part, masks := p.masks }
  regs  : ∀ k, q.hasReg k = false → p.hasReg k = false
  masks : ∀ k, q.maskOf k = none → p.maskOf k = none

/-- The outstanding operation writes nothing that `q` writes. -/
structure Pend.Apart (p q : Pend) : Prop where
  regs  : ∀ k ∈ q.regs.map Prod.fst ++ q.awaits, p.hasReg k = false
  masks : ∀ k, (q.maskOf k).isSome = true → p.maskOf k = none

/-- Registers that `q` writes while an earlier write of them by `p` is under way (R297, R298). -/
def Pend.clashes (cyc : Nat → Nat) (q p : Pend) : List Nat :=
  (q.regs.map Prod.fst ++ q.awaits).filter fun k => p.hasReg k && !p.due (cyc (k % 1024))

/-- What an earlier write keeps beside `q`. -/
def Pend.beside (free : Nat) (x : Layout) (cyc : Nat → Nat) (q p : Pend) : Pend :=
  let p := (q.clashes cyc p).foldl (fun p k => p.lose k (lostBits free x p k)) p
  { p with masks := p.masks.filter fun y =>
      !(!p.due (cyc (y.1 % 1024)) && (q.maskOf y.1).isSome && pick free 4 (p.id * 2 ^ 24 + y.1)) }

/-- What `q` writes beside the earlier writes. -/
def Pend.after (free : Nat) (x : Layout) (cyc : Nat → Nat) (q : Pend) (ps : List Pend) : Pend :=
  let q' := ps.foldl (fun r p => (q.clashes cyc p).foldl (fun r k => r.lose k (~~~lostBits free x p k)) r) q
  { q' with masks := q'.masks.filter fun y => !ps.any fun p =>
      !p.due (cyc (y.1 % 1024)) && (p.maskOf y.1).isSome && !pick free 4 (p.id * 2 ^ 24 + y.1) }

/-- Elements of which none is poisoned name no bytes that are. -/
def Consumed.NoneBad (c : Consumed) : Prop := c.poison = [] → c.bad = []

/-- The queue entries for the parts of an operation's writes, numbered from `first`. -/
def queuedWrites (first op cycle : Nat) (release : Option Nat) (ws : List (WriteWhat × Option Word)) (acquire : Bool) : List WriteOp :=
  ws.zipIdx.map fun x => { id := first + x.2, op := op, what := x.1.1, fabric := x.1.2, born := cycle, release := release,
                           acquire := acquire }

/-- The team after a lane instruction with these passes and this STALL has issued at `cycle`. -/
def Team.laneDone (t : Team) (cycle passes stall : Nat) : Team :=
  { t.issuesUntil (cycle + passes) with laneFree := nextIssue cycle passes stall }

end Sys2Proof.Machine

namespace Sys2Proof.Laws

open Sys2Proof Sys2Proof.Machine

variable {s : State} {t u : Team} {p p' p'' q : Pend}

/-! ### Outstanding writes that lose to others (R297, R298) -/

theorem lessOf_refl (p : Pend) : p.LessOf p := ⟨rfl, fun _ h => h, fun _ h => h⟩

theorem lessOf_trans (h : p.LessOf p') (h' : p'.LessOf p'') : p.LessOf p'' := by
  refine ⟨?_, fun k hk => h.regs k (h'.regs k hk), fun k hk => h.masks k (h'.masks k hk)⟩
  conv_lhs => rw [h.same, h'.same]

theorem apart_of_lessOf (h : p'.LessOf p) (ha : p.Apart q) : p'.Apart q :=
  ⟨fun k hk => h.regs k (ha.regs k hk), fun k hk => h.masks k (ha.masks k hk)⟩

theorem partOf_lose_same (p : Pend) (k : Nat) {bits : Lane32} (h : bits ≠ 0) :
    (p.lose k bits).partOf k = some ((p.partOf k).getD 0xFFFFFFFF#32 &&& ~~~bits) := by
  rw [Pend.lose, if_neg h]
  simp [Pend.partOf]

theorem partOf_lose_other (p : Pend) {k j : Nat} (bits : Lane32) (h : j ≠ k) : (p.lose k bits).partOf j = p.partOf j := by
  unfold Pend.lose
  split
  · rfl
  have hk : (k == j) = false := by simpa using h.symm
  have hp : (p.part.filter fun x => x.1 != k).find? (fun x => x.1 == j) = p.part.find? fun x => x.1 == j := by
    rw [List.find?_filter]
    congr 1
    funext y
    by_cases hy : y.1 = j <;> simp [hy, h]
  simp only [Pend.partOf, List.find?_cons, hk, hp]

/-- Nothing is left of a register of which nothing was left. -/
theorem hasReg_lose {k j : Nat} {bits : Lane32} (h : p.hasReg j = false) : (p.lose k bits).hasReg j = false := by
  have hr : (p.lose k bits).regOf j = p.regOf j ∧ (p.lose k bits).awaits = p.awaits := by
    unfold Pend.lose
    split <;> exact ⟨rfl, rfl⟩
  rw [Pend.hasReg] at h ⊢
  rw [hr.1, hr.2]
  by_cases hb : bits = 0
  · rwa [Pend.lose, if_pos hb]
  by_cases hj : j = k
  · subst hj
    rw [partOf_lose_same p j hb]
    rcases Bool.and_eq_false_iff.mp h with h | h
    · rw [h, Bool.false_and]
    · have hp : p.partOf j = some 0 := by simpa using h
      simp [hp]
  · rwa [partOf_lose_other p bits hj]

theorem lessOf_lose (p : Pend) (k : Nat) (bits : Lane32) : (p.lose k bits).LessOf p := by
  refine ⟨?_, fun j => hasReg_lose, fun j h => ?_⟩ <;> unfold Pend.lose <;> split
  · rfl
  · rfl
  · exact h
  · exact h

theorem lessOf_loseAll (f : Pend → Nat → Lane32) (ks : List Nat) (p : Pend) :
    (ks.foldl (fun p k => p.lose k (f p k)) p).LessOf p := by
  induction ks generalizing p with
  | nil => exact lessOf_refl p
  | cons k ks ih => exact lessOf_trans (ih _) (lessOf_lose p k _)

theorem maskOf_eq_none {k : Nat} : p.maskOf k = none ↔ ∀ y ∈ p.masks, y.1 ≠ k := by
  simp [Pend.maskOf]

theorem lessOf_filterMasks (f : Nat × Bool → Bool) (p : Pend) : Pend.LessOf { p with masks := p.masks.filter f } p := by
  refine ⟨rfl, fun _ h => h, fun k hk => ?_⟩
  rw [maskOf_eq_none] at hk ⊢
  exact fun y hy => hk y (List.mem_filter.mp hy).1

theorem maskOf_isSome_of_mem {y : Nat × Bool} (h : y ∈ p.masks) : (p.maskOf y.1).isSome = true := by
  by_contra hn
  have hk : p.maskOf y.1 = none := by simpa using hn
  exact maskOf_eq_none.mp hk y h rfl

theorem addPend_eq (t : Team) (free : Nat) (x : Layout) (cyc : Nat → Nat) (q : Pend) :
    t.addPend free x cyc q = { t with pend := t.pend.map (q.beside free x cyc) ++ [q.after free x cyc t.pend] } := rfl

section Beside

variable {free : Nat} {x : Layout} {cyc : Nat → Nat} {ps : List Pend}

theorem clashes_of_apart (ha : p.Apart q) : q.clashes cyc p = [] :=
  List.filter_eq_nil_iff.mpr fun k hk => by simp [ha.regs k hk]

theorem beside_lessOf : (q.beside free x cyc p).LessOf p :=
  lessOf_trans (lessOf_filterMasks _ _) (lessOf_loseAll _ _ p)

theorem beside_of_apart (ha : p.Apart q) : q.beside free x cyc p = p := by
  have hm : ∀ y ∈ p.masks, (q.maskOf y.1).isSome = false := fun y hy => by
    by_contra hn
    exact maskOf_eq_none.mp (ha.masks y.1 (by simpa only [Bool.not_eq_false] using hn)) y hy rfl
  have hf : (p.masks.filter fun y =>
      !(!p.due (cyc (y.1 % 1024)) && (q.maskOf y.1).isSome && pick free 4 (p.id * 2 ^ 24 + y.1))) = p.masks :=
    List.filter_eq_self.mpr fun y hy => by simp [hm y hy]
  rw [Pend.beside, clashes_of_apart ha]
  dsimp only [List.foldl_nil]
  rw [hf]

theorem after_lessOf : (q.after free x cyc ps).LessOf q := by
  refine lessOf_trans (lessOf_filterMasks _ _) ?_
  refine List.foldlRecOn (motive := fun r : Pend => r.LessOf q) ps _ (lessOf_refl q) fun r hr p _ => ?_
  exact lessOf_trans (lessOf_loseAll (fun _ k => ~~~lostBits free x p k) _ r) hr

theorem after_of_apart (ha : ∀ p ∈ ps, p.Apart q) : q.after free x cyc ps = q := by
  have hc : ps.foldl (fun r p => (q.clashes cyc p).foldl (fun r k => r.lose k (~~~lostBits free x p k)) r) q = q := by
    refine List.foldlRecOn (motive := fun r => r = q) ps _ rfl fun r hr p hp => ?_
    rw [hr, clashes_of_apart (ha p hp)]
    rfl
  have hf : (q.masks.filter fun y => !ps.any fun p =>
      !p.due (cyc (y.1 % 1024)) && (p.maskOf y.1).isSome && !pick free 4 (p.id * 2 ^ 24 + y.1)) = q.masks := by
    refine List.filter_eq_self.mpr fun y hy => ?_
    have hn : ∀ p ∈ ps, p.maskOf y.1 = none := fun p hp => (ha p hp).masks y.1 (maskOf_isSome_of_mem hy)
    have ha : (ps.any fun p => !p.due (cyc (y.1 % 1024)) && (p.maskOf y.1).isSome && !pick free 4 (p.id * 2 ^ 24 + y.1)) = false :=
      List.any_eq_false.mpr fun p hp => by simp [hn p hp]
    rw [ha, Bool.not_false]
  rw [Pend.after, hc, hf]

end Beside

theorem addPend_length (t : Team) (free : Nat) (x : Layout) (cyc : Nat → Nat) (q : Pend) :
    (t.addPend free x cyc q).pend.length = t.pend.length + 1 := by
  simp [addPend_eq]

/-- To an empty list of outstanding operations one is added whole. -/
theorem addPend_of_nil (t : Team) (free : Nat) (x : Layout) (cyc : Nat → Nat) (q : Pend) (h : t.pend = []) :
    (t.addPend free x cyc q).pend = [q] := by
  rw [addPend_eq, h]
  simp [after_of_apart]

/-! ### The outstanding passes of an operation -/

section Passes

variable {free : Nat} {x : Layout}

/-- Queueing outstanding passes changes the list of them and the counter of operations alone. -/
theorem addPends_eq (t : Team) (free : Nat) (x : Layout) (qs : List (Nat × Pend)) :
    ∃ n, t.addPends free x qs = { t with pend := (t.addPends free x qs).pend, nextOp := n } := by
  induction qs generalizing t with
  | nil => exact ⟨t.nextOp, rfl⟩
  | cons q qs ih =>
    obtain ⟨n, hn⟩ := ih ((t.addPend free x (fun _ => q.1) q.2).newOp)
    exact ⟨n, hn⟩

theorem addPends_cons (t : Team) (free : Nat) (x : Layout) (q : Nat × Pend) (qs : List (Nat × Pend)) :
    t.addPends free x (q :: qs) = (t.addPend free x (fun _ => q.1) q.2).newOp.addPends free x qs := rfl

theorem addPends_length (t : Team) (free : Nat) (x : Layout) (qs : List (Nat × Pend)) :
    (t.addPends free x qs).pend.length = t.pend.length + qs.length := by
  induction qs generalizing t with
  | nil => rfl
  | cons q qs ih =>
    rw [addPends_cons, ih, List.length_cons]
    simp only [Team.newOp, addPend_length]
    omega

/-- An operation that was outstanding stays where it was; passes that write nothing of it take nothing from it. -/
theorem addPends_old (t : Team) (qs : List (Nat × Pend)) {j : Nat} (h : t.pend[j]? = some p) :
    ∃ p', (t.addPends free x qs).pend[j]? = some p' ∧ p'.LessOf p ∧ ((∀ q ∈ qs, p.Apart q.2) → p' = p) := by
  induction qs generalizing t p with
  | nil => exact ⟨p, h, lessOf_refl p, fun _ => rfl⟩
  | cons q qs ih =>
    have hj : (t.addPend free x (fun _ => q.1) q.2).newOp.pend[j]? = some (q.2.beside free x (fun _ => q.1) p) := by
      have hl : j < t.pend.length := (List.getElem?_eq_some_iff.mp h).1
      simp only [Team.newOp, addPend_eq]
      rw [List.getElem?_append_left (by simpa using hl), List.getElem?_map, h]
      rfl
    obtain ⟨p', hp', hless, hsame⟩ := ih _ hj
    refine ⟨p', hp', lessOf_trans hless beside_lessOf, fun ha => ?_⟩
    have hq : q.2.beside free x (fun _ => q.1) p = p := beside_of_apart (ha q List.mem_cons_self)
    rw [hq] at hsame
    exact hsame fun r hr => ha r (List.mem_cons_of_mem _ hr)

/-- Pass number `n` stands `n` places behind the operations that were outstanding, whole if nothing else writes what it writes. -/
theorem addPends_new (t : Team) (qs : List (Nat × Pend)) {n : Nat} {q : Nat × Pend} (h : qs[n]? = some q) :
    ∃ p', (t.addPends free x qs).pend[t.pend.length + n]? = some p' ∧ p'.LessOf q.2
      ∧ ((∀ p ∈ t.pend, p.Apart q.2) → (∀ m r, qs[m]? = some r → m ≠ n → q.2.Apart r.2 ∧ r.2.Apart q.2) → p' = q.2) := by
  induction qs generalizing t n with
  | nil => simp at h
  | cons a qs ih =>
    rw [addPends_cons]
    generalize ht' : (t.addPend free x (fun _ => a.1) a.2).newOp = t'
    have hpend : t'.pend = t.pend.map (a.2.beside free x (fun _ => a.1)) ++ [a.2.after free x (fun _ => a.1) t.pend] := by
      rw [← ht']
      rfl
    cases n with
    | zero =>
      obtain rfl : a = q := by simpa using h
      have hlast : t'.pend[t.pend.length]? = some (a.2.after free x (fun _ => a.1) t.pend) := by
        rw [hpend]
        simp
      obtain ⟨p', hp', hless, hsame⟩ := addPends_old (free := free) (x := x) t' qs hlast
      refine ⟨p', hp', lessOf_trans hless after_lessOf, fun ho hn => ?_⟩
      rw [after_of_apart ho] at hsame
      refine hsame fun b hb => ?_
      obtain ⟨m, hm⟩ := List.mem_iff_getElem?.mp hb
      exact (hn (m + 1) b hm (by omega)).1
    | succ n =>
      obtain ⟨p', hp', hless, hsame⟩ := ih t' h
      have hlen : t'.pend.length = t.pend.length + 1 := by simp [hpend]
      refine ⟨p', ?_, hless, fun ho hn => hsame (fun p hp => ?_) fun m b hm hne => hn (m + 1) b hm (by omega)⟩
      · rw [hlen] at hp'
        rwa [Nat.add_assoc, Nat.add_comm 1] at hp'
      · rw [hpend, List.mem_append, List.mem_map, List.mem_singleton] at hp
        rcases hp with ⟨p, hp, rfl⟩ | rfl
        · exact apart_of_lessOf beside_lessOf (ho p hp)
        · exact apart_of_lessOf after_lessOf (hn 0 a rfl (by omega)).2

end Passes

/-! ### Queued writes -/

section Writes

variable {first op cycle : Nat} {release : Option Nat} {ws : List (WriteWhat × Option Word)} {acquire : Bool}

theorem addWrites_eq (t : Team) : t.addWrites op cycle release ws acquire
    = { t with sdq := t.sdq ++ queuedWrites t.nextOp op cycle release ws acquire, nextOp := t.nextOp + ws.length } := rfl

theorem queuedWrites_what : (queuedWrites first op cycle release ws acquire).map WriteOp.what = ws.map Prod.fst := by
  rw [queuedWrites, List.map_map]
  change ws.zipIdx.map (Prod.fst ∘ Prod.fst) = _
  rw [← List.map_map, List.zipIdx_map_fst]

end Writes

/-! ### Stream slots (R204) -/

theorem advanceSlots_eq (t : Team) (o : LaneOp) : t.advanceSlots o = { t with q := (t.advanceSlots o).q } := by
  unfold Team.advanceSlots
  generalize o.slots = l
  induction l generalizing t with
  | nil => rfl
  | cons q l ih => exact ih _

theorem advanceSlots_q (h : u.q = t.q) (hw : u.nwarp = t.nwarp) (o : LaneOp) :
    (u.advanceSlots o).q = (t.advanceSlots o).q := by
  unfold Team.advanceSlots
  generalize o.slots = l
  induction l generalizing t u with
  | nil => exact h
  | cons q l ih =>
    refine ih ?_ hw
    simp only [Team.lanes, h, hw]

theorem advanceSlots_of (h : u.q = t.q) (hw : u.nwarp = t.nwarp) (o : LaneOp) :
    u.advanceSlots o = { u with q := (t.advanceSlots o).q } := by
  rw [advanceSlots_eq, advanceSlots_q h hw]

/-- An operation whose operands are registers names no slot, and consumes nothing. -/
theorem consumeAll_of_slots {o : LaneOp} (h : o.slots = []) (lanes : List Nat) : s.consumeAll t o lanes = {} := by
  rw [State.consumeAll, h]
  rfl

theorem slotElem_noneBad (q : Slot) (bits lane e : Nat) : (s.slotElem t q bits lane e).NoneBad := by
  unfold State.slotElem
  split
  · exact fun _ => rfl
  · intro h
    dsimp only at h ⊢
    split at h
    · cases h
    · next hn => exact if_neg hn

theorem consume_noneBad (slot bits : Nat) (lanes : List Nat) : (s.consume t slot bits lanes).NoneBad := by
  unfold State.consume
  refine List.foldlRecOn (motive := Consumed.NoneBad) _ _ (fun _ => rfl) fun acc hacc l _ h => ?_
  obtain ⟨ha, hx⟩ := List.append_eq_nil_iff.mp h
  refine List.append_eq_nil_iff.mpr ⟨hacc ha, ?_⟩
  rw [List.flatMap_eq_nil_iff] at hx ⊢
  intro c hc
  obtain ⟨i, -, rfl⟩ := List.mem_map.mp hc
  exact slotElem_noneBad _ _ _ _ (hx _ hc)

theorem consumeAll_noneBad (o : LaneOp) (lanes : List Nat) : (s.consumeAll t o lanes).NoneBad := by
  unfold State.consumeAll
  refine List.foldlRecOn (motive := Consumed.NoneBad) _ _ (fun _ => rfl) fun acc hacc q _ h => ?_
  obtain ⟨ha, hx⟩ := List.append_eq_nil_iff.mp h
  exact List.append_eq_nil_iff.mpr ⟨hacc ha, consume_noneBad _ _ _ hx⟩

/-- Where no byte is read no tag is looked at. -/
theorem checkTags_nil : s.checkTags [] = s := by
  simp [State.checkTags]

theorem async_append_nil (t : Team) : ({ t with async := t.async ++ [] } : Team) = t := by
  rw [List.append_nil]

/-! ### The beginning and the end of a lane instruction -/

section Begin

variable {i : Instr} {o : LaneOp} {e : LaneEntry} {rest : List LaneEntry} {quad : Bool}
  {rl : Ctx → BitVec 8 → Pass → List Nat} {wl : Ctx → Pass → List Nat}

theorem takeEntry_head (h : s.laneHead i e rest) : s.team.takeEntry (encode i) = (e, s.team.popped rest, true) := by
  obtain ⟨hq, hw, -, -⟩ := h
  rw [Team.takeEntry, hq]
  exact if_pos hw

/-- At the head of the queue, its turn come and its operands at hand, the instruction begins. -/
theorem beginLane_ok (h : s.laneHead i e rest)
    (hw : (s.consumeAll (s.team.popped rest) o ((s.lanePasses o quad rest).flatMap Pass.lanes)).waits = false)
    (hc : let c := s.laneCtx o e rest (s.consumeAll (s.team.popped rest) o ((s.lanePasses o quad rest).flatMap Pass.lanes)).vals
      s.laneChecked o e rest (s.lanePasses o quad rest) (rl c) (wl c)) :
    s.beginLane i o quad rl wl = .ok (s.laneCtx o e rest
        (s.consumeAll (s.team.popped rest) o ((s.lanePasses o quad rest).flatMap Pass.lanes)).vals, s.lanePasses o quad rest) := by
  obtain ⟨hq, hword, hfree, htok⟩ := id h
  have hfull : (s.team.popped rest).tokenFull (lanePost (encode i)) = false := htok
  have hearly : ¬ s.cycle < (s.team.popped rest).laneFree := Nat.not_lt.mpr hfree
  unfold State.beginLane
  dsimp only
  rw [takeEntry_head h]
  have hdirect : s.directFault (encode i) true = none := if_pos rfl
  dsimp only
  rw [hdirect]
  dsimp only
  simp only [State.lanePasses] at hw hc
  rw [if_neg (by simp [hearly, hfull]), if_neg (by simp [hw])]
  split
  · next c v hv =>
    split at hv
    · next hchk =>
      have hnone := (hc hchk).symm.trans hv
      cases hnone
    · cases hv
  · rfl

/-- The end of a lane instruction: what the team did, a new choice for the next, and a count. -/
theorem endLane_eq (s : State) (t : Team) (passes stall : Nat) :
    ∃ d, s.endLane t passes stall = { s.setTeam (t.laneDone s.cycle passes stall) with free := s.free + 1, dbgs := d } := by
  unfold State.endLane State.countEvent
  dsimp only
  split
  · exact ⟨_, rfl⟩
  · exact ⟨_, rfl⟩

/-- What a lane instruction that has ended leaves unchanged. -/
theorem issues_of_endLane {x : Instr} {passes stall : Nat} (h : exec x s = .next (s.endLane t passes stall))
    (hpc : t.pc = s.team.pc) (hs : t.s = s.team.s) (hv : t.v = s.team.v) (hm : t.m = s.team.m) (hp : t.pstat = s.team.pstat)
    (hf : t.fmt = s.team.fmt) (hq : t.seqctr = s.team.seqctr) (hr : t.srctr = s.team.srctr) (hfr : t.frame = s.team.frame) :
    Issues x s (t.laneDone s.cycle passes stall) := by
  obtain ⟨d, hd⟩ := endLane_eq s t passes stall
  refine ⟨_, h, ?_⟩
  rw [hd]
  refine ⟨State.teamAt_putTeam s s.cur _, rfl, rfl, rfl, fun id hid => State.teamAt_putTeam_other s _ hid, hpc, hs, hv, hm, hp, hf,
    hq, hr, hfr⟩

end Begin

end Sys2Proof.Laws
end

section
/-!
The issue of a fixed-latency lane instruction (R34, R204, R244, R296, R297).
-/

namespace Sys2Proof.Machine

/-- The outstanding passes of a fixed-latency operation, each with the cycle of its pass. -/
def fixedPends (c : Ctx) (sp : FixedSpec) (ps : List Pass) (tok : Option Nat) : List (Nat × Pend) :=
  ((passPends c sp ps tok false).zip ps).map fun x => (x.2.cyc, x.1)

/-- The token that an operation with these passes posts to. -/
def passTok (i : Instr) (ps : List Pass) : Option Nat := if ps.isEmpty then none else lanePost (encode i)

/-- The team after the operation has left its results outstanding, posted, consumed its slots and queued what it bins. -/
def Ctx.fixedTeam (c : Ctx) (i : Instr) (sp : FixedSpec) (ps : List Pass) : Team :=
  (((c.t.addPends c.s.free c.o.layout (fixedPends c sp ps (passTok i ps))).postOpt (passTok i ps)).advanceSlots c.o).addBins
    c.s.cycle (sp.bins c ps)

end Sys2Proof.Machine

namespace Sys2Proof.Laws

open Sys2Proof Sys2Proof.Machine

variable {s : State} {t : Team} {i : Instr} {o : LaneOp} {sp : FixedSpec} {e : LaneEntry} {rest : List LaneEntry} {c : Ctx}
  {ps : List Pass} {tok : Option Nat}

/-! ### The fixed-latency instructions -/

theorem exec_of_fixed (h : Instr.fixed? i = some (o, sp)) : exec i s = .next (s.issueFixed i o sp) := by
  unfold Instr.fixed? at h
  split at h <;> cases h <;> rfl

theorem cls_of_fixed (h : Instr.fixed? i = some (o, sp)) : o.cls < 7 ∨ (o.cls = 7 ∧ o.op ≤ 1) := by
  unfold Instr.fixed? at h
  split at h <;> cases h <;> simp

/-- Only four instructions bin (R85, R244). -/
theorem bins_of_fixed (h : Instr.fixed? i = some (o, sp))
    (hi : ∀ f, i ≠ .laneHist f ∧ i ≠ .laneCvt f ∧ i ≠ .laneBpack f ∧ i ≠ .laneBscale f) : sp.bins c ps = [] := by
  unfold Instr.fixed? at h
  split at h <;> cases h
  case h_45 f =>
    obtain ⟨-, hcvt, -, -⟩ := hi f
    exact absurd rfl hcvt
  case h_47 f =>
    obtain ⟨-, -, hbpack, -⟩ := hi f
    exact absurd rfl hbpack
  case h_49 f =>
    obtain ⟨-, -, -, hbscale⟩ := hi f
    exact absurd rfl hbscale
  case h_52 f =>
    obtain ⟨hhist, -, -, -⟩ := hi f
    exact absurd rfl hhist
  all_goals rfl

theorem latency_of_fixed (h : Instr.fixed? i = some (o, sp)) :
    o.latency = if o.cls ≤ 2 then 4 else if o.cls = 3 then (if o.f.ty = 0#4 then 10 else 6)
      else if o.cls = 4 then 12 else if o.cls = 7 then 8 else 6 := by
  have hty : o.ty = 0 ↔ o.f.ty = 0#4 := by
    change o.f.ty.toNat = 0 ↔ _
    rw [← BitVec.toNat_inj]
    rfl
  have hcls := cls_of_fixed h
  unfold LaneOp.latency
  simp only [hty]
  split
  · rfl
  split
  · rfl
  split
  · rfl
  split
  · rw [if_neg (by omega)]
  · rw [if_pos (by omega), if_pos (by omega)]

/-! ### The issue -/

/-- Without lanes lost and without poison every pass is issued as it is. -/
theorem issueFixed_ok (hb : s.beginLane i o sp.quad sp.rl sp.wl = .ok (c, ps)) (hs : c.s = s) (ho : c.o = o)
    (hguard : c.e.chk = true → sp.guard c ps = none)
    (hf : (s.consumeAll c.t o (ps.flatMap Pass.lanes)).fails = []) (hl : (s.consumeAll c.t o (ps.flatMap Pass.lanes)).lost = [])
    (hp : (s.consumeAll c.t o (ps.flatMap Pass.lanes)).poison = []) :
    s.issueFixed i o sp = s.endLane (c.fixedTeam i sp ps) ps.length o.f.stall.toNat := by
  have hbad := consumeAll_noneBad o (ps.flatMap Pass.lanes) hp
  have hlive : ((ps.filter fun p => !([] : List Nat).contains p.warp).map fun p =>
      { p with lanes := p.lanes.filter fun l => !(([] : List (Nat × Word)).map Prod.fst).contains l }) = ps := by
    simp
  unfold State.issueFixed
  rw [hb]
  dsimp only
  rw [hf, hl, hp, hbad, hlive]
  have hg : (if c.e.chk = true then sp.guard c ps else none) = none := by
    split
    · next h => exact hguard h
    · rfl
  dsimp only [worst]
  rw [hg]
  dsimp only [List.foldl_nil]
  rw [checkTags_nil]
  subst hs ho
  exact congrArg (fun u => c.s.endLane u ps.length c.o.f.stall.toNat) (async_append_nil (c.fixedTeam i sp ps))

/-! ### What the passes leave outstanding -/

theorem fixedPends_length : (fixedPends c sp ps tok).length = ps.length := by
  simp [fixedPends, passPends]

theorem fixedPends_get {n : Nat} {p : Pass} (h : ps[n]? = some p) :
    (fixedPends c sp ps tok)[n]? = some (p.cyc,
      { id := c.t.nextOp + n, kind := .fixed, seq := c.e.seq, pc := c.e.pc, tok := tok, ready := p.cyc + c.o.latency,
        names := c.o.names, regs := (sp.eval c p).regs, masks := (sp.eval c p).masks, last := n + 1 == ps.length,
        cancel := false }) := by
  simp [fixedPends, passPends, List.getElem?_zip_eq_some, h]

theorem mem_map_fst_of_hasReg {p : Pend} {k : Nat} (ha : p.awaits = []) (h : p.hasReg k = true) : k ∈ p.regs.map Prod.fst := by
  obtain ⟨hk, -⟩ := Bool.and_eq_true_iff.mp h
  obtain ⟨y, hy⟩ : ∃ y, p.regOf k = some y := by simpa [ha, Option.isSome_iff_exists] using hk
  obtain ⟨x, hx, rfl⟩ := Option.map_eq_some_iff.mp hy
  exact List.mem_map.mpr ⟨x, List.mem_of_find?_eq_some hx, by simpa using List.find?_some hx⟩

theorem mem_map_fst_iff_maskOf {p : Pend} {k : Nat} : k ∈ p.masks.map Prod.fst ↔ (p.maskOf k).isSome = true := by
  simp [Pend.maskOf]

/-- What writes none of the registers and mask bits of `q` stands apart from it. -/
theorem apart_of_notMem {p q : Pend} (ha : q.awaits = []) (h : ∀ k, (k ∈ q.regs.map Prod.fst → p.hasReg k = false)
    ∧ (k ∈ q.masks.map Prod.fst → p.maskOf k = none)) : p.Apart q := by
  refine ⟨fun k hk => (h k).1 ?_, fun k hk => (h k).2 (mem_map_fst_iff_maskOf.mpr hk)⟩
  simpa only [ha, List.append_nil] using hk

/-- Two operations without common registers or mask bits stand apart. -/
theorem apart_of_disjoint {p q : Pend} (hp : p.awaits = []) (hq : q.awaits = [])
    (h : ∀ k, (k ∈ q.regs.map Prod.fst → k ∉ p.regs.map Prod.fst) ∧ (k ∈ q.masks.map Prod.fst → k ∉ p.masks.map Prod.fst)) :
    p.Apart q := by
  refine apart_of_notMem hq fun k => ⟨fun hk => ?_, fun hk => ?_⟩
  · by_contra hn
    exact (h k).1 hk (mem_map_fst_of_hasReg hp (by simpa using hn))
  · by_contra hn
    exact (h k).2 hk (mem_map_fst_iff_maskOf.mpr (Option.isSome_iff_ne_none.mpr hn))

/-! ### The team after the issue -/

theorem postOpt_passTok (t : Team) (i : Instr) (ps : List Pass) :
    t.postOpt (passTok i ps) = { t with tok := t.postedTok (encode i) ps.isEmpty } := by
  unfold passTok Team.postedTok
  cases ps.isEmpty <;> cases lanePost (encode i) <;> rfl

theorem postedTok_congr {u : Team} (h : u.tok = t.tok) (w : Nat) (b : Bool) : u.postedTok w b = t.postedTok w b := by
  simp only [Team.postedTok, Team.token, h]

theorem addBins_eq (t : Team) (cycle : Nat) (ops : List Rmw) :
    ∃ (n : Nat) (ws : List WriteOp), ws.map WriteOp.what = ops.map (fun x => .reduction x false)
      ∧ t.addBins cycle ops = { t with sdq := t.sdq ++ ws, nextOp := n } := by
  refine ⟨_, _, ?_, addWrites_eq t⟩
  rw [queuedWrites_what, List.map_map]
  rfl

/-- A post, the consumption of the slots and what is binned, of a team that has the token and the slots of `t`. -/
theorem posted_binned {u : Team} (htok : u.tok = t.tok) (hq : u.q = t.q) (hw : u.nwarp = t.nwarp) (cycle : Nat) (ops : List Rmw) :
    ∃ (n : Nat) (ws : List WriteOp), ws.map WriteOp.what = ops.map (fun x => .reduction x false)
      ∧ ((u.postOpt (passTok i ps)).advanceSlots o).addBins cycle ops
        = { u with tok := t.postedTok (encode i) ps.isEmpty, q := (t.advanceSlots o).q, sdq := u.sdq ++ ws, nextOp := n } := by
  have hslots := advanceSlots_of (t := t) (u := { u with tok := t.postedTok (encode i) ps.isEmpty }) hq hw o
  rw [postOpt_passTok, postedTok_congr htok, hslots]
  exact addBins_eq _ cycle ops

/-- The team after the issue is the team before, but for its outstanding passes, its token, its slots and what it bins. -/
theorem fixedTeam_eq (c : Ctx) (i : Instr) (sp : FixedSpec) (ps : List Pass) :
    ∃ (n : Nat) (ws : List WriteOp), ws.map WriteOp.what = (sp.bins c ps).map (fun x => .reduction x false)
      ∧ c.fixedTeam i sp ps = { c.t with
          pend := (c.t.addPends c.s.free c.o.layout (fixedPends c sp ps (passTok i ps))).pend
          tok := c.t.postedTok (encode i) ps.isEmpty
          q := (c.t.advanceSlots c.o).q
          sdq := c.t.sdq ++ ws
          nextOp := n } := by
  obtain ⟨n, hn⟩ := addPends_eq c.t c.s.free c.o.layout (fixedPends c sp ps (passTok i ps))
  unfold Ctx.fixedTeam
  generalize c.t.addPends c.s.free c.o.layout (fixedPends c sp ps (passTok i ps)) = u at hn
  obtain ⟨m, ws, hws, hu⟩ := posted_binned (t := c.t) (u := u) (o := c.o) (i := i) (ps := ps) (by rw [hn]) (by rw [hn])
    (by rw [hn]) c.s.cycle (sp.bins c ps)
  refine ⟨m, ws, hws, hu.trans ?_⟩
  generalize u.pend = P at hn
  subst hn
  rfl

/-- Pass number `n` stands outstanding with its result, whole if nothing else that is outstanding writes what it writes. -/
theorem fixedTeam_pass (ht : c.t.pend = t.pend) {n : Nat} {p : Pass} (h : ps[n]? = some p) :
    ∃ r, (c.t.addPends c.s.free c.o.layout (fixedPends c sp ps (passTok i ps))).pend[t.pend.length + n]? = some r
      ∧ r.kind = .fixed ∧ r.ready = p.cyc + c.o.latency ∧ r.tok = lanePost (encode i) ∧ r.seq = c.e.seq
      ∧ r.last = decide (n + 1 = ps.length)
      ∧ ((∀ x ∈ t.pend, ∀ k, (k ∈ (sp.eval c p).regs.map Prod.fst → x.hasReg k = false)
            ∧ (k ∈ (sp.eval c p).masks.map Prod.fst → x.maskOf k = none)) →
         (∀ m p', ps[m]? = some p' → m ≠ n →
             ∀ k, (k ∈ (sp.eval c p).regs.map Prod.fst → k ∉ (sp.eval c p').regs.map Prod.fst)
            ∧ (k ∈ (sp.eval c p).masks.map Prod.fst → k ∉ (sp.eval c p').masks.map Prod.fst)) →
         r.regs = (sp.eval c p).regs ∧ r.part = [] ∧ r.masks = (sp.eval c p).masks) := by
  have htok : passTok i ps = lanePost (encode i) := by
    have hne : ps ≠ [] := by
      rintro rfl
      simp at h
    simp [passTok, hne]
  obtain ⟨r, hr, hless, hwhole⟩ := addPends_new (free := c.s.free) (x := c.o.layout) c.t
    (fixedPends c sp ps (passTok i ps)) (fixedPends_get h)
  rw [ht] at hr hwhole
  refine ⟨r, hr, ?_, ?_, ?_, ?_, ?_, fun hold hnew => ?_⟩
  · exact congrArg Pend.kind hless.same
  · exact congrArg Pend.ready hless.same
  · exact (congrArg Pend.tok hless.same).trans htok
  · exact congrArg Pend.seq hless.same
  · exact congrArg Pend.last hless.same
  · have heq := hwhole (fun x hx => apart_of_notMem rfl (hold x hx)) fun m r' hm hne => ?_
    · exact ⟨congrArg Pend.regs heq, congrArg Pend.part heq, congrArg Pend.masks heq⟩
    · have hlt := (List.getElem?_eq_some_iff.mp hm).1
      rw [fixedPends_length] at hlt
      have hp' := List.getElem?_eq_getElem hlt
      rw [fixedPends_get hp'] at hm
      cases hm
      have hd := hnew m _ hp' hne
      exact ⟨apart_of_disjoint rfl rfl fun k => ⟨fun hk hk' => (hd k).1 hk' hk, fun hk hk' => (hd k).2 hk' hk⟩,
        apart_of_disjoint rfl rfl hd⟩

/-- Settles O28: the head of the queue begins, its passes are queued as outstanding operations one behind the other, and what ends
the instruction touches nothing else. -/
theorem laneIssue : Obligations.LaneIssue := by
  intro s i o sp e rest hi hhead t ps q c hchk hguard hfails hwaits hlost hpoison
  have hbegin : s.beginLane i o sp.quad sp.rl sp.wl = .ok (c, ps) := beginLane_ok hhead hwaits hchk
  have hissue : s.issueFixed i o sp = s.endLane (c.fixedTeam i sp ps) ps.length o.f.stall.toNat :=
    issueFixed_ok hbegin rfl rfl hguard hfails hlost hpoison
  have hexec : exec i s = .next (s.endLane (c.fixedTeam i sp ps) ps.length o.f.stall.toNat) := by
    rw [exec_of_fixed hi, hissue]
  obtain ⟨n, ws, hws, hteam⟩ := fixedTeam_eq c i sp ps
  have hlen : (c.t.addPends c.s.free c.o.layout (fixedPends c sp ps (passTok i ps))).pend.length = t.pend.length + ps.length :=
    (addPends_length _ _ _ _).trans (congrArg (t.pend.length + ·) fixedPends_length)
  rw [hteam] at hexec
  refine ⟨_, issues_of_endLane hexec rfl rfl rfl rfl rfl rfl rfl rfl rfl, rfl, rfl, rfl, rfl, hlen, fun m p hm => ?_,
    fun hnone => ?_, ?_⟩
  · rw [← latency_of_fixed hi]
    exact fixedTeam_pass (c := c) rfl hm
  · rw [bins_of_fixed hi hnone, List.map_nil, List.map_eq_nil_iff] at hws
    rw [hws]
    exact List.append_nil _
  · exact List.map_append.trans (congrArg (_ ++ ·) hws)

end Sys2Proof.Laws
end

section
/-!
Lane loads, stores and prefetches (R40, R122, R248 to R254).
-/

namespace Sys2Proof.Machine

/-- What a load leaves outstanding whose accesses have all passed. -/
def Ctx.loaded (c : Ctx) (accs : List LaneAcc) (tok : Option Nat) : Pend :=
  { id := c.t.nextOp, kind := .load, seq := c.e.seq, pc := c.e.pc, tok := tok, names := c.o.names, born := c.s.ticks,
    regs := accs.flatMap c.loadRegs, fabric := fabricLanes accs, far := (accs.flatMap fun a => a.chk.keys).filter onFabric,
    sources := accs.map fun a => ((c.loadRegs a).map Prod.fst, a.chk.keys, c.o.ty) }

/-- The parts of the writes of a store: where lanes write one byte, what each writes there is that of one of them. -/
def Ctx.storeWrites (c : Ctx) (accs : List LaneAcc) : List (WriteWhat × Option Word) :=
  if ((accs.flatMap c.storeBytes).map Prod.fst).Nodup then accs.flatMap fun a => storeParts a.addr (c.storeBytes a)
  else accs.flatMap fun a => storeParts a.addr ((c.storeBytes a).map fun b =>
    (b.1, (((oneWriter c.s.free (accs.flatMap c.storeBytes)).find? fun x => x.1 == b.1).map Prod.snd).getD b.2))

/-- The team after a store has become outstanding, has posted and has queued its writes. -/
def Ctx.stored (c : Ctx) (ps : List Pass) (accs : List LaneAcc) (tok : Option Nat) : Team :=
  (if ps.isEmpty then c.t else
    (c.outstanding ps tok .store).addWrites c.t.nextOp c.s.cycle c.o.release (c.storeWrites accs)).noteStale c.s c.o.isG
      ((accs.flatMap c.storeBytes).map Prod.fst)

/-- The team after an operation with passes has become outstanding and has posted. -/
def Ctx.issued (c : Ctx) (ps : List Pass) (q : Pend) (tok : Option Nat) : Team :=
  if ps.isEmpty then c.t else ((c.t.addPend c.s.free c.o.layout (passCycle c.s.cycle ps) q).newOp).postOpt tok

end Sys2Proof.Machine

namespace Sys2Proof.Laws

open Sys2Proof Sys2Proof.Machine

variable {s : State} {t : Team} {f : LaneFields} {c : Ctx} {e : LaneEntry} {rest : List LaneEntry} {ps : List Pass}

/-! ### Addresses (R249) -/

theorem ofNat_wrapTo (z : Int) (n : Nat) : BitVec.ofNat n (wrapTo z n) = BitVec.ofInt n z := by
  apply BitVec.eq_of_toNat_eq
  rw [BitVec.toNat_ofNat, BitVec.toNat_ofInt, wrapTo, Nat.mod_eq_of_lt]
  have := Int.emod_lt_of_pos z (b := ((2 ^ n : Nat) : Int)) (by positivity)
  have := Int.emod_nonneg z (b := ((2 ^ n : Nat) : Int)) (by positivity)
  omega

/-- The signed reading of the low bits of a number is that of a bit vector. -/
theorem sext_eq_toInt (x n : Nat) : sext x (n + 1) = (BitVec.ofNat (n + 1) x).toInt := by
  rw [BitVec.toInt_eq_toNat_cond, BitVec.toNat_ofNat, sext, Nat.add_sub_cancel]
  have : 2 ^ (n + 1) = 2 * 2 ^ n := Nat.pow_succ'
  split
  · rw [if_neg (by omega)]
  · rw [if_pos (by omega)]

theorem ofInt_sext (x n m : Nat) : BitVec.ofInt m (sext x (n + 1)) = (BitVec.ofNat (n + 1) x).signExtend m := by
  rw [sext_eq_toInt]
  rfl

theorem ofNat_fld (x : BitVec 32) (lo len : Nat) : BitVec.ofNat len (fld x.toNat lo len) = x.extractLsb' lo len := by
  apply BitVec.eq_of_toNat_eq
  simp [fld, Nat.shiftRight_eq_div_pow]

theorem modF_eq (f : LaneFields) (lo len : Nat) : f.modF lo len = (f.mod.extractLsb' lo len).toNat := by
  simp [LaneFields.modF, fld, Nat.shiftRight_eq_div_pow]

theorem ofInt_off (o : LaneOp) : BitVec.ofInt 64 o.off = (o.f.imm.extractLsb' 20 12).signExtend 64 := by
  rw [LaneOp.off, ofInt_sext, ← ofNat_fld]
  rfl

theorem ofInt_index (c : Ctx) (cyc l : Nat) : BitVec.ofInt 64 (c.index cyc l)
    = (if c.o.f.b.toNat = 0xEC then 0 else BitVec.ofNat 32 (c.src c.o.f.b 0xB cyc l)).signExtend 64 := by
  unfold Ctx.index
  split
  · rfl
  · exact ofInt_sext _ _ _

theorem laneAddresses : Claims.LaneAddresses := by
  intro c₀ f op cyc l c base index off
  have haddr (k : Int) : BitVec.ofInt 64 ((c.base cyc l : Int) + c.index cyc l * k + c.o.off)
      = base + index.signExtend 64 * BitVec.ofInt 64 k + off := by
    rw [BitVec.ofInt_add, BitVec.ofInt_add, BitVec.ofInt_mul, BitVec.ofInt_natCast, ofInt_index, ofInt_off]
  have hmod : c.o.f.modF 1 2 = (f.mod.extractLsb' 1 2).toNat := modF_eq f 1 2
  refine ⟨fun hm => ?_, fun hm => ?_⟩
  · rw [Ctx.addr8, ofNat_wrapTo, hmod, hm, if_neg (by decide), haddr]
    simp
  · rw [Ctx.addr8, ofNat_wrapTo, hmod, hm, if_pos (by decide), haddr, BitVec.ofInt_natCast]

/-! ### The passes of a mask (R34) -/

/-- The passes found in the warps below `n`. -/
theorem passes_below (t : Team) (free cyc m n : Nat) :
    let ps := (List.range n).foldl (fun acc w =>
      let ls := t.activeLanes free (cyc + acc.length) m w
      if ls.isEmpty then acc else acc ++ [⟨w, cyc + acc.length, ls⟩]) ([] : List Pass)
    (∀ p ∈ ps, p.warp < n ∧ p.lanes = t.activeLanes free p.cyc m p.warp) ∧ ∀ p ∈ ps, ∀ p' ∈ ps, p.warp = p'.warp → p = p' := by
  induction n with
  | zero => simp
  | succ n ih =>
    rw [List.range_succ, List.foldl_append]
    generalize (List.range n).foldl _ _ = acc at ih ⊢
    obtain ⟨hwarp, huniq⟩ := ih
    dsimp only [List.foldl_cons, List.foldl_nil]
    split
    · exact ⟨fun p hp => ⟨Nat.lt_succ_of_lt (hwarp p hp).1, (hwarp p hp).2⟩, huniq⟩
    · simp only [List.mem_append, List.mem_singleton]
      refine ⟨?_, ?_⟩
      · rintro p (hp | rfl)
        · exact ⟨Nat.lt_succ_of_lt (hwarp p hp).1, (hwarp p hp).2⟩
        · exact ⟨Nat.lt_succ_self n, rfl⟩
      · rintro p (hp | rfl) p' (hp' | rfl) hw
        · exact huniq p hp p' hp' hw
        · exact absurd hw (hwarp p hp).1.ne
        · exact absurd hw (hwarp p' hp').1.ne'
        · rfl

theorem passesFrom_warp {free cyc m : Nat} {p p' : Pass} (h : p ∈ t.passesFrom false free cyc m)
    (h' : p' ∈ t.passesFrom false free cyc m) (hw : p.warp = p'.warp) : p = p' :=
  (passes_below t free cyc m t.nwarp).2 p h p' h' hw

/-- A lane of a pass is one of its warp, and of a team's 1,024 lanes. -/
theorem passesFrom_lane {free cyc m l : Nat} {p : Pass} (h : p ∈ t.passesFrom false free cyc m) (hl : l ∈ p.lanes) :
    l / 32 = p.warp ∧ l < 1024 := by
  rw [((passes_below t free cyc m t.nwarp).1 p h).2, Team.activeLanes, List.mem_filter, warpLanes, List.mem_map] at hl
  obtain ⟨⟨i, hi, rfl⟩, hact⟩ := hl
  have hi := List.mem_range.mp hi
  refine ⟨by omega, ?_⟩
  by_contra hn
  rw [BitVec.getLsbD_of_ge _ _ (by omega)] at hact
  simp at hact

/-! ### The slots and the beginning of an access -/

theorem slots_of_addrOk {op : Nat} (ha : f.addrOk = true) (hd : op = 1 → isReg f.d = true) : LaneOp.slots ⟨8, op, f⟩ = [] := by
  have hreg (x : BitVec 8) (h : isReg x = true) : isSlot x = false := by
    simp only [isReg, isSlot, decide_eq_true_eq, Bool.and_eq_false_iff, decide_eq_false_iff_not] at h ⊢
    omega
  simp only [LaneFields.addrOk, Bool.and_eq_true, Bool.or_eq_true, Bool.not_eq_true', regOk] at ha
  obtain ⟨⟨⟨ha, hb⟩, -⟩, -⟩ := ha
  have ha : isSlot f.a = false := by
    rcases ha with h | h
    · simp only [isCap, isSlot, Bool.or_eq_true, decide_eq_true_eq, Bool.and_eq_false_iff, decide_eq_false_iff_not] at h ⊢
      omega
    · exact hreg _ h.1
  by_cases hop : op = 1
  · simp [LaneOp.slots, LaneOp.sources, LaneOp.isCvt, LaneOp.isMem, ha, hb, hop, hreg _ (hd hop)]
  · simp [LaneOp.slots, LaneOp.sources, LaneOp.isCvt, LaneOp.isMem, ha, hb, hop]

/-- An access whose operands are in registers begins with no slots. -/
theorem beginLane_mem {i : Instr} {o : LaneOp} {rl : Ctx → BitVec 8 → Pass → List Nat} {wl : Ctx → Pass → List Nat}
    (h : s.laneHead i e rest) (hs : o.slots = [])
    (hc : s.laneChecked o e rest (s.lanePasses o false rest) (rl (s.laneCtx o e rest [])) (wl (s.laneCtx o e rest []))) :
    s.beginLane i o false rl wl = .ok (s.laneCtx o e rest [], s.lanePasses o false rest) := by
  have hq := consumeAll_of_slots (s := s) (t := s.team.popped rest) hs ((s.lanePasses o false rest).flatMap Pass.lanes)
  have hb := beginLane_ok (quad := false) (rl := rl) (wl := wl) h (congrArg Consumed.waits hq) (by rw [hq]; exact hc)
  rwa [hq] at hb

/-! ### What becomes outstanding -/

theorem postOpt_lanePost (t : Team) (w : Nat) : t.postOpt (lanePost w) = { t with tok := t.postedTok w false } := by
  unfold Team.postedTok
  cases lanePost w <;> rfl

/-- The team is what it was, but for one more outstanding operation and its token. -/
theorem issued_eq (c : Ctx) (ps : List Pass) (q : Pend) (w : Nat) :
    ∃ P K n, c.issued ps q (lanePost w) = { c.t with pend := P, tok := K, nextOp := n }
      ∧ P = (c.issued ps q (lanePost w)).pend ∧ K = c.t.postedTok w ps.isEmpty := by
  unfold Ctx.issued
  cases ps.isEmpty with
  | true =>
    refine ⟨c.t.pend, c.t.tok, c.t.nextOp, rfl, rfl, ?_⟩
    unfold Team.postedTok
    cases lanePost w <;> rfl
  | false =>
    simp only [Bool.false_eq_true, if_false]
    rw [postOpt_lanePost]
    exact ⟨_, _, c.t.nextOp + 1, rfl, rfl, rfl⟩

theorem issued_pend_length (c : Ctx) (ps : List Pass) (q : Pend) (w : Nat) :
    (c.issued ps q (lanePost w)).pend.length = c.t.pend.length + if ps.isEmpty then 0 else 1 := by
  unfold Ctx.issued
  split
  · rfl
  · rw [postOpt_lanePost]
    exact addPend_length _ _ _ _ _

theorem issued_pend_of_nil (hps : ps ≠ []) (ht : c.t.pend = []) (q : Pend) (w : Nat) :
    (c.issued ps q (lanePost w)).pend = [q] := by
  rw [Ctx.issued, if_neg (by simpa using hps), postOpt_lanePost]
  exact addPend_of_nil _ _ _ _ _ ht

/-! ### Loads (R248, R251) -/

theorem accTrap_none {accs : List LaneAcc} (h : ∀ a ∈ accs, a.chk.fails = []) : s.accTrap e accs = none := by
  have hn : (accs.flatMap fun a => a.chk.fails) = [] := List.flatMap_eq_nil_iff.mpr h
  rw [State.accTrap, hn]
  rfl

theorem exec_laneLd {accs : List LaneAcc}
    (hb : s.beginLane (.laneLd f) ⟨8, 0x00, f⟩ false memReads (fun c => c.o.dataLanes) = .ok (c, ps)) (hs : c.s = s)
    (hacc : c.accesses needR ps = accs) (hclear : s.laneClear c.t accs) :
    exec (.laneLd f) s = .next (s.endLane (c.issued ps (c.loaded accs (lanePost (encode (.laneLd f)))) (lanePost (encode (.laneLd f))))
      ps.length f.stall.toNat) := by
  have htrap : s.accTrap c.e accs = none := accTrap_none fun a ha => (hclear a ha).1
  have hwait : (accs.any fun a => s.mustWait c.t a.chk.keys) = false := List.any_eq_false.mpr fun a ha => by
    obtain ⟨-, hw, -, -⟩ := hclear a ha
    simp [hw]
  have hhit : (accs.filter fun a => s.loadPoisoned c.t a.chk.keys) = [] := List.filter_eq_nil_iff.mpr fun a ha => by
    obtain ⟨-, -, hp, -⟩ := hclear a ha
    simp [hp]
  have hreach : (accs.filter fun a => a.chk.keys.any s.unreachable) = [] := List.filter_eq_nil_iff.mpr fun a ha => by
    obtain ⟨-, -, -, hu⟩ := hclear a ha
    simp [hu]
  have hlost : s.lostLanes accs = [] := congrArg (List.map _) hreach
  change execLaneLd f s = _
  unfold execLaneLd
  rw [hb]
  dsimp only
  rw [hacc, htrap]
  dsimp only
  rw [hwait, hlost, hhit, if_neg Bool.false_ne_true]
  simp only [List.map_nil, List.flatMap_nil, List.any_nil, List.contains_nil, Bool.not_false, Bool.and_self,
    List.filter_true, checkTags_nil]
  subst hs
  exact congrArg (fun u => Host.Outcome.next (c.s.endLane u ps.length f.stall.toNat)) (async_append_nil _)

/-- The accesses of lanes whose elements are no records: one for each active lane, checked as it is. -/
theorem mem_accesses {need : Nat} {a : LaneAcc} (hty : tyIsBlock c.o.ty = false) :
    a ∈ c.accesses need ps ↔ ∃ p ∈ ps, ∃ l ∈ p.lanes,
      a = ⟨l, p, c.addr8 p.cyc l, c.s.check c.t c.o.isG need l (c.addr8 p.cyc l) c.o.size⟩ := by
  simp [Ctx.accesses, LaneOp.addrLanes, hty, eq_comm]

theorem mem_putRegs {d l x n : Nat} {y : Nat × Lane32} :
    y ∈ putRegs d l x n ↔ ∃ i, i < n ∧ y = (1024 * (d + i) + l, BitVec.ofNat 32 (x / 2 ^ (32 * i))) := by
  induction n generalizing d x with
  | zero => simp [putRegs]
  | succ n ih =>
    rw [putRegs, List.mem_cons, ih]
    constructor
    · rintro (rfl | ⟨i, hi, rfl⟩)
      · exact ⟨0, by omega, by simp [vKey]⟩
      · refine ⟨i + 1, by omega, ?_⟩
        rw [Nat.div_div_eq_div_mul, ← Nat.pow_add, Nat.add_assoc d, Nat.add_comm 1 i, Nat.mul_succ, Nat.add_comm 32]
    · rintro ⟨i, hi, rfl⟩
      cases i with
      | zero => exact .inl (by simp [vKey])
      | succ i =>
        refine .inr ⟨i, by omega, ?_⟩
        rw [Nat.div_div_eq_div_mul, ← Nat.pow_add, Nat.add_assoc d, Nat.add_comm 1 i, Nat.mul_succ, Nat.add_comm 32]

theorem find?_eq_some_of_unique {α : Type} {l : List α} {p : α → Bool} {y : α} (hy : y ∈ l) (hp : p y = true)
    (hu : ∀ x ∈ l, p x = true → x = y) : l.find? p = some y := by
  obtain ⟨x, hx⟩ := Option.isSome_iff_exists.mp (List.find?_isSome.mpr ⟨y, hy, hp⟩)
  rw [hx, hu x (List.mem_of_find?_eq_some hx) (List.find?_some hx)]

/-- The registers of an element hold its value as the type extends it, 32 bits each. -/
theorem laneReg_loaded {tok : Option Nat} {free cyc m l i : Nat} {p : Pass} (hty : tyIsBlock c.o.ty = false)
    (hps : ps = t.passesFrom false free cyc m) (hp : p ∈ ps) (hl : l ∈ p.lanes) (hi : i < c.o.width) :
    (c.loaded (c.accesses needR ps) tok).laneReg (c.o.f.d.toNat + i) l = some (BitVec.ofNat 32
      (extendLoad c.o.ty (c.s.load c.t (c.s.check c.t c.o.isG needR l (c.addr8 p.cyc l) c.o.size).keys) / 2 ^ (32 * i))) := by
  subst hps
  have hmem (y : Nat × Lane32) : y ∈ (c.loaded (c.accesses needR (t.passesFrom false free cyc m)) tok).regs ↔
      ∃ p ∈ t.passesFrom false free cyc m, ∃ l ∈ p.lanes, ∃ i, i < c.o.width ∧ y = (1024 * (c.o.f.d.toNat + i) + l, BitVec.ofNat 32
        (extendLoad c.o.ty (c.s.load c.t (c.s.check c.t c.o.isG needR l (c.addr8 p.cyc l) c.o.size).keys) / 2 ^ (32 * i))) := by
    simp only [Ctx.loaded, List.mem_flatMap, mem_accesses hty]
    constructor
    · rintro ⟨_, ⟨p, hp, l, hl, rfl⟩, hy⟩
      rw [Ctx.loadRegs, hty] at hy
      exact ⟨p, hp, l, hl, mem_putRegs.mp hy⟩
    · rintro ⟨p, hp, l, hl, hy⟩
      refine ⟨_, ⟨p, hp, l, hl, rfl⟩, ?_⟩
      rw [Ctx.loadRegs, hty]
      exact mem_putRegs.mpr hy
  unfold Pend.laneReg
  rw [find?_eq_some_of_unique ((hmem _).mpr ⟨p, hp, l, hl, i, hi, rfl⟩) (by simp) ?_]
  · rfl
  · intro y hy hk
    obtain ⟨p', hp', l', hl', i', hi', rfl⟩ := (hmem y).mp hy
    have hlane := passesFrom_lane hp hl
    have hlane' := passesFrom_lane hp' hl'
    have hkey : 1024 * (c.o.f.d.toNat + i') + l' = 1024 * (c.o.f.d.toNat + i) + l := by simpa using hk
    obtain rfl : l' = l := by omega
    obtain rfl : i' = i := by omega
    obtain rfl : p' = p := passesFrom_warp hp' hp (by omega)
    rfl

theorem extendLoad_signed8 (x : Nat) : BitVec.ofNat 32 (extendLoad 5 x) = (BitVec.ofNat 8 x).signExtend 32 := by
  rw [extendLoad, if_pos rfl, ofNat_wrapTo, ofInt_sext]

theorem extendLoad_signed16 (x : Nat) : BitVec.ofNat 32 (extendLoad 6 x) = (BitVec.ofNat 16 x).signExtend 32 := by
  rw [extendLoad, if_neg (by decide), if_pos rfl, ofNat_wrapTo, ofInt_sext]

theorem ldOk_slots (h : (Instr.laneLd f).wf = true) : LaneOp.slots ⟨8, 0x00, f⟩ = [] := by
  have hok : f.ldOk = true := h
  simp only [LaneFields.ldOk, LaneFields.memOk, Bool.and_eq_true] at hok
  obtain ⟨⟨⟨⟨⟨⟨⟨-, ha⟩, -⟩, -⟩, -⟩, -⟩, -⟩, -⟩ := hok
  exact slots_of_addrOk ha (fun h => absurd h (by decide))

theorem width_mem (op : Nat) (f : LaneFields) : LaneOp.width ⟨8, op, f⟩ = if tyBits f.ty.toNat = 64 then 2 else 1 :=
  if_neg (by simp [LaneOp.untyped])

/-- Types of up to 32 bits that are not extended with a sign. -/
theorem unsigned_types : ∀ ty : BitVec 4, ty ∈ [1#4, 2#4, 3#4, 4#4, 7#4, 9#4, 0xA#4, 0xB#4] →
    tyIsBlock ty.toNat = false ∧ tyBits ty.toNat ≠ 64 ∧ ty.toNat ≠ 5 ∧ ty.toNat ≠ 6 := by decide

theorem wide_types : ∀ ty : BitVec 4, ty ∈ [0#4, 8#4, 0xC#4] →
    tyIsBlock ty.toNat = false ∧ tyBits ty.toNat = 64 ∧ ty.toNat ≠ 5 ∧ ty.toNat ≠ 6 := by decide

theorem extendLoad_unsigned {ty : Nat} (h5 : ty ≠ 5) (h6 : ty ≠ 6) (x : Nat) : extendLoad ty x = x := by
  rw [extendLoad, if_neg h5, if_neg h6]

/-- What the registers of an element hold, type by type (R251). -/
theorem loaded_types {r : Pend} {l x : Nat} (hreg : ∀ i, tyIsBlock f.ty.toNat = false →
      i < (if tyBits f.ty.toNat = 64 then 2 else 1) →
      r.laneReg (f.d.toNat + i) l = some (BitVec.ofNat 32 (extendLoad f.ty.toNat x / 2 ^ (32 * i)))) :
    (f.ty = 5#4 → r.laneReg f.d.toNat l = some ((BitVec.ofNat 8 x).signExtend 32))
      ∧ (f.ty = 6#4 → r.laneReg f.d.toNat l = some ((BitVec.ofNat 16 x).signExtend 32))
      ∧ (f.ty ∈ [1#4, 2#4, 3#4, 4#4, 7#4, 9#4, 0xA#4, 0xB#4] → r.laneReg f.d.toNat l = some (BitVec.ofNat 32 x))
      ∧ (f.ty ∈ [0#4, 8#4, 0xC#4] → r.laneReg f.d.toNat l = some (BitVec.ofNat 32 x)
          ∧ r.laneReg (f.d.toNat + 1) l = some (BitVec.ofNat 32 (x / 2 ^ 32))) := by
  have hfirst (hty : tyIsBlock f.ty.toNat = false) :
      r.laneReg f.d.toNat l = some (BitVec.ofNat 32 (extendLoad f.ty.toNat x)) := by
    have h := hreg 0 hty (by split <;> decide)
    rwa [Nat.mul_zero, Nat.pow_zero, Nat.div_one] at h
  refine ⟨fun h => ?_, fun h => ?_, fun h => ?_, fun h => ?_⟩
  · rw [hfirst (by rw [h]; rfl), h]
    exact congrArg some (extendLoad_signed8 x)
  · rw [hfirst (by rw [h]; rfl), h]
    exact congrArg some (extendLoad_signed16 x)
  · obtain ⟨hb, -, h5, h6⟩ := unsigned_types f.ty h
    rw [hfirst hb, extendLoad_unsigned h5 h6]
  · obtain ⟨hb, hw, h5, h6⟩ := wide_types f.ty h
    refine ⟨?_, ?_⟩
    · rw [hfirst hb, extendLoad_unsigned h5 h6]
    · rw [hreg 1 hb (by rw [if_pos hw]; decide), extendLoad_unsigned h5 h6]

theorem laneLoads : Claims.LaneLoads := by
  intro s f e rest hwf hhead o t ps c hchk hclear
  have hbegin : s.beginLane (.laneLd f) o false memReads (fun c => c.o.dataLanes) = .ok (c, ps) :=
    beginLane_mem hhead (ldOk_slots hwf) hchk
  have hexec := exec_laneLd hbegin rfl rfl hclear
  obtain ⟨P, K, n, hteam, hP, hK⟩ := issued_eq c ps (c.loaded (c.accesses needR ps) (lanePost (encode (.laneLd f)))) (encode (.laneLd f))
  rw [hteam] at hexec
  refine ⟨_, issues_of_endLane hexec rfl rfl rfl rfl rfl rfl rfl rfl rfl, rfl, rfl, rfl, hK, rfl,
    (congrArg List.length hP).trans (issued_pend_length c ps _ _), fun hps ht => ?_⟩
  refine ⟨_, hP.trans (issued_pend_of_nil hps ht _ _), rfl, rfl, rfl, rfl, rfl, fun p hp l hl => ?_⟩
  refine loaded_types fun i hty hi => laneReg_loaded (c := c) hty rfl hp hl ?_
  exact hi.trans_eq (width_mem 0 f).symm

/-! ### Prefetches (R254) -/

theorem exec_lanePref {accs : List LaneAcc}
    (hb : s.beginLane (.lanePref f) ⟨8, 0x02, f⟩ false memReads (fun _ _ => []) = .ok (c, ps)) (hacc : c.accesses needR ps = accs)
    (hf : ∀ a ∈ accs, a.chk.fails = []) (hheld : s.fabricHeld (accs.flatMap fun a => a.chk.keys) = false) :
    exec (.lanePref f) s = .next (s.endLane (c.issued ps (c.posted (lanePost (encode (.lanePref f))) .prefetch)
      (lanePost (encode (.lanePref f)))) ps.length f.stall.toNat) := by
  change execLanePref f s = _
  unfold execLanePref
  rw [hb]
  dsimp only
  rw [hacc, accTrap_none hf]
  dsimp only
  rw [hheld, if_neg Bool.false_ne_true]
  rfl

theorem prefOk_slots (h : (Instr.lanePref f).wf = true) : LaneOp.slots ⟨8, 0x02, f⟩ = [] := by
  have hok : f.prefOk = true := h
  simp only [LaneFields.prefOk, LaneFields.memOk, Bool.and_eq_true] at hok
  obtain ⟨⟨⟨⟨⟨⟨⟨⟨-, ha⟩, -⟩, -⟩, -⟩, -⟩, -⟩, -⟩, -⟩ := hok
  exact slots_of_addrOk ha (fun h => absurd h (by decide))

theorem lanePrefetches : Claims.LanePrefetches := by
  intro s f e rest hwf hhead o t ps c hchk hfails hheld
  have hbegin : s.beginLane (.lanePref f) o false memReads (fun _ _ => []) = .ok (c, ps) :=
    beginLane_mem hhead (prefOk_slots hwf) hchk
  have hexec := exec_lanePref hbegin rfl hfails hheld
  obtain ⟨P, K, n, hteam, hP, hK⟩ := issued_eq c ps (c.posted (lanePost (encode (.lanePref f))) .prefetch) (encode (.lanePref f))
  rw [hteam] at hexec
  exact ⟨_, issues_of_endLane hexec rfl rfl rfl rfl rfl rfl rfl rfl rfl, rfl, rfl, rfl, hK, rfl,
    (congrArg List.length hP).trans (issued_pend_length c ps _ _)⟩

/-! ### Stores (R122, R252) -/

theorem exec_laneSt {accs : List LaneAcc}
    (hb : s.beginLane (.laneSt f) ⟨8, 0x01, f⟩ false memReads (fun _ _ => []) = .ok (c, ps)) (hs : c.s = s)
    (hacc : c.accesses needW ps = accs) (hf : ∀ a ∈ accs, a.chk.fails = []) (hheld : s.fabricHeld (accs.flatMap fun a => a.chk.keys) = false) :
    exec (.laneSt f) s = .next (s.endLane (c.stored ps accs (lanePost (encode (.laneSt f)))) ps.length f.stall.toNat) := by
  change execLaneSt f s = _
  unfold execLaneSt
  rw [hb]
  dsimp only
  rw [hacc, accTrap_none hf]
  dsimp only
  rw [hheld, if_neg Bool.false_ne_true]
  subst hs
  rfl

theorem noteStale_eq (t : Team) (s : State) (g : Bool) (keys : List Nat) : ∃ x, t.noteStale s g keys = { t with stale := x } := by
  unfold Team.noteStale
  split
  · exact ⟨_, rfl⟩
  · exact ⟨_, rfl⟩

/-- The team is what it was, but for its outstanding store, its token, and what it has queued and fetched. -/
theorem stored_eq (c : Ctx) (ps : List Pass) (accs : List LaneAcc) (w : Nat) :
    ∃ P K n x m, c.stored ps accs (lanePost w) = { c.t with
        pend := P, tok := K, nextOp := n, stale := x
        sdq := c.t.sdq ++ if ps.isEmpty then [] else queuedWrites m c.t.nextOp c.s.cycle c.o.release (c.storeWrites accs) false }
      ∧ P = (c.issued ps (c.posted (lanePost w) .store) (lanePost w)).pend ∧ K = c.t.postedTok w ps.isEmpty := by
  unfold Ctx.stored Ctx.issued
  cases ps.isEmpty with
  | true =>
    obtain ⟨x, hx⟩ := noteStale_eq c.t c.s c.o.isG ((accs.flatMap c.storeBytes).map Prod.fst)
    refine ⟨c.t.pend, c.t.tok, c.t.nextOp, x, 0, ?_, rfl, ?_⟩
    · rw [if_pos rfl, if_pos rfl, List.append_nil]
      exact hx
    · unfold Team.postedTok
      cases lanePost w <;> rfl
  | false =>
    simp only [Bool.false_eq_true, if_false]
    rw [postOpt_lanePost, Ctx.outstanding, postOpt_lanePost, addWrites_eq]
    obtain ⟨x, hx⟩ := noteStale_eq _ c.s c.o.isG ((accs.flatMap c.storeBytes).map Prod.fst)
    exact ⟨_, _, _, x, _, hx, rfl, rfl⟩

theorem mem_queuedWrites {first op cycle : Nat} {release : Option Nat} {ws : List (WriteWhat × Option Word)} {acquire : Bool}
    {w : WriteOp} (h : w ∈ queuedWrites first op cycle release ws acquire) :
    w.born = cycle ∧ w.departed = false ∧ w.acquire = acquire ∧ w.release = release := by
  obtain ⟨x, -, rfl⟩ := List.mem_map.mp h
  exact ⟨rfl, rfl, rfl, rfl⟩

theorem release_eq (op : Nat) (f : LaneFields) : LaneOp.release ⟨8, op, f⟩
    = if 2 ≤ (f.mod.extractLsb' 3 2).toNat then some (f.imm.extractLsb' 16 4).toNat else none := by
  have himm : f.immF 16 4 = (f.imm.extractLsb' 16 4).toNat := by
    simp [LaneFields.immF, fld, Nat.shiftRight_eq_div_pow]
  rw [← modF_eq, ← himm]
  rfl

/-! ### Queued writes as later loads of the team see them (R122) -/

theorem forward_append (ws ws' : List WriteOp) (k : Nat) :
    forward (ws ++ ws') k = (forward ws' k).or (forward ws k) := by
  induction ws with
  | nil => simp [forward]
  | cons w ws ih =>
    rw [List.cons_append, forward, ih, forward]
    cases forward ws' k <;> simp

theorem forward_none {ws : List WriteOp} {k : Nat} (h : ∀ w ∈ ws, w.data k = none) : forward ws k = none := by
  induction ws with
  | nil => rfl
  | cons w ws ih =>
    rw [forward, ih fun x hx => h x (List.mem_cons_of_mem _ hx)]
    exact h w List.mem_cons_self

/-- Where every queued write of a byte writes the same there, that is what a load finds. -/
theorem forward_some {ws : List WriteOp} {k : Nat} {b : Byte} (h : ∀ w ∈ ws, ∀ x, w.data k = some x → x = b)
    (hw : ∃ w ∈ ws, w.data k = some b) : forward ws k = some b := by
  induction ws with
  | nil => obtain ⟨w, hm, -⟩ := hw; cases hm
  | cons w ws ih =>
    have hrest (x : WriteOp) (hx : x ∈ ws) : ∀ y, x.data k = some y → y = b := h x (List.mem_cons_of_mem _ hx)
    rw [forward]
    by_cases hn : ∀ x ∈ ws, x.data k = none
    · rw [forward_none hn]
      obtain ⟨x, hx, hd⟩ := hw
      rcases List.mem_cons.mp hx with rfl | hx
      · exact hd
      · rw [hn x hx] at hd
        cases hd
    · push Not at hn
      obtain ⟨x, hx, hd⟩ := hn
      obtain ⟨y, hy⟩ := Option.ne_none_iff_exists'.mp hd
      rw [ih hrest ⟨x, hx, (hrest x hx y hy) ▸ hy⟩]

/-! ### The bytes of a store -/

theorem storeBytes_fst (c : Ctx) (a : LaneAcc) : (c.storeBytes a).map Prod.fst = a.chk.keys := by
  rw [Ctx.storeBytes, spread, List.map_fst_zip]
  rw [leBytes_length]

theorem storeKeys (c : Ctx) (accs : List LaneAcc) :
    (accs.flatMap c.storeBytes).map Prod.fst = accs.flatMap fun a => a.chk.keys := by
  rw [List.map_flatMap]
  exact congrArg accs.flatMap (funext fun a => storeBytes_fst c a)

/-- A part of a store holds the bytes of one access; each byte lies in a part. -/
theorem mem_storeParts {ea : Nat} {bs : List (Nat × Byte)} {x : WriteWhat × Option Word} (h : x ∈ storeParts ea bs) :
    ∃ part, x.1 = .bytes part ∧ ∀ b ∈ part, b ∈ bs := by
  simp only [storeParts, sectorParts, List.map_map, List.mem_map] at h
  obtain ⟨sec, -, rfl⟩ := h
  exact ⟨_, rfl, fun b hb => (List.mem_filter.mp hb).1⟩

theorem exists_storePart {ea : Nat} {bs : List (Nat × Byte)} {b : Nat × Byte} (h : b ∈ bs) :
    ∃ x ∈ storeParts ea bs, ∃ part, x.1 = .bytes part ∧ b ∈ part := by
  refine ⟨_, List.mem_map.mpr ⟨bs.filter fun y => sectorOf y.1 == sectorOf b.1, ?_, rfl⟩, _, rfl, ?_⟩
  · refine List.mem_map.mpr ⟨sectorOf b.1, ?_, rfl⟩
    rw [List.mem_eraseDups]
    exact List.mem_map_of_mem h
  · exact List.mem_filter.mpr ⟨h, by simp⟩

/-- A queued write that holds bytes of `bs`, each byte once, finds a byte there or none. -/
theorem data_of_bytes {w : WriteOp} {part bs : List (Nat × Byte)} {k : Nat} {x : Byte} (hw : w.what = .bytes part)
    (hsub : ∀ b ∈ part, b ∈ bs) (h : w.data k = some x) : (k, x) ∈ bs := by
  rw [WriteOp.data, hw] at h
  obtain ⟨b, hb, rfl⟩ := Option.map_eq_some_iff.mp h
  have hk : b.1 = k := by simpa using List.find?_some hb
  subst hk
  exact hsub b (List.mem_of_find?_eq_some hb)

theorem data_of_mem {w : WriteOp} {part : List (Nat × Byte)} {b : Nat × Byte} (hw : w.what = .bytes part) (hb : b ∈ part) :
    ∃ x, w.data b.1 = some x := by
  rw [WriteOp.data, hw]
  obtain ⟨y, hy⟩ := Option.isSome_iff_exists.mp (List.find?_isSome (p := fun y => y.1 == b.1).mpr ⟨b, hb, by simp⟩)
  exact ⟨y.2, congrArg (Option.map Prod.snd) hy⟩

theorem eq_of_nodup_fst {bs : List (Nat × Byte)} (h : (bs.map Prod.fst).Nodup) {k : Nat} {x y : Byte} (hx : (k, x) ∈ bs)
    (hy : (k, y) ∈ bs) : x = y :=
  congrArg Prod.snd (List.inj_on_of_nodup_map h hx hy rfl)

section Queued

variable {first op cycle : Nat} {release : Option Nat} {accs : List LaneAcc} {acquire : Bool}

theorem what_of_mem {w : WriteOp} (hnodup : ((accs.flatMap c.storeBytes).map Prod.fst).Nodup)
    (h : w ∈ queuedWrites first op cycle release (c.storeWrites accs) acquire) :
    ∃ part, w.what = .bytes part ∧ ∀ b ∈ part, b ∈ accs.flatMap c.storeBytes := by
  have hw := List.mem_map_of_mem (f := WriteOp.what) h
  rw [queuedWrites_what, Ctx.storeWrites, if_pos hnodup, List.mem_map] at hw
  obtain ⟨x, hx, hwx⟩ := hw
  obtain ⟨a, ha, hx⟩ := List.mem_flatMap.mp hx
  obtain ⟨part, hpart, hsub⟩ := mem_storeParts hx
  exact ⟨part, hwx.symm.trans hpart, fun b hb => List.mem_flatMap.mpr ⟨a, ha, hsub b hb⟩⟩

theorem exists_queued {b : Nat × Byte} (hnodup : ((accs.flatMap c.storeBytes).map Prod.fst).Nodup)
    (h : b ∈ accs.flatMap c.storeBytes) :
    ∃ w ∈ queuedWrites first op cycle release (c.storeWrites accs) acquire, ∃ part, w.what = .bytes part ∧ b ∈ part := by
  obtain ⟨a, ha, hb⟩ := List.mem_flatMap.mp h
  obtain ⟨x, hx, part, hpart, hmem⟩ := exists_storePart (ea := a.addr) hb
  have hw : x.1 ∈ (queuedWrites first op cycle release (c.storeWrites accs) acquire).map WriteOp.what := by
    rw [queuedWrites_what, Ctx.storeWrites, if_pos hnodup]
    exact List.mem_map_of_mem (List.mem_flatMap.mpr ⟨a, ha, hx⟩)
  obtain ⟨w, hmw, hwx⟩ := List.mem_map.mp hw
  exact ⟨w, hmw, part, hwx.trans hpart, hmem⟩

/-- A byte that one lane stores is what the queue holds for it. -/
theorem forward_stored {k : Nat} {x : Byte} (hnodup : ((accs.flatMap c.storeBytes).map Prod.fst).Nodup)
    (h : (k, x) ∈ accs.flatMap c.storeBytes) :
    forward (queuedWrites first op cycle release (c.storeWrites accs) acquire) k = some x := by
  have hval (w : WriteOp) (hw : w ∈ queuedWrites first op cycle release (c.storeWrites accs) acquire) (y : Byte)
      (hy : w.data k = some y) : y = x := by
    obtain ⟨part, hpart, hsub⟩ := what_of_mem hnodup hw
    exact eq_of_nodup_fst hnodup (data_of_bytes hpart hsub hy) h
  obtain ⟨w, hw, part, hpart, hmem⟩ := exists_queued (first := first) (op := op) (cycle := cycle) (release := release)
    (acquire := acquire) hnodup h
  obtain ⟨y, hy⟩ := data_of_mem hpart hmem
  exact forward_some hval ⟨w, hw, (hval w hw y hy) ▸ hy⟩

theorem forward_unstored {k : Nat} (hnodup : ((accs.flatMap c.storeBytes).map Prod.fst).Nodup)
    (h : k ∉ (accs.flatMap c.storeBytes).map Prod.fst) :
    forward (queuedWrites first op cycle release (c.storeWrites accs) acquire) k = none := by
  refine forward_none fun w hw => ?_
  obtain ⟨part, hpart, hsub⟩ := what_of_mem hnodup hw
  by_contra hn
  obtain ⟨y, hy⟩ := Option.ne_none_iff_exists'.mp hn
  exact h (List.mem_map.mpr ⟨_, data_of_bytes hpart hsub hy, rfl⟩)

end Queued

/-! ### The value of a store -/

theorem check_keys_length (g : Bool) (need l a n : Nat) : (s.check t g need l a n).keys.length ≤ n := by
  have hG : (s.checkG t.gq t.pstat.tag t.pstat.world need l a n).keys.length ≤ n := by
    unfold State.checkG
    dsimp only
    split
    · exact (List.length_filterMap_le _ _).trans (by simp)
    · exact Nat.zero_le n
  have hS : (s.checkS t.pstat.tag t.pstat.world t.core l a n).keys.length ≤ n := by
    unfold State.checkS
    dsimp only
    split
    · exact Nat.zero_le n
    split
    · rw [List.length_map]
      exact (List.length_filterMap_le _ _).trans (by simp)
    · exact Nat.zero_le n
  unfold State.check
  split
  · dsimp only
    split
    · exact Nat.zero_le n
    · exact hG
  · exact hS

theorem byteOf_ofNat {x j : Nat} (hj : j < 8) : byteOf (BitVec.ofNat 64 x) j = BitVec.ofNat 8 (x / 256 ^ j) := by
  apply BitVec.eq_of_toNat_eq
  have hpow : 256 ^ j = 2 ^ (8 * j) := by rw [Nat.pow_mul]
  have hsplit : 2 ^ 64 = 2 ^ (8 * j) * 2 ^ (64 - 8 * j) := by rw [← Nat.pow_add]; congr 1; omega
  rw [byteOf, BitVec.extractLsb'_toNat, BitVec.toNat_ofNat, BitVec.toNat_ofNat, Nat.shiftRight_eq_div_pow, hpow, hsplit,
    Nat.mod_mul_right_div_self]
  exact Nat.mod_mod_of_dvd _ (Nat.pow_dvd_pow 2 (by omega))

theorem leBytes_getElem? {n x j : Nat} (hj : j < n) : (leBytes n x)[j]? = some (BitVec.ofNat 8 (x / 256 ^ j)) := by
  induction n generalizing x j with
  | zero => cases hj
  | succ n ih =>
    cases j with
    | zero => simp [leBytes]
    | succ j =>
      rw [leBytes, List.getElem?_cons_succ, ih (Nat.lt_of_succ_lt_succ hj), Nat.div_div_eq_div_mul, Nat.pow_succ']

theorem mem_spread {keys : List Nat} {x j k : Nat} (h : keys[j]? = some k) :
    (k, BitVec.ofNat 8 (x / 256 ^ j)) ∈ spread keys x := by
  have hj := (List.getElem?_eq_some_iff.mp h).1
  refine List.mem_of_getElem? (i := j) ?_
  rw [spread, List.getElem?_zip_eq_some]
  exact ⟨h, leBytes_getElem? hj⟩

theorem tyBits_le (ty : Nat) : tyBits ty ≤ 64 := by
  unfold tyBits
  split_ifs <;> decide

/-- The bytes that a lane stores are the low bytes of its element. -/
theorem mem_storeBytes {a : LaneAcc} {j k : Nat} (hty : tyIsBlock c.o.ty = false) (ha : a ∈ c.accesses needW ps)
    (h : a.chk.keys[j]? = some k) :
    (k, byteOf (BitVec.ofNat 64 (c.regs (tyBits c.o.ty) a.pass.cyc c.o.f.d.toNat a.lane c.o.width)) j) ∈ c.storeBytes a := by
  have hj : j < 8 := by
    obtain ⟨p, -, l, -, rfl⟩ := (mem_accesses hty).mp ha
    have hlt := (List.getElem?_eq_some_iff.mp h).1
    have hlen := check_keys_length (s := c.s) (t := c.t) c.o.isG needW l (c.addr8 p.cyc l) c.o.size
    have hsize : c.o.size ≤ 8 := by
      rw [LaneOp.size, hty, if_neg Bool.false_ne_true]
      have := tyBits_le c.o.ty
      omega
    exact hlt.trans_le (hlen.trans hsize)
  rw [byteOf_ofNat hj, Ctx.storeBytes, hty, if_neg Bool.false_ne_true]
  exact mem_spread h

theorem stOk_slots (h : (Instr.laneSt f).wf = true) : LaneOp.slots ⟨8, 0x01, f⟩ = [] := by
  have hok : f.stOk = true := h
  simp only [LaneFields.stOk, LaneFields.memOk, regOk, Bool.and_eq_true] at hok
  obtain ⟨⟨⟨⟨⟨⟨-, ha⟩, -⟩, -⟩, -⟩, -⟩, hd, -⟩ := hok
  exact slots_of_addrOk ha (fun _ => hd)

/-- Behind its queue the team loads what it has just queued, and every other byte as before. -/
theorem loadByte_queued {u : Team} {new : List WriteOp} (hq : u.sdq = t.sdq ++ new) (hp : u.pstat = t.pstat) (k : Nat) :
    (s.setTeam u).loadByte u k = (forward new k).getD (s.loadByte t k) := by
  rw [loadByte_setTeam, State.loadByte, State.loadByte, hq, hp, forward_append]
  cases forward new k <;> rfl

theorem laneStores : Claims.LaneStores := by
  intro s f e rest hwf hhead o t ps c accs hchk hfails hheld
  have hbegin : s.beginLane (.laneSt f) o false memReads (fun _ _ => []) = .ok (c, ps) :=
    beginLane_mem hhead (stOk_slots hwf) hchk
  have hexec := exec_laneSt hbegin rfl rfl hfails hheld
  obtain ⟨P, K, n, x, m, hteam, hP, hK⟩ := stored_eq c ps accs (encode (.laneSt f))
  generalize hnew : (if ps.isEmpty then [] else
    queuedWrites m c.t.nextOp c.s.cycle c.o.release (c.storeWrites accs) false) = new at hteam
  rw [hteam] at hexec
  refine ⟨_, new, issues_of_endLane hexec rfl rfl rfl rfl rfl rfl rfl rfl rfl, rfl, rfl, rfl, hK, rfl, fun w hw => ?_,
    (congrArg List.length hP).trans (issued_pend_length c ps _ _), fun hdist hty => ?_⟩
  · subst hnew
    split at hw
    · cases hw
    · obtain ⟨hborn, hdep, hacq, hrel⟩ := mem_queuedWrites hw
      exact ⟨hborn, hdep, hacq, hrel.trans (release_eq 1 f)⟩
  · have hnodup : ((accs.flatMap c.storeBytes).map Prod.fst).Nodup := (storeKeys c accs).symm ▸ hdist
    refine ⟨fun a ha j k hk => ?_, fun k hk => ?_⟩
    · have hmem : (k, _) ∈ accs.flatMap c.storeBytes := List.mem_flatMap.mpr ⟨a, ha, mem_storeBytes hty ha hk⟩
      have hps : ¬ ps.isEmpty = true := by
        obtain ⟨p, hp, -⟩ := (mem_accesses (c := c) hty).mp ha
        simpa using List.ne_nil_of_mem hp
      rw [if_neg hps] at hnew
      refine Eq.trans (loadByte_queued (t := t) (new := new) ?_ ?_ k) ?_
      · rfl
      · rfl
      rw [← hnew, forward_stored hnodup hmem]
      rfl
    · have hnone : forward new k = none := by
        subst hnew
        split
        · rfl
        · exact forward_unstored hnodup ((storeKeys c accs).symm ▸ hk)
      refine Eq.trans (loadByte_queued (t := t) (new := new) ?_ ?_ k) ?_
      · rfl
      · rfl
      rw [hnone]
      rfl

/-- Settles O34: addresses by arithmetic modulo 2^64; what becomes outstanding and what is queued, access by access. -/
theorem laneMemory : Obligations.LaneMemory := ⟨laneAddresses, laneLoads, laneStores, lanePrefetches⟩

end Sys2Proof.Laws
end

section
/-!
What performing a write changes, and what it leaves alone (R103, R116, R117, R269, R440).
-/

namespace Sys2Proof.Machine

/-- A performed write may wake the team from an `mwait` (R269): its queue stays, and a team that is not parked is as it was. -/
structure Team.Woken (t u : Team) : Prop where
  sdq  : u.sdq = t.sdq
  same : t.park = none → u = t

end Sys2Proof.Machine

namespace Sys2Proof.Laws

open Sys2Proof Sys2Proof.Machine

variable {s : State} {t u v : Team} {bs : List (Nat × Byte)}

/-! ### Bytes in memory -/

/-- Of writes to different keys each is read back. -/
theorem get_setAll_mem {α : Type} [DecidableEq α] (d : α) {ps : List (Nat × α)} (m : List (Nat × α)) {k : Nat} {v : α}
    (hd : (ps.map Prod.fst).Nodup) (h : (k, v) ∈ ps) : Store.get d (Store.setAll d m ps) k = v := by
  induction ps generalizing m with
  | nil => cases h
  | cons p ps ih =>
    rw [List.map_cons, List.nodup_cons] at hd
    obtain ⟨hp, hd⟩ := hd
    rcases List.mem_cons.mp h with rfl | h
    · rw [Store.setAll, Store.get_setAll_other _ _ _ _ fun q hq he => hp (List.mem_map.mpr ⟨q, hq, he⟩), Store.get_set_same]
    · exact ih _ hd h

/-- Writes of different bytes are all there, and no other byte has changed. -/
theorem wrote_of_mem {s' : State} (hd : (bs.map Prod.fst).Nodup) (h : s'.mem = Store.setAll 0 s.mem bs) : Wrote s s' bs := by
  refine ⟨fun k b hb => ?_, fun k hk => ?_⟩
  · rw [State.byte, h, get_setAll_mem 0 s.mem hd hb]
  · rw [State.byte, h]
    exact Store.get_setAll_other _ _ _ _ fun q hq he => hk (List.mem_map.mpr ⟨q, hq, he⟩)

theorem wrote_nil {s' : State} (h : s'.mem = s.mem) : Wrote s s' [] := wrote_of_mem List.nodup_nil h

/-- The bytes of a number at consecutive keys. -/
theorem spread_keysFrom (k n x : Nat) : spread (keysFrom k n) x = bytesAt k n x := by
  refine List.ext_getElem? fun j => ?_
  have hlen : (keysFrom k n).length = n := by simp [keysFrom]
  rw [spread, hlen, bytesAt]
  by_cases hj : j < n
  · have hz : ((keysFrom k n).zip (leBytes n x))[j]? = some (k + j, BitVec.ofNat 8 (x / 256 ^ j)) :=
      List.getElem?_zip_eq_some.mpr ⟨by simp [keysFrom, hj], leBytes_getElem? hj⟩
    simp [hz, hj]
  · rw [List.getElem?_eq_none (by simp [hlen]; omega), List.getElem?_eq_none (by simp; omega)]

theorem bytesAt_keys (k n x : Nat) : (bytesAt k n x).map Prod.fst = keysFrom k n := by
  rw [bytesAt, List.map_map]
  rfl

theorem keysFrom_nodup (k n : Nat) : (keysFrom k n).Nodup := List.nodup_range.map (add_right_injective k)

theorem atHomes_keys (s : State) (bs : List (Nat × Byte)) : (s.atHomes bs).map Prod.fst = (bs.map Prod.fst).map s.place := by
  rw [State.atHomes, List.map_map, List.map_map]
  rfl

/-- A byte that does not lie across the fabric lies under its own key (R451). -/
theorem place_of_onDevice {k : Nat} (h : onFabric k = false) : s.place k = k := if_neg (by simp [h])

theorem atHomes_of_onDevice (h : ∀ b ∈ bs, onFabric b.1 = false) : s.atHomes bs = bs := by
  refine (List.map_congr_left fun b hb => ?_).trans (List.map_id bs)
  rw [place_of_onDevice (h b hb)]
  rfl

/-! ### Where bytes lie depends on the tables of the fabric alone (R451, R452) -/

theorem rangeOf_congr {s' : State} (hr : s'.remotes = s.remotes) : s'.rangeOf = s.rangeOf := by
  funext k
  unfold State.rangeOf
  rw [hr]

theorem place_congr {s' : State} (hr : s'.remotes = s.remotes) (ho : s'.routes = s.routes) : s'.place = s.place := by
  funext k
  unfold State.place State.remoteAddr
  rw [rangeOf_congr hr, hr, ho]

theorem unreachable_congr {s' : State} (hr : s'.remotes = s.remotes) (ho : s'.routes = s.routes) (hl : s'.links = s.links) :
    s'.unreachable = s.unreachable := by
  funext k
  unfold State.unreachable State.linkOf
  rw [rangeOf_congr hr, ho, hl]

theorem poisoned_congr {s' : State} (hr : s'.remotes = s.remotes) (ho : s'.routes = s.routes) (hp : s'.poison = s.poison)
    (ht : s'.tampers = s.tampers) : s'.poisoned = s.poisoned := by
  funext k
  unfold State.poisoned State.tampered
  rw [place_congr hr ho, hp, ht]

theorem placeNat_congr {s' : State} (hr : s'.remotes = s.remotes) (ho : s'.routes = s.routes) (hm : s'.mem = s.mem) :
    s'.placeNat = s.placeNat := by
  funext k n
  unfold State.placeNat State.byte
  rw [place_congr hr ho, hm]

theorem bufferedFor_congr {s' : State} (hr : s'.remotes = s.remotes) (ho : s'.routes = s.routes) (hb : s'.redbuf = s.redbuf) :
    s'.bufferedFor = s.bufferedFor := by
  funext id k
  unfold State.bufferedFor State.sameLine
  rw [place_congr hr ho, hb]

@[simp] theorem atUnit_place (s : State) : s.atUnit.place = s.place := place_congr rfl rfl
@[simp] theorem atUnit_unreachable (s : State) : s.atUnit.unreachable = s.unreachable := unreachable_congr rfl rfl rfl
@[simp] theorem atUnit_poisoned (s : State) : s.atUnit.poisoned = s.poisoned := poisoned_congr rfl rfl rfl rfl
@[simp] theorem atUnit_placeNat (s : State) : s.atUnit.placeNat = s.placeNat := placeNat_congr rfl rfl rfl
@[simp] theorem atUnit_bufferedFor (s : State) : s.atUnit.bufferedFor = s.bufferedFor := bufferedFor_congr rfl rfl rfl

theorem atHomes_congr {s' : State} (h : s'.place = s.place) (bs : List (Nat × Byte)) : s'.atHomes bs = s.atHomes bs := by
  rw [State.atHomes, State.atHomes, h]

/-! ### Watchers and postcards -/

theorem woken_refl (t : Team) : t.Woken t := ⟨rfl, fun _ => rfl⟩

theorem woken_trans (h : t.Woken u) (g : u.Woken v) : t.Woken v := by
  refine ⟨g.sdq.trans h.sdq, fun ht => ?_⟩
  obtain rfl := h.same ht
  exact g.same ht

theorem woken_wakeWatch (t : Team) (secs : List Nat) : t.Woken (t.wakeWatch secs) := by
  unfold Team.wakeWatch
  split
  · next hp =>
    split
    · refine ⟨?_, fun hn => absurd (hn.symm.trans hp) (by simp)⟩
      simp only [Team.stepDone, Team.setReg_pstat]
      split <;> simp [Team.addAsync]
    · exact woken_refl t
  · exact woken_refl t

/-- Waking those that watch changes the table of teams alone, and there only teams that are parked. -/
theorem wakeWatchers_eq (s : State) (keys : List Nat) :
    ∃ ts, s.wakeWatchers keys = { s with teams := ts } ∧ ∀ id, (s.teamAt id).Woken (Store.get {} ts id) := by
  unfold State.wakeWatchers
  refine List.foldlRecOn (motive := fun s' : State => ∃ ts, s' = { s with teams := ts } ∧ ∀ id, (s.teamAt id).Woken (Store.get {} ts id))
    _ _ ⟨s.teams, rfl, fun id => woken_refl _⟩ ?_
  rintro _ ⟨ts, rfl, hts⟩ x -
  dsimp only
  split
  · split
    · exact ⟨ts, rfl, hts⟩
    · refine ⟨_, rfl, fun id => ?_⟩
      rw [Store.get_set]
      split
      · next h =>
        subst h
        exact woken_trans (hts _) (woken_wakeWatch _ _)
      · exact hts id
  · exact ⟨ts, rfl, hts⟩

theorem countEvent_eq (s : State) (core : Nat) (tag : BitVec 16) (event n : Nat) :
    ∃ d, s.countEvent core tag event n = { s with dbgs := d } := by
  unfold State.countEvent
  extract_lets y
  split
  · exact ⟨_, rfl⟩
  · exact ⟨s.dbgs, rfl⟩

theorem putPost_eq (s : State) (i : Nat) (x : PostEntry) :
    ∃ d, s.putPost i x = { s with posts := Store.set {} s.posts i x, dbgs := d } := by
  unfold State.putPost
  dsimp only
  split
  · obtain ⟨d, hd⟩ := countEvent_eq { s with posts := Store.set {} s.posts i x } (i / 32) x.tag 7 (x.cards - (s.post i).cards).toNat
    exact ⟨d, hd⟩
  · exact ⟨s.dbgs, rfl⟩

/-- Forwarding a write changes the postcard entries and what the debug units count. -/
theorem forwardWrite_eq (s : State) (bs : List (Nat × Byte)) :
    ∃ q d, s.forwardWrite bs = { s with posts := q, dbgs := d } := by
  unfold State.forwardWrite
  refine List.foldlRecOn (motive := fun s' : State => ∃ q d, s' = { s with posts := q, dbgs := d }) _ _ ⟨_, _, rfl⟩ ?_
  rintro s₁ h₁ core -
  refine List.foldlRecOn (motive := fun s' : State => ∃ q d, s' = { s with posts := q, dbgs := d }) _ _ h₁ ?_
  rintro _ ⟨q, d, rfl⟩ e -
  dsimp only
  split
  · exact ⟨q, d, rfl⟩
  · obtain ⟨d', hd⟩ := putPost_eq { s with posts := q, dbgs := d } (32 * core + e) _
    exact ⟨_, d', hd⟩

/-- What a write that covers a whole sector cures changes the table of poisoned sectors alone. -/
theorem curePoison_eq (s : State) (bs : List (Nat × Byte)) : ∃ p, s.curePoison bs = { s with poison := p } := by
  unfold State.curePoison
  refine List.foldlRecOn (motive := fun s' : State => ∃ p, s' = { s with poison := p }) _ _ ⟨s.poison, rfl⟩ ?_
  rintro _ ⟨p, rfl⟩ sec -
  split
  · exact ⟨_, rfl⟩
  · exact ⟨p, rfl⟩

/-! ### Performing -/

/-- A performed write changes its bytes, the poison and the tags of what it covers whole, the teams that it wakes, and, where
postcards carry it on, their entries. -/
theorem perform_eq (s : State) (bs : List (Nat × Byte)) (forwarded : Bool) :
    ∃ p x ts q d, s.perform bs forwarded
        = { s with mem := Store.setAll 0 s.mem (s.atHomes bs), poison := p, tampers := x, teams := ts, posts := q, dbgs := d }
      ∧ (∀ id, (s.teamAt id).Woken (Store.get {} ts id)) ∧ (forwarded = false → q = s.posts) := by
  obtain ⟨p, hp⟩ := curePoison_eq ((s.setBytes (s.atHomes bs)).freshTags ((s.atHomes bs).map Prod.fst)) (s.atHomes bs)
  obtain ⟨ts, hw, hts⟩ := wakeWatchers_eq
    (((s.setBytes (s.atHomes bs)).freshTags ((s.atHomes bs).map Prod.fst)).curePoison (s.atHomes bs)) (bs.map Prod.fst)
  rw [hp] at hw hts
  have hperf : s.perform bs forwarded = if forwarded then
      ((((s.setBytes (s.atHomes bs)).freshTags ((s.atHomes bs).map Prod.fst)).curePoison (s.atHomes bs)).wakeWatchers
        (bs.map Prod.fst)).forwardWrite bs
      else (((s.setBytes (s.atHomes bs)).freshTags ((s.atHomes bs).map Prod.fst)).curePoison (s.atHomes bs)).wakeWatchers
        (bs.map Prod.fst) := rfl
  rw [hp, hw] at hperf
  cases forwarded with
  | false => exact ⟨p, _, ts, s.posts, s.dbgs, hperf, hts, fun _ => rfl⟩
  | true =>
    rw [if_pos rfl] at hperf
    obtain ⟨q, d, hq⟩ := forwardWrite_eq { (s.setBytes (s.atHomes bs)).freshTags ((s.atHomes bs).map Prod.fst) with
      poison := p, teams := ts } bs
    exact ⟨p, _, ts, q, d, hperf.trans hq, hts, fun h => absurd h (by decide)⟩

/-- Its bytes lie at their homes, and nothing else has changed in memory. -/
theorem wrote_perform (forwarded : Bool) (h : ((s.atHomes bs).map Prod.fst).Nodup) :
    Wrote s (s.perform bs forwarded) (s.atHomes bs) := by
  obtain ⟨p, x, ts, q, d, he, -, -⟩ := perform_eq s bs forwarded
  exact wrote_of_mem h (by rw [he])

theorem perform_woken (s : State) (bs : List (Nat × Byte)) (forwarded : Bool) (id : Nat) :
    (s.teamAt id).Woken ((s.perform bs forwarded).teamAt id) := by
  obtain ⟨p, x, ts, q, d, he, hw, -⟩ := perform_eq s bs forwarded
  rw [he]
  exact hw id

end Sys2Proof.Laws
end

section
/-!
Postcards (R116, R117, R350, R351).
-/

namespace Sys2Proof.Laws

open Sys2Proof Sys2Proof.Machine

variable {s : State} {c : Postcard} {rest : List Postcard}

theorem post_putPost_same (s : State) (i : Nat) (x : PostEntry) : (s.putPost i x).post i = x := by
  obtain ⟨d, hd⟩ := putPost_eq s i x
  rw [hd]
  exact Store.get_set_same _ _ _ _

theorem post_putPost_other (s : State) {i j : Nat} (x : PostEntry) (h : j ≠ i) : (s.putPost i x).post j = s.post j := by
  obtain ⟨d, hd⟩ := putPost_eq s i x
  rw [hd]
  exact Store.get_set_other _ _ _ h

theorem close_of_open {p : PostEntry} (h : p.openCard = some c) :
    p.close = { p with openCard := none, closed := p.closed ++ [c], cards := p.cards + 1 } := by
  simp only [PostEntry.close, h]

theorem exec_postcardClose_due (ho : (s.post s.unit).openCard = some c) (hd : c.opened + 128 ≤ s.ticks)
    (hf : s.closedCards (s.unit / 32) < 64) :
    exec .postcardClose s = .next (s.putPost s.unit (s.post s.unit).close) := by
  change execPostcardClose s = _
  simp only [execPostcardClose, ho]
  rw [if_pos ⟨hd, hf⟩]

theorem exec_postcardClose_early (ho : (s.post s.unit).openCard = some c) (hd : s.ticks < c.opened + 128) :
    exec .postcardClose s = .next s := by
  change execPostcardClose s = _
  simp only [execPostcardClose, ho]
  rw [if_neg fun h => absurd h.1 (Nat.not_le.mpr hd)]

/-- Where an engine owns no line a closed postcard is applied. -/
theorem exec_postcardApplication (hc : (s.post s.unit).closed = c :: rest) (he : s.engineLines = []) :
    exec .postcardApplication s = .next ((s.putPost s.unit { s.post s.unit with closed := rest }).perform
      (c.bytes.map fun b => (scratchBase + (s.post s.unit).sub + b.1, b.2)) false) := by
  change execPostcardApplication s = _
  simp only [execPostcardApplication, hc, he]
  rw [if_neg (by simp)]

/-- The bytes of a postcard lie in scratchpad, at their homes. -/
theorem atHomes_card (s : State) (sub : Nat) (bs : List (Nat × Byte)) :
    s.atHomes (bs.map fun b => (scratchBase + sub + b.1, b.2)) = bs.map fun b => (scratchBase + sub + b.1, b.2) := by
  refine atHomes_of_onDevice fun b hb => ?_
  obtain ⟨b, -, rfl⟩ := List.mem_map.mp hb
  have hge : scratchBase ≤ scratchBase + sub + b.1 := by omega
  simp [onFabric, hge]

/-- Settles O42: closing puts the open postcard behind the closed ones; an application writes the bytes of the oldest. -/
theorem postcards : Obligations.Postcards := by
  intro s p
  refine ⟨fun c ho hd hf => ⟨_, exec_postcardClose_due ho hd hf, ?_⟩, fun c ho hd => exec_postcardClose_early ho hd,
    fun c rest hc hk he => ⟨_, exec_postcardApplication hc he, ?_⟩⟩
  · obtain ⟨d, hput⟩ := putPost_eq s s.unit p.close
    have hclose := close_of_open ho
    have hother (j : Nat) (hj : j ≠ s.unit) : (s.putPost s.unit p.close).post j = s.post j := post_putPost_other s _ hj
    have hrest : (s.putPost s.unit p.close).mem = s.mem ∧ (s.putPost s.unit p.close).teams = s.teams := by
      rw [hput]
      exact ⟨rfl, rfl⟩
    obtain ⟨hmem, hteams⟩ := hrest
    have hnew : (s.putPost s.unit p.close).post s.unit = _ := (post_putPost_same s _ _).trans hclose
    rw [hnew]
    exact ⟨rfl, rfl, rfl, rfl, hother, hmem, hteams⟩
  · obtain ⟨d, hput⟩ := putPost_eq s s.unit { p with closed := rest }
    obtain ⟨o, x, ts, q, d', hperf, -, hq⟩ := perform_eq (s.putPost s.unit { p with closed := rest })
      (c.bytes.map fun b => (scratchBase + p.sub + b.1, b.2)) false
    have hpost (j : Nat) : ((s.putPost s.unit { p with closed := rest }).perform
        (c.bytes.map fun b => (scratchBase + p.sub + b.1, b.2)) false).post j = (s.putPost s.unit { p with closed := rest }).post j := by
      rw [hperf, hq rfl]
      rfl
    refine ⟨?_, ?_, fun j hj => ?_⟩
    · rw [hpost, post_putPost_same]
    · refine wrote_of_mem ?_ ?_
      · have hinj : Function.Injective fun k => 2 ^ 52 + p.sub + k := add_right_injective _
        have := hk.map hinj
        rwa [List.map_map] at this ⊢
      · rw [hperf, atHomes_card, hput]
        rfl
    · rw [hpost, post_putPost_other s _ hj]

end Sys2Proof.Laws
end

section
/-!
The store-delay queue and the reduction buffer (R103, R120 to R122, R177, R454).
-/

namespace Sys2Proof.Machine

/-- The state after the read-modify-write of an element at its home. -/
def State.elemDone (s : State) (o : Rmw) : State :=
  match o.apply (s.placeNat o.key o.size) with
  | some x => s.perform (spread (keysFrom o.key o.size) x) true
  | none => s

/-- The bytes that the read-modify-write of an element writes. -/
def State.elemBytes (s : State) (o : Rmw) : List (Nat × Byte) :=
  match o.apply (s.placeNat o.key o.size) with
  | some x => s.atHomes (bytesAt o.key o.size x)
  | none => []

/-- The state of an event in which a write has left the queue of the event's team. -/
def State.ended (s : State) (w : WriteOp) : State := s.atUnit.setTeam ((s.teamAt s.unit).endWrite w)

/-- The state without a line of the buffer of core `unit`. -/
def State.withoutLine (s : State) (l : RedLine) : State :=
  s.putRedLines s.unit ((s.redLines s.unit).filter fun x => x.id != l.id)

/-- The element as the line performs it, with the arguments of its last contributor (R120). -/
def RedLine.elem (l : RedLine) (o : Rmw) : Rmw := { o with mode := l.mode, lane := l.lane }

/-- An operation that has received the old value of an element. -/
def Pend.answered (p : Pend) (o : Rmw) (old : Nat) : Pend :=
  match p.scalar with
  | some (d, _) => { p with scalar := some (d, some (BitVec.ofNat 64 old)) }
  | none => p.arrive o.lane old

end Sys2Proof.Machine

namespace Sys2Proof.Laws

open Sys2Proof Sys2Proof.Machine

variable {s : State} {t u : Team} {w : WriteOp} {o : Rmw} {p : Pend} {before after : List WriteOp} {bs : List (Nat × Byte)}

/-! ### Departures (R122) -/

theorem atUnit_cycle (s : State) : s.atUnit.cycle = s.cycle := rfl

theorem nextDeparture_eq (hq : t.sdq = before ++ w :: after) (hb : ∀ x ∈ before, x.departed = true) (hw : w.departed = false) :
    t.nextDeparture = some (w, before) := by
  have htake : t.sdq.takeWhile (fun x => x.departed) = before := by
    rw [hq, List.takeWhile_append_of_pos hb, List.takeWhile_cons_of_neg (by simp [hw]), List.append_nil]
  rw [Team.nextDeparture, htake, hq]
  simp

theorem exec_departure_early (hn : (s.teamAt s.unit).nextDeparture = some (w, before)) (ha : s.cycle < w.born + 64) :
    exec .storeDelayDeparture s = .next s.atUnit := by
  have hn : s.atUnit.team.nextDeparture = some (w, before) := hn
  change execStoreDelayDeparture s = _
  simp only [execStoreDelayDeparture, hn]
  rw [atUnit_cycle, if_pos ha]

/-- A write that is no release leaves when it is old enough. -/
theorem exec_departure_plain (hn : (s.teamAt s.unit).nextDeparture = some (w, before)) (ha : w.born + 64 ≤ s.cycle)
    (hr : w.release = none) : exec .storeDelayDeparture s = .next (s.atUnit.depart w before) := by
  have hn : s.atUnit.team.nextDeparture = some (w, before) := hn
  change execStoreDelayDeparture s = _
  simp only [execStoreDelayDeparture, hn, hr]
  rw [atUnit_cycle, if_neg (Nat.not_lt.mpr ha)]

theorem releaseWait_none (hc : s.contributed s.cur = false) (hp : s.cardsPending s.team = false) (scope : Nat) :
    s.releaseWait scope = none := by
  simp [State.releaseWait, hc, hp]

/-- A release that is the oldest write, and waits for nothing else, leaves too. -/
theorem exec_departure_release (hn : (s.teamAt s.unit).nextDeparture = some (w, [])) (ha : w.born + 64 ≤ s.cycle)
    (hc : s.contributed s.unit = false) (hp : s.atUnit.cardsPending (s.teamAt s.unit) = false) :
    exec .storeDelayDeparture s = .next (s.atUnit.depart w []) := by
  cases hr : w.release with
  | none => exact exec_departure_plain hn ha hr
  | some scope =>
    have hn : s.atUnit.team.nextDeparture = some (w, []) := hn
    have hwait : s.atUnit.releaseWait scope = none := releaseWait_none hc hp scope
    change execStoreDelayDeparture s = _
    simp only [execStoreDelayDeparture, hn, hr, hwait]
    rw [atUnit_cycle, if_neg (Nat.not_lt.mpr ha)]
    rfl

theorem exec_departure_behind (hn : (s.teamAt s.unit).nextDeparture = some (w, before)) (ha : w.born + 64 ≤ s.cycle)
    (hr : w.release ≠ none) (hb : before ≠ []) : exec .storeDelayDeparture s = .next s.atUnit := by
  obtain ⟨scope, hr⟩ := Option.ne_none_iff_exists'.mp hr
  have hn : s.atUnit.team.nextDeparture = some (w, before) := hn
  change execStoreDelayDeparture s = _
  simp only [execStoreDelayDeparture, hn, hr]
  rw [atUnit_cycle, if_neg (Nat.not_lt.mpr ha), if_pos (by simpa using hb)]

/-- A write bound for its home leaves the quarter and stays in the queue. -/
theorem depart_homeBound (hb : w.homeBound = true) (hf : w.fabric = none) :
    s.depart w before = { s.setTeam { s.team with sdq := s.team.sdq.map fun x =>
      if x.id == w.id then { x with departed := true, sent := s.nextId, tick := s.ticks } else x } with nextId := s.nextId + 1 } := by
  unfold State.depart
  split
  · next hw => simp [WriteOp.homeBound, hw] at hb
  · next hw => simp [WriteOp.homeBound, hw] at hb
  · rw [hf]

/-- Of the writes of a queue the one with this number changes. -/
theorem map_id_eq (h : ∀ x ∈ before ++ after, x.id ≠ w.id) (f : WriteOp → WriteOp) :
    ((before ++ w :: after).map fun x => if x.id == w.id then f x else x) = before ++ f w :: after := by
  have hkeep {l : List WriteOp} (hl : ∀ x ∈ l, x.id ≠ w.id) : (l.map fun x => if x.id == w.id then f x else x) = l := by
    refine (List.map_congr_left fun x hx => ?_).trans (List.map_id l)
    exact if_neg (by simpa using hl x hx)
  rw [List.map_append, List.map_cons, hkeep fun x hx => h x (List.mem_append_left _ hx),
    hkeep fun x hx => h x (List.mem_append_right _ hx), if_pos (by simp)]

theorem writesDepart : Claims.WritesDepart := by
  intro s w before after t hq hb hw hid hhome
  have hn : t.nextDeparture = some (w, before) := nextDeparture_eq hq hb hw
  have hsdq : s.atUnit.team.sdq = before ++ w :: after := hq
  refine ⟨exec_departure_early hn, fun ha hf hr => ?_, exec_departure_behind hn⟩
  have hexec : exec .storeDelayDeparture s = .next (s.atUnit.depart w before) := by
    rcases hr with hr | ⟨rfl, hc, hp⟩
    · exact exec_departure_plain hn ha hr
    · exact exec_departure_release hn ha hc hp
  rw [hexec, depart_homeBound hhome hf, hsdq, map_id_eq hid]
  rfl

/-! ### A write leaves the queue -/

theorem release_sdq (t : Team) (p : Pend) (c : Bool) : (t.release p c).sdq = t.sdq := by
  unfold Team.release
  split
  · rfl
  · split <;> rfl

theorem endWrite_sdq (t : Team) (w : WriteOp) : (t.endWrite w).sdq = t.sdq.filter fun x => x.id != w.id := by
  unfold Team.endWrite
  dsimp only
  split
  · rfl
  · split
    · split
      · exact release_sdq _ _ _
      · rfl
    · rfl

theorem mem_endWrite {x : WriteOp} : x ∈ (t.endWrite w).sdq ↔ x ∈ t.sdq ∧ x.id ≠ w.id := by
  rw [endWrite_sdq, List.mem_filter, bne_iff_ne]

/-- The end of a part of an atomic changes the queue alone. -/
theorem endWrite_atomic (hp : t.op? w.op = some p) (hk : p.kind = .atomic) :
    t.endWrite w = { t with sdq := t.sdq.filter fun x => x.id != w.id } := by
  have hop : ({ t with sdq := t.sdq.filter fun x => x.id != w.id } : Team).op? w.op = some p := hp
  unfold Team.endWrite
  dsimp only
  rw [hop]
  dsimp only
  rw [if_neg (by simp [hk] : ¬ p.kind = .store), ite_self]

/-! ### Elements at their homes (R103, R177) -/

theorem elemDone_some {x : Nat} (h : o.apply (s.placeNat o.key o.size) = some x) :
    s.elemDone o = s.perform (bytesAt o.key o.size x) true := by
  rw [State.elemDone, h, ← spread_keysFrom]

theorem elemDone_none (h : o.apply (s.placeNat o.key o.size) = none) : s.elemDone o = s := by
  rw [State.elemDone, h]

theorem elemBytes_some {x : Nat} (h : o.apply (s.placeNat o.key o.size) = some x) :
    s.elemBytes o = s.atHomes (bytesAt o.key o.size x) := by
  rw [State.elemBytes, h]

theorem elemBytes_none (h : o.apply (s.placeNat o.key o.size) = none) : s.elemBytes o = [] := by
  rw [State.elemBytes, h]

theorem elemBytes_congr {s' : State} (hp : s'.place = s.place) (hn : s'.placeNat = s.placeNat) : s'.elemBytes o = s.elemBytes o := by
  unfold State.elemBytes State.atHomes
  rw [hp, hn]

/-- The element's bytes are written, and no others. -/
theorem wrote_elemDone (h : ((keysFrom o.key o.size).map s.place).Nodup) : Wrote s (s.elemDone o) (s.elemBytes o) := by
  cases hx : o.apply (s.placeNat o.key o.size) with
  | some x =>
    rw [elemDone_some hx, elemBytes_some hx]
    refine wrote_perform true ?_
    rwa [atHomes_keys, bytesAt_keys]
  | none =>
    rw [elemDone_none hx, elemBytes_none hx]
    exact wrote_nil rfl

/-- Besides, only teams that watch change. -/
theorem elemDone_frame (s : State) (o : Rmw) : (s.elemDone o).cur = s.cur ∧ (s.elemDone o).redbuf = s.redbuf
    ∧ ∀ id, (s.teamAt id).Woken ((s.elemDone o).teamAt id) := by
  cases hx : o.apply (s.placeNat o.key o.size) with
  | some x =>
    obtain ⟨p, y, ts, q, d, he, hw, -⟩ := perform_eq s (bytesAt o.key o.size x) true
    rw [elemDone_some hx, he]
    exact ⟨rfl, rfl, hw⟩
  | none =>
    rw [elemDone_none hx]
    exact ⟨rfl, rfl, fun id => woken_refl _⟩

theorem performElem_clean (tag : Nat) (h : (keysFrom o.key o.size).any s.poisoned = false) : s.performElem tag o = s.elemDone o := by
  unfold State.performElem
  dsimp only
  rw [h, if_neg Bool.false_ne_true]
  rfl

/-! ### Performing (R122) -/

theorem exec_writePerformed (h : s.canPerform w) (hb : w.homeBound = true) :
    exec .writePerformed s = .next (s.atUnit.performWrite w) := by
  obtain ⟨hfind, hdep, hreach, hheld, hbuf⟩ := h
  have hfind : s.atUnit.team.sdq.find? (fun x => x.id == s.atUnit.item) = some w := hfind
  have hreach : (w.fabric.isSome && w.keys.any s.atUnit.unreachable) = false := by rwa [atUnit_unreachable]
  have hbuf : w.keys.any (s.atUnit.bufferedFor s.atUnit.cur) = false := by rwa [atUnit_bufferedFor]
  change execWritePerformed s = _
  simp only [execWritePerformed, hfind]
  rw [hdep, hb, hreach, hheld, hbuf]
  rfl

/-- A tenant that has answered every request has none that a write could answer (R390). -/
theorem noteReply_of_replied {tag : Nat} (h : ∀ p ∈ (s.tenantAt tag).posted, p.reply.isSome = true) (keys : List Nat) :
    s.noteReply tag keys = s := by
  unfold State.noteReply
  split
  · rfl
  · next page _ =>
    have hnone : ((s.tenantAt tag).posted.filter fun p => s.answers page p keys) = [] := by
      refine List.filter_eq_nil_iff.mpr fun p hp => ?_
      have hr : p.reply.isNone = false := by
        have := h p hp
        revert this
        cases p.reply <;> simp
      simp [State.answers, hr]
    dsimp only
    rw [hnone]
    rfl

theorem performWrite_bytes (hw : w.what = .bytes bs)
    (h : ∀ p ∈ (s.tenantAt s.team.pstat.tag.toNat).posted, p.reply.isSome = true) :
    s.performWrite w = (s.setTeam (s.team.endWrite w)).perform bs true := by
  obtain ⟨p, y, ts, q, d, he, -, -⟩ := perform_eq (s.setTeam (s.team.endWrite w)) bs true
  have hposted : ∀ p ∈ (((s.setTeam (s.team.endWrite w)).perform bs true).tenantAt s.team.pstat.tag.toNat).posted,
      p.reply.isSome = true := by
    rw [he]
    exact h
  unfold State.performWrite
  rw [hw]
  exact noteReply_of_replied hposted _

theorem performWrite_reduction {b : Bool} (hw : w.what = .reduction o b) (hop : o.mode.op ≠ .bin)
    (hp : (keysFrom o.key o.size).any s.poisoned = false) :
    s.performWrite w = (s.setTeam (s.team.endWrite w)).elemDone o := by
  have hp' : (keysFrom o.key o.size).any (s.setTeam (s.team.endWrite w)).poisoned = false := by rwa [poisoned_setTeam]
  unfold State.performWrite
  rw [hw]
  dsimp only
  rw [if_neg fun h => hop h.1]
  exact performElem_clean _ hp'

theorem performWrite_atomic (hw : w.what = .atomic o) (hop : (s.team.endWrite w).op? w.op = some p)
    (hp : (keysFrom o.key o.size).any s.poisoned = false) :
    s.performWrite w = (s.elemDone o).setTeam
      (((s.elemDone o).team.endWrite w).setOp (p.answered o (s.placeNat o.key o.size))) := by
  unfold State.performWrite
  rw [hw]
  dsimp only
  unfold State.performAtomic
  dsimp only
  rw [hop]
  dsimp only
  rw [hp, if_neg Bool.false_ne_true]
  rfl

theorem teamAt_ended (s : State) (w : WriteOp) : (s.ended w).teamAt s.unit = (s.teamAt s.unit).endWrite w :=
  State.teamAt_putTeam _ _ _

theorem place_ended (s : State) (w : WriteOp) : (s.ended w).place = s.place := place_congr rfl rfl

theorem placeNat_ended (s : State) (w : WriteOp) : (s.ended w).placeNat = s.placeNat := placeNat_congr rfl rfl rfl

/-- Memory after plain bytes at their homes, and the team of the event. -/
theorem performed_plain (h : ((s.atHomes bs).map Prod.fst).Nodup) :
    Wrote s ((s.ended w).perform bs true) (s.atHomes bs)
      ∧ ((s.teamAt s.unit).endWrite w).Woken (((s.ended w).perform bs true).teamAt s.unit) := by
  have hhomes := atHomes_congr (place_ended s w) bs
  have hwrote := wrote_perform (s := s.ended w) (bs := bs) true (by rwa [hhomes])
  have hwoken := perform_woken (s.ended w) bs true s.unit
  rw [hhomes] at hwrote
  rw [teamAt_ended] at hwoken
  exact ⟨hwrote, hwoken⟩

/-- The same for a read-modify-write. -/
theorem performed_elem (h : ((keysFrom o.key o.size).map s.place).Nodup) :
    Wrote s ((s.ended w).elemDone o) (s.elemBytes o)
      ∧ ((s.teamAt s.unit).endWrite w).Woken (((s.ended w).elemDone o).teamAt s.unit) := by
  have hwrote := wrote_elemDone (s := s.ended w) (o := o) (by rwa [place_ended])
  obtain ⟨-, -, hwoken⟩ := elemDone_frame (s.ended w) o
  have hwoken := hwoken s.unit
  rw [elemBytes_congr (place_ended s w) (placeNat_ended s w)] at hwrote
  rw [teamAt_ended] at hwoken
  exact ⟨hwrote, hwoken⟩

/-- A write that has ended is not in the queue, and the others are. -/
theorem mem_sdq_of_woken {x : WriteOp} (h : (t.endWrite w).Woken u) : x ∈ u.sdq ↔ x ∈ t.sdq ∧ x.id ≠ w.id := by
  rw [h.sdq, mem_endWrite]

/-! ### The answer of an atomic (R177, R257) -/

theorem answered_id (p : Pend) (o : Rmw) (old : Nat) : (p.answered o old).id = p.id := by
  unfold Pend.answered
  split <;> rfl

theorem answered_scalar {d : Nat} {v : Option Word} {old : Nat} (h : p.scalar = some (d, v)) :
    (p.answered o old).scalar = some (d, some (BitVec.ofNat 64 old)) := by
  simp only [Pend.answered, h]

theorem answered_awaits {old : Nat} (h : p.scalar = none) :
    (p.answered o old).awaits = p.awaits.filter fun k => k % 1024 != o.lane := by
  simp only [Pend.answered, h]
  rfl

/-- An operation that is written back under its number is found there. -/
theorem op?_setOp {id : Nat} {q : Pend} (h : t.op? id = some p) (hq : q.id = p.id) : (t.setOp q).op? id = some q := by
  have hid : p.id = id := by simpa using List.find?_some h
  have hpred : ((fun x : Pend => x.id == id) ∘ fun x => if x.id == q.id then q else x) = fun x => x.id == id := by
    funext x
    by_cases hx : x.id = q.id
    · simp [hx, hq, hid]
    · simp [hx]
  have hp : (p.id == q.id) = true := by simp [hq]
  rw [Team.op?] at h
  rw [Team.op?, Team.setOp, List.find?_map, hpred, h, Option.map_some, if_pos hp]

/-! ### A home that cannot be reached (R454) -/

theorem countDrain_eq (s : State) (a b : Nat) : ∃ q, s.countDrain a b = { s with quiesce := q } := by
  unfold State.countDrain
  split
  · exact ⟨_, rfl⟩
  · exact ⟨s.quiesce, rfl⟩

/-- A lost store leaves the queue, and FABRIC pends. -/
theorem loseWrite_bytes (hw : w.what = .bytes bs) (addr : Word) :
    s.loseWrite w addr = (s.countDrain 1 0).setTeam (((s.team.failStore w.op).endWrite w).addAsync cFabric addr) := by
  obtain ⟨q, hq⟩ := countDrain_eq s 1 0
  unfold State.loseWrite
  dsimp only
  rw [hw, hq]
  rfl

theorem exec_writePerformed_lost {addr : Word} (hfind : s.write? = some w) (hdep : w.departed = true) (hb : w.homeBound = true)
    (hf : w.fabric = some addr) (hu : w.keys.any s.unreachable = true) :
    exec .writePerformed s = .next (s.atUnit.failSent w addr) := by
  have hfind : s.atUnit.team.sdq.find? (fun x => x.id == s.atUnit.item) = some w := hfind
  have hu : w.keys.any s.atUnit.unreachable = true := by rwa [atUnit_unreachable]
  change execWritePerformed s = _
  simp only [execWritePerformed, hfind]
  rw [hdep, hb, hf, hu]
  rfl

/-- Whether or not the home has performed it, a lost store changes no byte but its own. -/
theorem failSent_bytes (hw : w.what = .bytes bs) (addr : Word) :
    ∃ v : State, s.failSent w addr = (v.loseWrite w addr).fresh ∧ v.cur = s.cur
      ∧ ∀ k, k ∉ (s.atHomes bs).map Prod.fst → v.byte k = s.byte k := by
  unfold State.failSent
  dsimp only
  rw [hw]
  dsimp only
  split
  · refine ⟨s.perform bs true, rfl, ?_⟩
    obtain ⟨p, y, ts, q, d, he, -, -⟩ := perform_eq s bs true
    rw [he]
    refine ⟨rfl, fun k hk => ?_⟩
    exact Store.get_setAll_other _ _ _ _ fun b hb heq => hk (List.mem_map.mpr ⟨b, hb, heq⟩)
  · exact ⟨s, rfl, rfl, fun _ _ => rfl⟩

theorem performedBytes (hcan : s.canPerform w) (hw : w.what = .bytes bs) (hd : ((s.atHomes bs).map Prod.fst).Nodup)
    (hposted : ∀ p ∈ (s.tenantAt (s.teamAt s.unit).pstat.tag.toNat).posted, p.reply.isSome = true) :
    ∃ s', exec .writePerformed s = .next s' ∧ Wrote s s' (s.atHomes bs)
      ∧ ∀ x, x ∈ (s'.teamAt s.unit).sdq ↔ x ∈ (s.teamAt s.unit).sdq ∧ x.id ≠ w.id := by
  have hexec := exec_writePerformed hcan (by rw [WriteOp.homeBound, hw])
  rw [performWrite_bytes (s := s.atUnit) hw hposted] at hexec
  obtain ⟨hwrote, hwoken⟩ := performed_plain (w := w) hd
  exact ⟨_, hexec, hwrote, fun x => mem_sdq_of_woken hwoken⟩

theorem performedReduction (hcan : s.canPerform w) (hw : w.what = .reduction o false) (hop : o.mode.op ≠ .bin)
    (hd : ((keysFrom o.key o.size).map s.place).Nodup) (hp : (keysFrom o.key o.size).any s.poisoned = false) :
    ∃ s', exec .writePerformed s = .next s' ∧ Wrote s s' (s.elemBytes o)
      ∧ ∀ x, x ∈ (s'.teamAt s.unit).sdq ↔ x ∈ (s.teamAt s.unit).sdq ∧ x.id ≠ w.id := by
  have hexec := exec_writePerformed hcan (by rw [WriteOp.homeBound, hw]; rfl)
  rw [performWrite_reduction (s := s.atUnit) hw hop (by rwa [atUnit_poisoned])] at hexec
  obtain ⟨hwrote, hwoken⟩ := performed_elem (w := w) hd
  exact ⟨_, hexec, hwrote, fun x => mem_sdq_of_woken hwoken⟩

theorem performedAtomic (hcan : s.canPerform w) (hw : w.what = .atomic o) (hd : ((keysFrom o.key o.size).map s.place).Nodup)
    (hop : (s.teamAt s.unit).op? w.op = some p) (hk : p.kind = .atomic) (hp : (keysFrom o.key o.size).any s.poisoned = false)
    (hpark : (s.teamAt s.unit).park = none) :
    ∃ s', exec .writePerformed s = .next s' ∧ Wrote s s' (s.elemBytes o)
      ∧ (s'.teamAt s.unit).op? w.op = some (p.answered o (s.placeNat o.key o.size))
      ∧ ∀ x, x ∈ (s'.teamAt s.unit).sdq ↔ x ∈ (s.teamAt s.unit).sdq ∧ x.id ≠ w.id := by
  have hend : ((s.teamAt s.unit).endWrite w).op? w.op = some p := by
    rw [endWrite_atomic hop hk]
    exact hop
  have hexec := exec_writePerformed hcan (by rw [WriteOp.homeBound, hw])
  rw [performWrite_atomic (s := s.atUnit) hw hend (by rwa [atUnit_poisoned]), atUnit_placeNat] at hexec
  obtain ⟨hcur, -, hwoken⟩ := elemDone_frame s.atUnit o
  have hteam : (s.atUnit.elemDone o).team = s.teamAt s.unit := by
    rw [State.team, hcur]
    exact (hwoken s.unit).same hpark
  have hnew : ((s.atUnit.elemDone o).setTeam (((s.atUnit.elemDone o).team.endWrite w).setOp
      (p.answered o (s.placeNat o.key o.size)))).teamAt s.unit
        = ((s.teamAt s.unit).endWrite w).setOp (p.answered o (s.placeNat o.key o.size)) := by
    rw [hteam, State.setTeam, hcur]
    exact State.teamAt_putTeam _ _ _
  have hwrote := wrote_elemDone (s := s.atUnit) (o := o) (by rwa [atUnit_place])
  rw [elemBytes_congr (atUnit_place s) (atUnit_placeNat s)] at hwrote
  refine ⟨_, hexec, hwrote, ?_, fun x => ?_⟩
  · exact (congrArg (Team.op? · w.op) hnew).trans (op?_setOp hend (answered_id p o _))
  · exact (congrArg (fun u : Team => x ∈ u.sdq) hnew).to_iff.trans mem_endWrite

theorem lostStore {addr : Word} (hfind : s.write? = some w) (hdep : w.departed = true) (hw : w.what = .bytes bs)
    (hf : w.fabric = some addr) (hu : w.keys.any s.unreachable = true) :
    ∃ s', exec .writePerformed s = .next s' ∧ (∀ k, k ∉ (s.atHomes bs).map Prod.fst → s'.byte k = s.byte k)
      ∧ (∀ x ∈ (s'.teamAt s.unit).sdq, x.id ≠ w.id) ∧ (cFabric, addr) ∈ (s'.teamAt s.unit).async := by
  have hexec := exec_writePerformed_lost hfind hdep (by rw [WriteOp.homeBound, hw]) hf hu
  obtain ⟨v, hv, hcur, hbyte⟩ := failSent_bytes (s := s.atUnit) hw addr
  obtain ⟨q, hq⟩ := countDrain_eq v 1 0
  rw [hv, loseWrite_bytes hw, hq] at hexec
  have hnew : (({ v with quiesce := q } : State).setTeam (((v.team.failStore w.op).endWrite w).addAsync cFabric addr)).fresh.teamAt
      s.unit = ((v.team.failStore w.op).endWrite w).addAsync cFabric addr := by
    have hunit : s.unit = v.cur := hcur.symm
    rw [hunit]
    exact State.teamAt_putTeam _ _ _
  refine ⟨_, hexec, fun k hk => hbyte k (by rwa [atHomes_congr (atUnit_place s)]), ?_, ?_⟩
  · rw [hnew]
    exact fun x hx => (mem_endWrite.mp hx).2
  · rw [hnew]
    exact List.mem_append_right _ List.mem_cons_self

theorem writesPerformed : Claims.WritesPerformed := by
  intro s w _ spot
  refine ⟨fun bs hcan hw hd hposted => ?_, fun o b hcan hw hb hop hd hp => ?_, fun o p hcan hw hd hop hk hp hpark => ?_,
    fun bs addr hfind hdep hw hf hu => lostStore hfind hdep hw hf hu⟩
  · obtain ⟨s', hexec, hwrote, hsdq⟩ := performedBytes hcan hw hd hposted
    exact ⟨s', hexec, hwrote, fun x hx => ((hsdq x).mp hx).2, fun x hx hid => (hsdq x).mpr ⟨hx, hid⟩⟩
  · subst hb
    obtain ⟨s', hexec, hwrote, hsdq⟩ := performedReduction hcan hw hop hd hp
    exact ⟨s', hexec, hwrote, fun x hx => ((hsdq x).mp hx).2⟩
  · obtain ⟨s', hexec, hwrote, hq, hsdq⟩ := performedAtomic hcan hw hd hop hk hp hpark
    refine ⟨s', _, hexec, hwrote, hq, fun x hx => ((hsdq x).mp hx).2, fun d v hs => answered_scalar hs, fun hs => ?_⟩
    simp only [answered_awaits hs, List.mem_filter, bne_iff_ne]
    exact ⟨fun k hk => hk.2, fun k hk hl => ⟨hk, hl⟩⟩

/-! ### The reduction buffer (R120, R121) -/

/-- Where engines own no line a buffered element that is the oldest write goes to the buffer. -/
theorem depart_buffered (hw : w.what = .reduction o true) (he : s.engineLines = []) : s.depart w [] = s.bufferReduction w o := by
  have hfree : (keysFrom o.key o.size).any (s.recalledNow s.cur w.id w.born) = false :=
    List.any_eq_false.mpr fun k _ => by simp [State.recalledNow, he]
  unfold State.depart
  rw [hw]
  dsimp only
  rw [hfree]
  rfl

/-- The line of the buffer that an element enters alone. -/
def newLine (s : State) (o : Rmw) : RedLine :=
  { id := s.nextId, line := lineOf o.key, mode := o.mode, elems := [o], lane := o.lane, teams := [s.cur] }

theorem bufferReduction_new (hl : s.redLine? s.team.core (lineOf o.key) = none) (hn : (s.redLines s.team.core).length < 256) :
    s.bufferReduction w o = { (s.putRedLines s.team.core (s.redLines s.team.core ++ [newLine s o])).setTeam (s.team.endWrite w) with
      nextId := s.nextId + 1 } := by
  unfold State.bufferReduction
  dsimp only
  rw [hl]
  dsimp only
  rw [if_neg (Nat.not_le.mpr hn)]
  rfl

theorem bufferReduction_merge {l : RedLine} (hl : s.redLine? s.team.core (lineOf o.key) = some l) (hs : l.sent = false)
    (hm : l.mode.merges o.mode = true) :
    s.bufferReduction w o = (s.putRedLines s.team.core ((s.redLines s.team.core).map fun x =>
      if x.id == l.id then l.merge o s.cur else x)).setTeam (s.team.endWrite w) := by
  unfold State.bufferReduction
  dsimp only
  rw [hl]
  dsimp only
  rw [hs, hm]
  rfl

/-- An element of a new key stands behind those that the line holds. -/
theorem merge_elems {l : RedLine} (h : ∀ e ∈ l.elems, e.key ≠ o.key) (id : Nat) : (l.merge o id).elems = l.elems ++ [o] := by
  have hnone : (l.elems.any fun e => e.key == o.key) = false := List.any_eq_false.mpr fun e he => by simpa using h e he
  unfold RedLine.merge
  dsimp only
  rw [hnone]
  rfl

theorem mem_merge_teams (l : RedLine) (o : Rmw) (id : Nat) : id ∈ (l.merge o id).teams := by
  unfold RedLine.merge
  dsimp only
  split
  · next h => exact List.contains_iff_mem.mp h
  · exact List.mem_append_right _ List.mem_cons_self

theorem mem_putRedLines {ls : List RedLine} {l : RedLine} {core : Nat} (h : l ∈ ls) :
    l ∈ ((s.putRedLines core ls).setTeam u).redLines core := by
  rwa [show ((s.putRedLines core ls).setTeam u).redLines core = ls from Store.get_set_same _ _ _ _]

/-- The queue behind its oldest write. -/
theorem endWrite_head {rest : List WriteOp} (hq : t.sdq = w :: rest) (h : ∀ x ∈ rest, x.id ≠ w.id) : (t.endWrite w).sdq = rest := by
  rw [endWrite_sdq, hq, List.filter_cons_of_neg (by simp)]
  exact List.filter_eq_self.mpr fun x hx => by simpa using h x hx

theorem map_place_of_onDevice {ks : List Nat} (h : ks.any onFabric = false) : ks.map s.place = ks := by
  refine (List.map_congr_left fun k hk => ?_).trans (List.map_id ks)
  exact place_of_onDevice (by simpa using List.any_eq_false.mp h k hk)

theorem placeNat_of_onDevice {k n : Nat} (h : (keysFrom k n).any onFabric = false) : s.placeNat k n = s.readNat k n := by
  refine congrArg bytesNat (List.map_congr_left fun j hj => ?_)
  rw [place_of_onDevice (by simpa using List.any_eq_false.mp h j hj)]

/-- What the check of a line and its performing read, with the line out of the buffer. -/
theorem withoutLine_reads (s : State) (l : RedLine) :
    (s.withoutLine l).unreachable = s.unreachable ∧ (s.withoutLine l).fresh.poisoned = s.poisoned
      ∧ (s.withoutLine l).fresh.place = s.place ∧ (s.withoutLine l).fresh.placeNat = s.placeNat :=
  ⟨unreachable_congr rfl rfl rfl, poisoned_congr rfl rfl rfl rfl, place_congr rfl rfl, placeNat_congr rfl rfl rfl⟩

/-- A line of one element that has been sent is performed at its home. -/
theorem exec_reductionLinePerformed {l : RedLine} (hl : (s.redLines s.unit).find? (fun x => x.id == s.item) = some l)
    (hs : l.sent = true) (he : l.elems = [o]) (hu : (keysFrom o.key o.size).any s.unreachable = false)
    (hf : (keysFrom o.key o.size).any onFabric = false) (hp : (keysFrom o.key o.size).any s.poisoned = false) :
    exec .reductionLinePerformed s = .next ((s.withoutLine l).fresh.elemDone (l.elem o)) := by
  obtain ⟨hun, hpo, -, -⟩ := withoutLine_reads s l
  have hkeys : (l.elems.flatMap fun o => keysFrom o.key o.size) = keysFrom o.key o.size := by
    rw [he, List.flatMap_singleton]
  have hreach : ¬ ((keysFrom o.key o.size).any (s.withoutLine l).unreachable = true ∨
      ((keysFrom o.key o.size).any onFabric = true ∧ pick (s.withoutLine l).free 9 l.line = true)) := by
    rw [hun, hu, hf]
    simp
  change execReductionLinePerformed s = _
  unfold execReductionLinePerformed
  rw [hl]
  dsimp only
  rw [hkeys, hs, if_neg (by decide)]
  refine congrArg Host.Outcome.next ((if_neg hreach).trans ?_)
  rw [he]
  have hclean : (keysFrom (l.elem o).key (l.elem o).size).any (s.withoutLine l).fresh.poisoned = false := by rwa [hpo]
  exact performElem_clean _ hclean

theorem linePerformed {l : RedLine} (hl : (s.redLines s.unit).find? (fun x => x.id == s.item) = some l)
    (hs : l.sent = true) (he : l.elems = [o]) (hu : (keysFrom o.key o.size).any s.unreachable = false)
    (hf : (keysFrom o.key o.size).any onFabric = false) (hp : (keysFrom o.key o.size).any s.poisoned = false) :
    ∃ s', exec .reductionLinePerformed s = .next s' ∧ (∀ x ∈ s'.redLines s.unit, x.id ≠ l.id) ∧ Wrote s s' (s.elemBytes (l.elem o)) := by
  obtain ⟨-, -, hplace, hnat⟩ := withoutLine_reads s l
  obtain ⟨-, hred, -⟩ := elemDone_frame (s.withoutLine l).fresh (l.elem o)
  have hwrote := wrote_elemDone (s := (s.withoutLine l).fresh) (o := l.elem o) (by
    rw [hplace]
    exact (map_place_of_onDevice hf).symm ▸ keysFrom_nodup o.key o.size)
  rw [elemBytes_congr hplace hnat] at hwrote
  refine ⟨_, exec_reductionLinePerformed hl hs he hu hf hp, fun x hx => ?_, hwrote⟩
  have hlines : ((s.withoutLine l).fresh.elemDone (l.elem o)).redLines s.unit = (s.redLines s.unit).filter fun x => x.id != l.id := by
    rw [State.redLines, hred]
    exact Store.get_set_same _ _ _ _
  rw [hlines] at hx
  simpa using (List.mem_filter.mp hx).2

/-- On the device an element's bytes are written where they lie. -/
theorem elemBytes_of_onDevice (h : (keysFrom o.key o.size).any onFabric = false) :
    s.elemBytes o = match o.apply (s.readNat o.key o.size) with
      | some x => bytesAt o.key o.size x
      | none => [] := by
  unfold State.elemBytes
  rw [placeNat_of_onDevice h]
  cases o.apply (s.readNat o.key o.size) with
  | some x =>
    refine atHomes_of_onDevice fun b hb => ?_
    have hb : b.1 ∈ keysFrom o.key o.size := bytesAt_keys o.key o.size x ▸ List.mem_map_of_mem hb
    simpa using List.any_eq_false.mp h _ hb
  | none => rfl

/-- The oldest write of a team, a buffered element, goes to the buffer when it is old enough. -/
theorem exec_departure_buffered {rest : List WriteOp} (hq : (s.teamAt s.unit).sdq = w :: rest) (hdep : w.departed = false)
    (hw : w.what = .reduction o true) (ha : w.born + 64 ≤ s.cycle) (hr : w.release = none) (he : s.engineLines = []) :
    exec .storeDelayDeparture s = .next (s.atUnit.bufferReduction w o) := by
  rw [exec_departure_plain (before := []) (nextDeparture_eq hq (fun _ h => nomatch h) hdep) ha hr]
  exact congrArg Host.Outcome.next (depart_buffered hw he)

theorem reductionLines : Claims.ReductionLines := by
  intro s
  refine ⟨fun w o rest hq hdep hw ha hr hid he => ⟨fun hl hn => ?_, fun l hl hs hm hkey _ => ?_⟩, fun l o hl hs he hu hf hp => ?_⟩
  · have hexec := exec_departure_buffered hq hdep hw ha hr he
    rw [bufferReduction_new (s := s.atUnit) hl hn] at hexec
    refine ⟨_, newLine s.atUnit o, hexec, ?_, rfl, rfl, rfl, rfl, rfl, rfl, rfl, ?_⟩
    · exact Store.get_set_same _ _ _ _
    · exact (congrArg Team.sdq (State.teamAt_putTeam _ _ _)).trans (endWrite_head hq hid)
  · have hexec := exec_departure_buffered hq hdep hw ha hr he
    rw [bufferReduction_merge (s := s.atUnit) hl hs hm] at hexec
    refine ⟨_, l.merge o s.unit, hexec, ?_, rfl, merge_elems hkey _, rfl, rfl, mem_merge_teams _ _ _, rfl, ?_⟩
    · exact mem_putRedLines (List.mem_map.mpr ⟨l, List.mem_of_find?_eq_some hl, if_pos (by simp)⟩)
    · exact (congrArg Team.sdq (State.teamAt_putTeam _ _ _)).trans (endWrite_head hq hid)
  · obtain ⟨s', hexec, hlines, hwrote⟩ := linePerformed hl hs he hu hf hp
    rw [elemBytes_of_onDevice (o := l.elem o) hf] at hwrote
    exact ⟨s', hexec, hlines, hwrote⟩

/-- Settles O41: departures, what is performed at a home, and the lines of the reduction buffer. (`queuedWrites` is the list of the
entries that an instruction queues.) -/
theorem queuedWritesPerformed : Obligations.QueuedWrites := ⟨writesDepart, writesPerformed, reductionLines⟩

end Sys2Proof.Laws
end

section
/-!
The checks of S-addresses (R87, R88, R92) and the translation of G-addresses (R90, R91).
-/

namespace Sys2Proof.Laws

open Sys2Proof Sys2Proof.Machine

variable {s : State} {tag : BitVec 16} {world : BitVec 8} {own lane ea n : Nat} {f : Nat → Nat}

/-! ### The choice among failures (R92) -/

theorem mem_of_worst {fs : List Fail} {x : Fail} (h : worst fs = some x) : x ∈ fs := by
  induction fs generalizing x with
  | nil => cases h
  | cons y fs ih =>
    rw [worst] at h
    split at h
    · cases h
      exact List.mem_cons_self
    · next g hg =>
      split at h
      · cases h
        exact List.mem_cons_of_mem _ (ih hg)
      · cases h
        exact List.mem_cons_self

/-- Of failures of one lane at one address the one whose cause comes before all others is reported. -/
theorem worst_of_first {cs : List Nat} {c : Nat} (hc : c ∈ cs) (hf : ∀ d ∈ cs, d = c ∨ causeRank c < causeRank d) :
    worst (cs.map fun d => ⟨d, lane, ea, ea⟩) = some ⟨c, lane, ea, ea⟩ := by
  induction cs with
  | nil => cases hc
  | cons d cs ih =>
    rw [List.map_cons, worst]
    by_cases hm : c ∈ cs
    · rw [ih hm fun e he => hf e (List.mem_cons_of_mem _ he)]
      dsimp only
      rcases hf d List.mem_cons_self with rfl | hd
      · split <;> rfl
      · rw [if_pos (.inl hd)]
    · obtain rfl : c = d := (List.mem_cons.mp hc).resolve_right hm
      split
      · rfl
      · next g hg =>
        obtain ⟨e, he, rfl⟩ := List.mem_map.mp (mem_of_worst hg)
        have hne : e ≠ c := fun h => hm (h ▸ he)
        have hlt := (hf e (List.mem_cons_of_mem _ he)).resolve_left hne
        rw [if_neg (by dsimp only; omega)]

/-! ### S-addresses (R87) -/

theorem sFlat_own {a : Nat} (h : a / 2 ^ 25 = 63) : sFlat own a = some (own * 2 ^ 25 + a % 2 ^ 25) := by
  rw [sFlat, if_neg (by omega), if_pos h]

theorem sFlat_core {a : Nat} (h : a / 2 ^ 25 < 48) : sFlat own a = some a := by
  rw [sFlat, if_neg (by omega), if_neg (by omega), if_pos h]

theorem sFlat_outside {a : Nat} (h : 2 ^ 31 ≤ a ∨ (48 ≤ a / 2 ^ 25 ∧ a / 2 ^ 25 ≤ 62)) : sFlat own a = none := by
  rw [sFlat]
  split
  · rfl
  · rw [if_neg (by omega), if_neg (by omega)]

/-! ### Banks (R88) -/

theorem bankCause_owner {bank : Nat} (h : (s.owner 1 bank).tag ≠ tag) : s.bankCause tag world bank = some cOwner := if_pos h

theorem bankCause_world {bank : Nat} (ht : (s.owner 1 bank).tag = tag) (hw : (s.owner 1 bank).world ≠ world) :
    s.bankCause tag world bank = some cWorld := by
  rw [State.bankCause, if_neg (not_not.mpr ht), if_pos hw]

theorem bankCause_none {bank : Nat} (ht : (s.owner 1 bank).tag = tag) (hw : (s.owner 1 bank).world = world) :
    s.bankCause tag world bank = none := by
  rw [State.bankCause, if_neg (not_not.mpr ht), if_neg (not_not.mpr hw)]

theorem bankCause_mem {bank c : Nat} (h : s.bankCause tag world bank = some c) : c = cOwner ∨ c = cWorld := by
  unfold State.bankCause at h
  dsimp only at h
  split at h
  · exact .inl (Option.some.inj h).symm
  · split at h
    · exact .inr (Option.some.inj h).symm
    · cases h

/-- The causes that the banks of an access give. -/
def bankCauses (s : State) (tag : BitVec 16) (world : BitVec 8) (fs : List Nat) : List Nat :=
  (fs.map bankOf).eraseDups.filterMap (s.bankCause tag world)

theorem mem_bankCauses {c : Nat} {fs : List Nat} :
    c ∈ bankCauses s tag world fs ↔ ∃ x ∈ fs, s.bankCause tag world (bankOf x) = some c := by
  simp [bankCauses]

/-- An access whose bytes lie in the S-address space reaches them, or fails with the causes that their banks give. -/
theorem checkS_of_flats (hf : ∀ i, i < n → sFlat own (ea + i) = some (f i)) :
    s.checkS tag world own lane ea n
      = let causes := bankCauses s tag world ((List.range n).map f)
        if causes.isEmpty then { keys := ((List.range n).map f).map (scratchBase + ·) }
        else { fails := causes.map fun c => ⟨c, lane, ea, ea⟩ } := by
  have hflats : (List.range n).map (fun i => sFlat own (ea + i)) = ((List.range n).map f).map some := by
    rw [List.map_map]
    exact List.map_congr_left fun i hi => hf i (List.mem_range.mp hi)
  unfold State.checkS
  dsimp only
  rw [hflats, if_neg (by simp), List.filterMap_map, Function.id_comp, List.filterMap_some]
  rfl

theorem worst_checkS_of_first (hf : ∀ i, i < n → sFlat own (ea + i) = some (f i)) {c : Nat}
    (hc : ∃ i, i < n ∧ s.bankCause tag world (f i / 2 ^ 19) = some c)
    (hfirst : ∀ i d, i < n → s.bankCause tag world (f i / 2 ^ 19) = some d → d = c ∨ causeRank c < causeRank d) :
    worst (s.checkS tag world own lane ea n).fails = some ⟨c, lane, ea, ea⟩ := by
  have hmem : c ∈ bankCauses s tag world ((List.range n).map f) := by
    obtain ⟨i, hi, hc⟩ := hc
    exact mem_bankCauses.mpr ⟨f i, List.mem_map_of_mem (List.mem_range.mpr hi), hc⟩
  rw [checkS_of_flats hf]
  dsimp only
  rw [if_neg (by simpa using List.ne_nil_of_mem hmem)]
  refine worst_of_first hmem fun d hd => ?_
  obtain ⟨x, hx, hd⟩ := mem_bankCauses.mp hd
  obtain ⟨i, hi, rfl⟩ := List.mem_map.mp hx
  exact hfirst i d (List.mem_range.mp hi) hd

theorem scratchpadChecks_inside : Claims.ScratchpadChecks := by
  intro s tag world own lane ea n f hf
  have hflat (i : Nat) (hi : i < n) : sFlat own (ea + i) = some (f i) := by
    rcases (hf i hi).2 with ⟨h, he⟩ | ⟨h, he⟩
    · rw [sFlat_own h, he]
    · rw [sFlat_core h, he]
  refine ⟨fun h => ?_, fun ⟨i, hi, h⟩ => ?_, fun ht ⟨i, hi, h⟩ => ?_⟩
  · have hnone : bankCauses s tag world ((List.range n).map f) = [] := by
      refine List.eq_nil_iff_forall_not_mem.mpr fun c hc => ?_
      obtain ⟨x, hx, hc⟩ := mem_bankCauses.mp hc
      obtain ⟨i, hi, rfl⟩ := List.mem_map.mp hx
      obtain ⟨ht, hw⟩ := h i (List.mem_range.mp hi)
      exact Option.some_ne_none c (hc.symm.trans (bankCause_none ht hw))
    rw [checkS_of_flats hflat, hnone]
    dsimp only
    rw [if_pos (by rfl), List.map_map]
    rfl
  · refine worst_checkS_of_first hflat ⟨i, hi, bankCause_owner h⟩ fun j d _ hd => ?_
    rcases bankCause_mem hd with rfl | rfl
    · exact .inl rfl
    · exact .inr (by decide)
  · refine worst_checkS_of_first hflat ⟨i, hi, bankCause_world (ht i hi) h⟩ fun j d hj hd => .inl ?_
    by_cases hw : (s.owner 1 (f j / 2 ^ 19)).world = world
    · rw [bankCause_none (ht j hj) hw] at hd
      cases hd
    · rw [bankCause_world (ht j hj) hw] at hd
      exact (Option.some.inj hd).symm

theorem scratchpadRejects : Claims.ScratchpadRejects := by
  intro s tag world own lane ea n i hi hout
  have hany : (((List.range n).map fun i => sFlat own (ea + i)).any Option.isNone) = true :=
    List.any_eq_true.mpr ⟨none, List.mem_map.mpr ⟨i, List.mem_range.mpr hi, sFlat_outside hout⟩, rfl⟩
  have hfails : s.checkS tag world own lane ea n = { fails := [⟨cOwner, lane, ea, ea⟩] } := if_pos hany
  rw [hfails]
  rfl

/-- Settles O15: a byte outside the space rejects the access; inside it the causes of the banks decide. -/
theorem scratchpadChecks : Obligations.ScratchpadChecks := ⟨scratchpadChecks_inside, scratchpadRejects⟩

/-! ### Entries of a canonical table -/

theorem mem_of_get_ne {α : Type} {d : α} {m : List (Nat × α)} {k : Nat} (h : Store.get d m k ≠ d) : (k, Store.get d m k) ∈ m := by
  induction m with
  | nil => exact absurd rfl h
  | cons p m ih =>
    rw [Store.get] at h ⊢
    split at h
    · next hp =>
      rw [if_pos hp, ← hp]
      exact List.mem_cons_self
    · next hp =>
      rw [if_neg hp]
      exact List.mem_cons_of_mem _ (ih h)

theorem get_of_mem {α : Type} {d : α} {m : List (Nat × α)} (hm : m.Pairwise fun a b => a.1 < b.1) {p : Nat × α} (h : p ∈ m) :
    Store.get d m p.1 = p.2 := by
  induction m with
  | nil => cases h
  | cons q m ih =>
    rw [List.pairwise_cons] at hm
    obtain ⟨hlt, hm⟩ := hm
    rcases List.mem_cons.mp h with rfl | h
    · rw [Store.get, if_pos rfl]
    · rw [Store.get, if_neg (hlt p h).ne, ih hm h]

/-! ### The slot that translates (R90) -/

variable {gq va : Nat}

/-- The test of a slot of the table: it lies in the quarter and matches. -/
def slotHits (gq : Nat) (tag : BitVec 16) (world : BitVec 8) (va : Nat) (p : Nat × TlbEntry) : Bool :=
  decide (p.1 / 512 = gq) && p.2.hits tag world va

theorem lookup_eq (s : State) (gq : Nat) (tag : BitVec 16) (world : BitVec 8) (va : Nat) :
    s.lookup gq tag world va = (s.tlb.find? (slotHits gq tag world va)).map Prod.snd := rfl

/-- An entry that is not listed matches nothing. -/
theorem ne_default_of_hits {e : TlbEntry} (h : e.hits tag world va = true) : e ≠ {} := by
  rintro rfl
  simp [TlbEntry.hits] at h

/-- What passes the test is one of the 512 slots of the quarter. -/
theorem slot_of_hits (hwf : Store.wf ({} : TlbEntry) s.tlb = true) {p : Nat × TlbEntry} (hp : p ∈ s.tlb)
    (h : slotHits gq tag world va p = true) :
    ∃ i, i < 512 ∧ p.1 = 512 * gq + i ∧ (Store.get {} s.tlb (512 * gq + i) : TlbEntry).hits tag world va = true := by
  obtain ⟨hq, hhit⟩ := Bool.and_eq_true_iff.mp h
  have hq : p.1 / 512 = gq := of_decide_eq_true hq
  have hkey : p.1 = 512 * gq + p.1 % 512 := by omega
  refine ⟨p.1 % 512, by omega, hkey, ?_⟩
  rwa [← hkey, get_of_mem ((Store.wf_iff _ _).mp hwf).1 hp]

theorem lookup_none (hwf : Store.wf ({} : TlbEntry) s.tlb = true)
    (h : ∀ i, i < 512 → (Store.get {} s.tlb (512 * gq + i) : TlbEntry).hits tag world va = false) :
    s.lookup gq tag world va = none := by
  rw [lookup_eq, Option.map_eq_none_iff, List.find?_eq_none]
  intro p hp hhit
  obtain ⟨i, hi, -, ht⟩ := slot_of_hits hwf hp hhit
  rw [h i hi] at ht
  cases ht

theorem lookup_lowest (hwf : Store.wf ({} : TlbEntry) s.tlb = true) {i : Nat} (hi : i < 512)
    (h : (Store.get {} s.tlb (512 * gq + i) : TlbEntry).hits tag world va = true)
    (hlow : ∀ j, j < i → (Store.get {} s.tlb (512 * gq + j) : TlbEntry).hits tag world va = false) :
    s.lookup gq tag world va = some (Store.get {} s.tlb (512 * gq + i)) := by
  have hrise := ((Store.wf_iff _ _).mp hwf).1
  obtain ⟨before, after, hsplit⟩ := List.append_of_mem (mem_of_get_ne (ne_default_of_hits h))
  have hfind : s.tlb.find? (slotHits gq tag world va) = some (512 * gq + i, Store.get {} s.tlb (512 * gq + i)) := by
    refine List.find?_eq_some_iff_append.mpr ⟨?_, before, after, hsplit, fun p hp => ?_⟩
    · exact Bool.and_eq_true_iff.mpr ⟨decide_eq_true (by dsimp only; omega), h⟩
    · by_contra hn
      have hp' : p ∈ s.tlb := hsplit ▸ List.mem_append_left _ hp
      obtain ⟨j, -, hj, ht⟩ := slot_of_hits hwf hp' (by simpa using hn)
      rw [hsplit, List.pairwise_append] at hrise
      have hlt : p.1 < 512 * gq + i := hrise.2.2 p hp _ List.mem_cons_self
      rw [hlow j (by omega)] at ht
      cases ht
  rw [lookup_eq, hfind]
  rfl

theorem phys_eq (e : TlbEntry) (va : Nat) : e.phys va = (e.w1.extractLsb' 16 36).toNat * 2 ^ 16 + va % 2 ^ e.shift := by
  simp [TlbEntry.phys, fld, Nat.shiftRight_eq_div_pow]

theorem canonical_eq_true {va : Nat} : canonical va = true ↔ va / 2 ^ 56 % 256 = 0 ∨ va / 2 ^ 56 % 256 = 255 := by
  simp [canonical]

/-- Settles O16: the slots of a canonical table lie in rising order, so the first that matches is the lowest. -/
theorem translationChoosesLowest : Obligations.TranslationChoosesLowest := by
  intro s gq need va tag world hwf slot canon
  refine ⟨fun hc => ?_, fun hc hnone => ?_, fun i hc hi hhit hlow => ?_⟩
  · rw [State.translate, if_pos (by simpa using mt canonical_eq_true.mp hc)]
    rfl
  · rw [State.translate, canonical_eq_true.mpr hc, lookup_none hwf hnone]
    rfl
  · rw [State.translate, canonical_eq_true.mpr hc, lookup_lowest hwf hi hhit hlow, ← phys_eq]
    refine ⟨fun hn => if_pos hn, fun hn hr => ?_⟩
    exact (if_neg (not_not.mpr hn)).trans (if_neg hr)

end Sys2Proof.Laws
end

section
/-!
Fences and barriers (R105, R262 to R265).
-/

namespace Sys2Proof.Machine

/-- The state in which the executing team has made its arrival at a barrier and waits there. -/
def State.arriveBar (s : State) (gang : Bool) (d : BitVec 6) (n : Nat) : State :=
  let g := s.groupOf s.team
  let s := s.putGroup s.team.group (g.putBar n { g.bar n with kind := some gang, arrived := (g.bar n).arrived ++ [s.cur] })
  s.upd fun t => { t with barWait := some (n, gang, d), stale := [] }

/-- The barriers of a phase start anew. -/
def State.clearBars (s : State) (gs : List Nat) (n : Nat) : State :=
  gs.foldl (fun s g => s.putGroup g ((s.groupAt g).putBar n {})) s

/-- Teams that wait at barrier n depart with a status word. -/
def State.departAll (s : State) (ids : List Nat) (n : Nat) (x : Word) : State :=
  ids.foldl (fun s id => s.modTeam id fun t => t.depart n x) s

/-- The state after the arrival that completes a phase: its barriers are new, and the teams that wait there have departed. -/
def State.phaseDone (s : State) (gang : Bool) (d : BitVec 6) (n : Nat) : State :=
  let gs := s.barGroups s.team.group gang
  let s₁ := s.arriveBar gang d n
  (s₁.clearBars gs n).departAll ((gs.flatMap fun g => ((s₁.groupAt g).bar n).arrived).filter s₁.expected) n
    (barStatus (gs.map fun g => (s.groupAt g).bar n))

end Sys2Proof.Machine

namespace Sys2Proof.Laws

open Sys2Proof Sys2Proof.Machine

variable {s : State} {gang : Bool} {d : BitVec 6} {n gid : Nat} {x : Word}

/-! ### Fences (R262) -/

theorem fenceWait_of_quiet {rel : Bool} {scope : Nat} (h : s.quiet rel (decide (1 ≤ scope)) (decide (2 ≤ scope))) :
    s.fenceWait rel scope = none := by
  obtain ⟨hq, hrel, hret, hgroup, hgang⟩ := h
  have hsdq : (rel && !s.team.sdq.isEmpty) = false := by
    cases rel with
    | false => rfl
    | true => simp [hrel rfl]
  have hred : (decide (1 ≤ scope) && s.contributed s.cur) = false := by
    by_cases hs : 1 ≤ scope
    · rw [hgroup (decide_eq_true hs), Bool.and_false]
    · rw [decide_eq_false hs, Bool.false_and]
  have hcards : (decide (2 ≤ scope) && s.cardsPending s.team) = false := by
    by_cases hs : 2 ≤ scope
    · rw [hgang (decide_eq_true hs), Bool.and_false]
    · rw [decide_eq_false hs, Bool.false_and]
  unfold State.fenceWait
  simp only [hq, hsdq, hret, hred, hcards, List.isEmpty_nil, Bool.not_true, Bool.false_eq_true, if_false]

theorem fenceWait_of_busy {rel : Bool} {scope : Nat}
    (h : s.team.laneq ≠ [] ∨ s.team.sdq.any WriteOp.returns = true ∨ (rel = true ∧ s.team.sdq ≠ [])) :
    s.fenceWait rel scope = some s := by
  unfold State.fenceWait
  dsimp only
  split
  · rfl
  · next hq =>
    split
    · rfl
    · next hs =>
      split
      · rfl
      · next hr =>
        rcases h with h | h | ⟨hrel, h⟩
        · exact absurd (by simpa using h) hq
        · exact absurd h hr
        · exact absurd (by simpa [hrel] using h) hs

theorem exec_fence {scope : BitVec 4} {ord : BitVec 2} (ho : ord ≠ 0#2) (hs : scope.toNat ≤ 9) :
    exec (.fence scope ord) s = .next (match s.fenceWait (decide (2 ≤ ord.toNat)) scope.toNat with
      | some s' => s'
      | none => s.upd fun t => { t.advance with stale := if ord = 3#2 then [] else t.stale }) := by
  have hord : ord.toNat ≠ 0 := fun h => ho (BitVec.eq_of_toNat_eq h)
  have hwf : (Instr.fence scope ord).wf = true := Bool.and_eq_true_iff.mpr ⟨decide_eq_true hord, decide_eq_true hs⟩
  exact if_pos hwf

theorem fences : Claims.Fences := by
  intro s scope ord ho hs t
  refine ⟨fun hquiet => ?_, fun hbusy => ?_⟩
  · rw [Gives, exec_fence ho hs, fenceWait_of_quiet hquiet]
    rfl
  · rw [exec_fence ho hs, fenceWait_of_busy]
    rcases hbusy with h | h | ⟨hrel, h⟩
    · exact .inl h
    · exact .inr (.inl h)
    · exact .inr (.inr ⟨decide_eq_true hrel, h⟩)

/-! ### The groups of a phase -/

/-- The keys of the entries of a canonical table that pass a test. -/
theorem mem_keys_filter {α : Type} [DecidableEq α] {d : α} {m : List (Nat × α)} (hm : Store.wf d m = true) (p : α → Bool) {k : Nat} :
    k ∈ (m.filter fun y => p y.2).map Prod.fst ↔ Store.get d m k ≠ d ∧ p (Store.get d m k) = true := by
  obtain ⟨hrise, hd⟩ := (Store.wf_iff d m).mp hm
  simp only [List.mem_map, List.mem_filter]
  constructor
  · rintro ⟨y, ⟨hy, hp⟩, rfl⟩
    rw [get_of_mem hrise hy]
    exact ⟨hd y hy, hp⟩
  · rintro ⟨hne, hp⟩
    exact ⟨_, ⟨mem_of_get_ne hne, hp⟩, rfl⟩

/-- Of two canonical tables whose entries at each key are listed and pass a test alike, the same keys pass it. -/
theorem keys_filter_congr {α : Type} [DecidableEq α] {d : α} {m m' : List (Nat × α)} (hm : Store.wf d m = true)
    (hm' : Store.wf d m' = true) (p : α → Bool)
    (h : ∀ k, (Store.get d m' k ≠ d ∧ p (Store.get d m' k) = true) ↔ (Store.get d m k ≠ d ∧ p (Store.get d m k) = true)) :
    (m'.filter fun y => p y.2).map Prod.fst = (m.filter fun y => p y.2).map Prod.fst := by
  have hsorted {l : List (Nat × α)} (hl : Store.wf d l = true) : ((l.filter fun y => p y.2).map Prod.fst).Pairwise (· < ·) :=
    List.pairwise_map.mpr (((Store.wf_iff d l).mp hl).1.filter _)
  refine (hsorted hm').eq_of_mem_iff (hsorted hm) fun {k} => ?_
  rw [mem_keys_filter hm', mem_keys_filter hm, h]

/-- A group that has a barrier is listed. -/
theorem ne_default_of_nbar {g : Group} (h : n < g.nbar) : g ≠ {} := by
  rintro rfl
  exact absurd h (Nat.not_lt_zero n)

/-- A change of the barriers of a listed group leaves the groups of every gang as they are. -/
theorem barGroups_putBar (hwf : Store.wf ({} : Group) s.groups = true) {k : Nat} (hk : n < (s.groupAt k).nbar) (b : Barrier) :
    (s.putGroup k ((s.groupAt k).putBar n b)).barGroups gid gang = s.barGroups gid gang := by
  have hput : (s.groupAt k).putBar n b ≠ {} := ne_default_of_nbar (n := n) hk
  have hold : s.groupAt k ≠ {} := ne_default_of_nbar hk
  have hgang (j : Nat) : ((s.putGroup k ((s.groupAt k).putBar n b)).groupAt j).gang = (s.groupAt j).gang
      ∧ ((s.putGroup k ((s.groupAt k).putBar n b)).groupAt j).grid = (s.groupAt j).grid := by
    rw [State.groupAt, State.putGroup, Store.get_set]
    split
    · next h => exact h ▸ ⟨rfl, rfl⟩
    · exact ⟨rfl, rfl⟩
  obtain ⟨hg, hr⟩ := hgang gid
  unfold State.barGroups State.gangEver
  dsimp only
  rw [hg, hr]
  cases gang with
  | false => rfl
  | true =>
    simp only [if_true]
    split
    · rfl
    · next c _ =>
      refine keys_filter_congr (p := fun y : Group => y.grid == (s.groupAt gid).grid && y.gang == some c) hwf
        (Store.wf_set _ _ _ _ hwf) fun j => ?_
      rw [Store.get_set]
      split
      · next h =>
        subst h
        exact ⟨fun h => ⟨hold, h.2⟩, fun h => ⟨hput, h.2⟩⟩
      · exact Iff.rfl

/-! ### An arrival (R263, R264) -/

theorem exec_barInstr {n : BitVec 4} (h : s.canArrive gang n.toNat) :
    exec (barInstr gang d n) s = .next ((s.arriveBar gang d n.toNat).tryBarrier s.team.group n.toNat) := by
  obtain ⟨hn, hg, hquiet, hclash⟩ := h
  have hbar (word : Nat) : s.barrier word gang d n.toNat = (s.arriveBar gang d n.toNat).tryBarrier s.team.group n.toNat := by
    have hgranted : ¬ ((s.groupOf s.team).nbar ≤ n.toNat ∨ (gang = true ∧ (s.groupOf s.team).gang.isNone = true)) := by
      rintro (h | ⟨h, hnone⟩)
      · exact absurd hn (Nat.not_lt.mpr h)
      · rw [Option.isNone_iff_eq_none.mp hnone] at hg
        exact absurd (hg h) Bool.false_ne_true
    have hfence : s.fenceWait true (if gang then 2 else 1) = none := by
      refine fenceWait_of_quiet ?_
      cases gang <;> exact hquiet
    unfold State.barrier
    dsimp only
    rw [if_neg hgranted, hfence]
    dsimp only
    rw [hclash, if_neg Bool.false_ne_true]
    rfl
  cases gang with
  | false => exact congrArg Host.Outcome.next (hbar _)
  | true => exact congrArg Host.Outcome.next (hbar _)

theorem groupAt_arriveBar (s : State) (gang : Bool) (d : BitVec 6) (n g : Nat) :
    (s.arriveBar gang d n).groupAt g = if g = s.team.group then (s.groupAt s.team.group).putBar n
        { (s.groupAt s.team.group).bar n with kind := some gang, arrived := ((s.groupAt s.team.group).bar n).arrived ++ [s.cur] }
      else s.groupAt g := Store.get_set _ _ _ _ _

theorem bar_putBar (g : Group) (n : Nat) (b : Barrier) : (g.putBar n b).bar n = b := Store.get_set_same _ _ _ _

theorem bar_arriveBar (s : State) (gang : Bool) (d : BitVec 6) (n g : Nat) :
    ((s.arriveBar gang d n).groupAt g).bar n = if g = s.team.group then
        { (s.groupAt g).bar n with kind := some gang, arrived := ((s.groupAt g).bar n).arrived ++ [s.cur] }
      else (s.groupAt g).bar n := by
  rw [groupAt_arriveBar]
  split
  · next h => rw [bar_putBar, h]
  · rfl

theorem members_arriveBar (s : State) (gang : Bool) (d : BitVec 6) (n g : Nat) :
    ((s.arriveBar gang d n).groupAt g).members = (s.groupAt g).members := by
  rw [groupAt_arriveBar]
  split
  · next h => exact h ▸ rfl
  · rfl

theorem barGroups_arriveBar (hwf : Store.wf ({} : Group) s.groups = true) (hn : n < (s.groupOf s.team).nbar) :
    (s.arriveBar gang d n).barGroups gid gang = s.barGroups gid gang := barGroups_putBar hwf hn _

theorem teamAt_arriveBar_cur : (s.arriveBar gang d n).teamAt s.cur = { s.team with barWait := some (n, gang, d), stale := [] } :=
  State.teamAt_putTeam _ _ _

theorem teamAt_arriveBar_other {id : Nat} (h : id ≠ s.cur) : (s.arriveBar gang d n).teamAt id = s.teamAt id :=
  State.teamAt_putTeam_other _ _ h

theorem expected_arriveBar (id : Nat) : (s.arriveBar gang d n).expected id = s.expected id := by
  by_cases h : id = s.cur
  · subst h
    rw [State.expected, teamAt_arriveBar_cur]
    rfl
  · rw [State.expected, teamAt_arriveBar_other h]
    rfl

/-- The teams that have arrived in a phase, after one more arrival. -/
theorem mem_arrived_arriveBar {gs : List Nat} {id : Nat} :
    id ∈ gs.flatMap (fun g => (((s.arriveBar gang d n).groupAt g).bar n).arrived)
      ↔ id ∈ gs.flatMap (fun g => ((s.groupAt g).bar n).arrived) ∨ (s.team.group ∈ gs ∧ id = s.cur) := by
  simp only [List.mem_flatMap, bar_arriveBar]
  constructor
  · rintro ⟨g, hg, hid⟩
    split at hid
    · next h =>
      rcases List.mem_append.mp hid with hid | hid
      · exact .inl ⟨g, hg, hid⟩
      · exact .inr ⟨h ▸ hg, by simpa using hid⟩
    · exact .inl ⟨g, hg, hid⟩
  · rintro (⟨g, hg, hid⟩ | ⟨hg, rfl⟩)
    · refine ⟨g, hg, ?_⟩
      split
      · exact List.mem_append_left _ hid
      · exact hid
    · exact ⟨_, hg, by simp⟩

/-! ### New barriers, departures and the status word (R264, R265) -/

/-- New barriers change the table of groups alone. -/
theorem clearBars_eq (s : State) (gs : List Nat) (n : Nat) : ∃ y, s.clearBars gs n = { s with groups := y } := by
  unfold State.clearBars
  refine List.foldlRecOn (motive := fun s' : State => ∃ y, s' = { s with groups := y }) gs _ ⟨s.groups, rfl⟩ ?_
  rintro _ ⟨y, rfl⟩ g -
  exact ⟨_, rfl⟩

theorem bar_clearBars_of_clear {gs : List Nat} {g : Nat} (h : (s.groupAt g).bar n = {}) :
    ((s.clearBars gs n).groupAt g).bar n = {} := by
  unfold State.clearBars
  refine List.foldlRecOn (motive := fun s' : State => (s'.groupAt g).bar n = {}) gs _ h fun s' hs j _ => ?_
  rw [State.groupAt, State.putGroup, Store.get_set]
  split
  · exact bar_putBar _ _ _
  · exact hs

theorem bar_clearBars {gs : List Nat} {g : Nat} (h : g ∈ gs) : ((s.clearBars gs n).groupAt g).bar n = {} := by
  induction gs generalizing s with
  | nil => cases h
  | cons j gs ih =>
    rcases List.mem_cons.mp h with rfl | h
    · refine bar_clearBars_of_clear (s := s.putGroup g ((s.groupAt g).putBar n {})) ?_
      rw [State.groupAt, State.putGroup, Store.get_set_same]
      exact bar_putBar _ _ _
    · exact ih (s := s.putGroup j ((s.groupAt j).putBar n {})) h

/-- Departures change the table of teams alone. -/
theorem departAll_eq (s : State) (ids : List Nat) (n : Nat) (x : Word) : ∃ y, s.departAll ids n x = { s with teams := y } := by
  unfold State.departAll
  refine List.foldlRecOn (motive := fun s' : State => ∃ y, s' = { s with teams := y }) ids _ ⟨s.teams, rfl⟩ ?_
  rintro _ ⟨y, rfl⟩ g -
  exact ⟨_, rfl⟩

/-- A team that has departed is not held by a barrier; a second departure is none. -/
theorem depart_depart (t : Team) (n : Nat) (x : Word) : (t.depart n x).depart n x = t.depart n x := by
  have hnone {u : Team} (h : u.barWait = none) : u.depart n x = u := by simp only [Team.depart, h]
  have hother {u : Team} {m : Nat} {b : Bool × BitVec 6} (h : u.barWait = some (m, b)) (hm : m ≠ n) : u.depart n x = u := by
    simp only [Team.depart, h]
    exact if_pos hm
  cases hb : t.barWait with
  | none => rw [hnone hb, hnone hb]
  | some b =>
    by_cases hm : b.1 = n
    · refine hnone ?_
      simp only [Team.depart, hb, hm]
      rw [if_neg (not_not.mpr rfl)]
      split <;> rfl
    · rw [hother hb hm, hother hb hm]

theorem teamAt_departAll (ids : List Nat) (id : Nat) :
    (s.departAll ids n x).teamAt id = if id ∈ ids then (s.teamAt id).depart n x else s.teamAt id := by
  induction ids generalizing s with
  | nil => rfl
  | cons j ids ih =>
    have hstep : (s.modTeam j fun t => t.depart n x).teamAt id = if id = j then (s.teamAt id).depart n x else s.teamAt id := by
      rw [State.modTeam, State.teamAt, State.putTeam, Store.get_set]
      split
      · next h => rw [h]
      · rfl
    refine (ih (s := s.modTeam j fun t => t.depart n x)).trans ?_
    rw [hstep]
    by_cases hj : id = j
    · simp [hj, depart_depart]
    · simp [hj]

/-- A resident team that waits at the barrier goes on with the status word in D. -/
theorem depart_resident {t : Team} {k : Bool} (hw : t.barWait = some (n, k, d)) (hl : t.life = .resident) :
    (t.depart n x).barWait = none ∧ (t.depart n x).pc = t.pc + 4
      ∧ ∀ e, (t.depart n x).reg e = if e = 0#6 then 0#64 else if e = d then x else t.reg e := by
  have hdep : t.depart n x = { ((t.setReg d x).stepDone) with barWait := none, pc := t.pc + 4#64 } := by
    simp only [Team.depart, hw, hl]
    rw [if_neg (not_not.mpr rfl), if_neg (by decide)]
  have hs : (t.setReg d x).stepDone.s = (t.setReg d x).s := by
    unfold Team.stepDone
    dsimp only
    split <;> rfl
  refine ⟨by rw [hdep], by rw [hdep]; rfl, fun e => ?_⟩
  rw [← scalarRegisterFile t d e x, hdep]
  simp only [Team.reg, hs]

/-- The status word, field by field. -/
theorem statusWord_eq (bs : List Barrier) : statusWord bs = barStatus bs := by
  unfold statusWord barStatus
  dsimp only
  generalize bs.foldl (fun x b => x ||| b.teams) 0#16 = teams
  generalize bs.foldl (fun x b => x ||| b.warps) 0#32 = warps
  generalize bs.any Barrier.departed = dep
  have hflags : ((if dep then 2 else 0) + if teams = 0 then 0 else 1) = bit dep 1 + bit (teams != 0#16) 0 := by
    by_cases ht : teams = 0 <;> cases dep <;> simp [bit, ht]
  have hlt : bit dep 1 + bit (teams != 0#16) 0 < 2 ^ 16 := by
    unfold bit
    split <;> split <;> decide
  have ht := teams.isLt
  apply BitVec.eq_of_toNat_eq
  rw [hflags, BitVec.toNat_append, BitVec.toNat_append, BitVec.toNat_ofNat, BitVec.toNat_ofNat, Nat.mod_eq_of_lt hlt,
    ← Nat.shiftLeft_add_eq_or_of_lt hlt, ← Nat.shiftLeft_add_eq_or_of_lt, Nat.shiftLeft_eq, Nat.shiftLeft_eq]
  · have := warps.isLt
    rw [Nat.mod_eq_of_lt] <;> omega
  · rw [Nat.shiftLeft_eq]
    omega

/-- An arrival takes no part in the status. -/
theorem statusWord_arriveBar (gs : List Nat) :
    statusWord (gs.map fun g => ((s.arriveBar gang d n).groupAt g).bar n) = statusWord (gs.map fun g => (s.groupAt g).bar n) := by
  have hbar (g : Nat) : (((s.arriveBar gang d n).groupAt g).bar n).teams = ((s.groupAt g).bar n).teams
      ∧ (((s.arriveBar gang d n).groupAt g).bar n).warps = ((s.groupAt g).bar n).warps
      ∧ (((s.arriveBar gang d n).groupAt g).bar n).departed = ((s.groupAt g).bar n).departed := by
    rw [bar_arriveBar]
    split <;> exact ⟨rfl, rfl, rfl⟩
  have hteams (g : Nat) := (hbar g).1
  have hwarps (g : Nat) := (hbar g).2.1
  have hdep (g : Nat) := (hbar g).2.2
  simp only [statusWord, List.foldl_map, List.any_map, Function.comp_def, hteams, hwarps, hdep]

/-! ### The phase that an arrival belongs to -/

/-- It completes when no team of the expected set is missing; otherwise the team waits. -/
theorem tryBarrier_arriveBar (hwf : Store.wf ({} : Group) s.groups = true) (hn : n < (s.groupOf s.team).nbar) :
    let gs := s.barGroups s.team.group gang
    let s₁ := s.arriveBar gang d n
    s₁.tryBarrier s.team.group n
      = if ((gs.flatMap fun g => (s.groupAt g).members).filter s.expected).all
          (gs.flatMap fun g => ((s₁.groupAt g).bar n).arrived).contains = true then s.phaseDone gang d n
        else s₁ := by
  intro gs s₁
  have hkind : ((s₁.groupAt s.team.group).bar n).kind = some gang := by rw [bar_arriveBar, if_pos rfl]
  have hgs : s₁.barGroups s.team.group gang = gs := barGroups_arriveBar hwf hn
  have hexp : s₁.expected = s.expected := funext fun id => expected_arriveBar id
  have hclear : (s₁.clearBars gs n).expected = s₁.expected := by
    obtain ⟨y, hy⟩ := clearBars_eq s₁ gs n
    rw [hy]
    rfl
  have hstatus : statusWord (gs.map fun g => (s₁.groupAt g).bar n) = barStatus (gs.map fun g => (s.groupAt g).bar n) :=
    (statusWord_arriveBar gs).trans (statusWord_eq _)
  have hmembers : (gs.flatMap fun g => (s₁.groupAt g).members) = gs.flatMap fun g => (s.groupAt g).members :=
    congrArg gs.flatMap (funext fun g => members_arriveBar s gang d n g)
  unfold State.tryBarrier
  rw [hkind]
  dsimp only
  rw [hgs, hmembers, hstatus]
  refine if_congr (by rw [hexp]) ?_ rfl
  exact congrArg (fun p => (s₁.clearBars gs n).departAll ((gs.flatMap fun g => ((s₁.groupAt g).bar n).arrived).filter p) n _) hclear

theorem barrierWaits : Claims.BarrierWaits := by
  intro s gang d n hwf hcan hmissing
  obtain ⟨g, hg, id, hid, hexp, hne, harr⟩ := hmissing
  have hnot : ¬ (((s.barGroups s.team.group gang).flatMap fun g => (s.groupAt g).members).filter s.expected).all
      ((s.barGroups s.team.group gang).flatMap fun g =>
        (((s.arriveBar gang d n.toNat).groupAt g).bar n.toNat).arrived).contains = true := by
    intro hall
    have hmem := List.all_eq_true.mp hall id (List.mem_filter.mpr ⟨List.mem_flatMap.mpr ⟨g, hg, hid⟩, hexp⟩)
    rcases mem_arrived_arriveBar.mp (List.contains_iff_mem.mp hmem) with h | ⟨-, h⟩
    · obtain ⟨g', hg', h⟩ := List.mem_flatMap.mp h
      exact harr g' hg' h
    · exact hne h
  have hexec := exec_barInstr (d := d) hcan
  rw [tryBarrier_arriveBar hwf hcan.1, if_neg hnot] at hexec
  have hteam : (s.arriveBar gang d n.toNat).team = _ := teamAt_arriveBar_cur
  refine ⟨_, hexec, by rw [hteam], by rw [hteam], ?_, by rw [bar_arriveBar, if_pos rfl], fun id h => teamAt_arriveBar_other h,
    fun k => rfl⟩
  rw [hteam]
  simp [Team.runs, Team.stands]

/-! ### The completion of a phase (R264, R265) -/

theorem phaseDone_frame : (s.phaseDone gang d n).cur = s.cur ∧ ∀ k, (s.phaseDone gang d n).byte k = s.byte k := by
  unfold State.phaseDone
  extract_lets gs s₁
  obtain ⟨y, hy⟩ := departAll_eq (s₁.clearBars gs n) ((gs.flatMap fun g => ((s₁.groupAt g).bar n).arrived).filter s₁.expected) n
    (barStatus (gs.map fun g => (s.groupAt g).bar n))
  obtain ⟨z, hz⟩ := clearBars_eq s₁ gs n
  rw [hy, hz]
  exact ⟨rfl, fun _ => rfl⟩

theorem bar_phaseDone {g : Nat} (h : g ∈ s.barGroups s.team.group gang) : ((s.phaseDone gang d n).groupAt g).bar n = {} := by
  unfold State.phaseDone
  extract_lets gs s₁
  obtain ⟨y, hy⟩ := departAll_eq (s₁.clearBars gs n) ((gs.flatMap fun g => ((s₁.groupAt g).bar n).arrived).filter s₁.expected) n
    (barStatus (gs.map fun g => (s.groupAt g).bar n))
  rw [hy]
  exact bar_clearBars h

/-- A resident team that has arrived departs with the status of the phase. -/
theorem teamAt_phaseDone {id : Nat}
    (hid : id ∈ (s.barGroups s.team.group gang).flatMap (fun g => ((s.groupAt g).bar n).arrived)
      ∨ (s.team.group ∈ s.barGroups s.team.group gang ∧ id = s.cur)) (hl : (s.teamAt id).life = .resident) :
    (s.phaseDone gang d n).teamAt id = ((s.arriveBar gang d n).teamAt id).depart n
      (barStatus ((s.barGroups s.team.group gang).map fun g => (s.groupAt g).bar n)) := by
  have hexp : (s.arriveBar gang d n).expected id = true := by
    rw [expected_arriveBar, State.expected, hl]
    rfl
  obtain ⟨y, hy⟩ := clearBars_eq (s.arriveBar gang d n) (s.barGroups s.team.group gang) n
  unfold State.phaseDone
  dsimp only
  rw [teamAt_departAll, if_pos (List.mem_filter.mpr ⟨mem_arrived_arriveBar.mpr hid, hexp⟩), hy]
  rfl

theorem barrierCompletes : Claims.BarrierCompletes := by
  intro s gang d n hwf hcan gs arrived hgroup _ hcur _ hlife hall x
  have hfull : ((gs.flatMap fun g => (s.groupAt g).members).filter s.expected).all
      (gs.flatMap fun g => (((s.arriveBar gang d n.toNat).groupAt g).bar n.toNat).arrived).contains = true := by
    refine List.all_eq_true.mpr fun id hid => List.contains_iff_mem.mpr (mem_arrived_arriveBar.mpr ?_)
    obtain ⟨hid, hexp⟩ := List.mem_filter.mp hid
    obtain ⟨g, hg, hid⟩ := List.mem_flatMap.mp hid
    exact (hall g hg id hid hexp).symm.imp_right fun h => ⟨hgroup, h⟩
  have hexec := exec_barInstr (d := d) hcan
  rw [tryBarrier_arriveBar hwf hcan.1, if_pos hfull] at hexec
  obtain ⟨hc, hbyte⟩ := phaseDone_frame (s := s) (gang := gang) (d := d) (n := n.toNat)
  have hteam : (s.phaseDone gang d n.toNat).team
      = ({ s.team with barWait := some (n.toNat, gang, d), stale := [] } : Team).depart n.toNat x := by
    rw [State.team, hc, teamAt_phaseDone (.inr ⟨hgroup, rfl⟩) hlife, teamAt_arriveBar_cur]
  obtain ⟨hwait, hpc, hreg⟩ := depart_resident (x := x) (t := { s.team with barWait := some (n.toNat, gang, d), stale := [] }) rfl hlife
  refine ⟨_, hexec, by rw [hteam, hwait], by rw [hteam, hpc], fun e => by rw [hteam, hreg]; rfl, fun id hid k e hl hw => ?_,
    fun g hg => bar_phaseDone hg, hbyte⟩
  have hne : id ≠ s.cur := fun h => hcur (h ▸ hid)
  obtain ⟨hwait, hpc, hreg⟩ := depart_resident (x := x) hw hl
  rw [teamAt_phaseDone (.inl hid) hl, teamAt_arriveBar_other hne]
  refine ⟨hwait, hpc, fun he => ?_⟩
  rw [hreg, if_neg he, if_pos rfl]

/-- Settles O19: a fence waits for what is under way; of the arrivals at a barrier the last one finds every expected team there. -/
theorem fencesAndBarriers : Obligations.FencesAndBarriers := ⟨fences, barrierWaits, barrierCompletes⟩

end Sys2Proof.Laws
end

section
/-!
Lane atomics and no-return reductions (R95, R122, R255, R258).
-/

namespace Sys2Proof.Machine

/-- The elements of an atomic or a reduction as queued writes, in the order in which they are performed. -/
def Ctx.rmwWrites (c : Ctx) (op : RmwOp) (ret : Bool) (accs : List LaneAcc) : List (WriteWhat × Option Word) :=
  (unordered c.s.free (accs.map (c.rmw op))).map fun r =>
    (if ret then .atomic r else .reduction r c.o.isG, fabricOf accs r)

/-- What an atomic or a reduction leaves outstanding whose accesses have all passed. -/
def Ctx.rmwPend (c : Ctx) (ret : Bool) (accs : List LaneAcc) (tok : Option Nat) : Pend :=
  if ret then
    { c.posted tok .atomic with
      awaits := accs.flatMap fun a => (List.range c.o.width).map fun r => vKey (c.o.f.d.toNat + r) a.lane }
  else c.posted tok .store

/-- The team after an atomic or a reduction has become outstanding, has posted and has queued its elements. -/
def Ctx.rmwTeam (c : Ctx) (op : RmwOp) (ret : Bool) (ps : List Pass) (accs : List LaneAcc) (tok : Option Nat) : Team :=
  if ps.isEmpty then c.t
  else (((c.t.addPend c.s.free c.o.layout (passCycle c.s.cycle ps) (c.rmwPend ret accs tok)).newOp).postOpt tok).addWrites
    c.t.nextOp c.s.cycle c.o.release (c.rmwWrites op ret accs) (ret && c.o.acquires)

end Sys2Proof.Machine

namespace Sys2Proof.Laws

open Sys2Proof Sys2Proof.Machine

variable {s : State} {i : Instr} {opc : Nat} {op : RmwOp} {f : LaneFields} {ret : Bool} {c : Ctx} {e : LaneEntry}
  {rest : List LaneEntry} {ps : List Pass} {accs : List LaneAcc} {tok : Option Nat}

/-! ### The instructions of class 0x9 -/

theorem exec_of_laneAtomic (h : Instr.laneAtomic? i = some (opc, op, f)) : exec i s = .next (s.laneAtomic i opc f op) := by
  unfold Instr.laneAtomic? at h
  split at h <;> cases h <;> rfl

theorem exec_of_laneRed (h : Instr.laneRed? i = some (opc, op, f)) : exec i s = .next (s.laneReduction i opc f op) := by
  unfold Instr.laneRed? at h
  split at h <;> cases h <;> rfl

theorem atomOk_of_wf (h : Instr.laneAtomic? i = some (opc, op, f)) (hwf : i.wf = true) :
    ∃ types rnd sat ab, f.atomOk types rnd sat ab = true := by
  unfold Instr.laneAtomic? at h
  split at h <;> cases h <;> exact ⟨_, _, _, _, hwf⟩

theorem noRetOk_of_wf (h : Instr.laneRed? i = some (opc, op, f)) (hwf : i.wf = true) :
    opc ≠ 7 ∧ ∃ types rnd sat ab, f.noRetOk types rnd sat ab = true := by
  unfold Instr.laneRed? at h
  split at h <;> cases h <;> exact ⟨by decide, _, _, _, _, hwf⟩

theorem isSlot_of_isReg {x : BitVec 8} (h : isReg x = true) : isSlot x = false := by
  simp only [isReg, isSlot, decide_eq_true_eq, Bool.and_eq_false_iff, decide_eq_false_iff_not] at h ⊢
  omega

theorem isSlot_of_isCap {x : BitVec 8} (h : isCap x = true) : isSlot x = false := by
  simp only [isCap, isSlot, Bool.or_eq_true, decide_eq_true_eq, Bool.and_eq_false_iff, decide_eq_false_iff_not] at h ⊢
  omega

/-- The operands of an access name no slot, and D is a source of `cas` alone. -/
theorem slots_of_atomCommon (h : f.atomCommon = true) (hd : opc = 7 → isReg f.d = true) : LaneOp.slots ⟨9, opc, f⟩ = [] := by
  simp only [LaneFields.atomCommon, LaneFields.addrOk, Bool.and_eq_true, Bool.or_eq_true, Bool.not_eq_true', regOk] at h
  obtain ⟨⟨⟨-, ⟨⟨ha, hb⟩, -⟩, -⟩, -⟩, -⟩ := h
  have ha : isSlot f.a = false := ha.elim isSlot_of_isCap fun h => isSlot_of_isReg h.1
  by_cases hop : opc = 7
  · simp [LaneOp.slots, LaneOp.sources, LaneOp.isCvt, LaneOp.isMem, ha, hb, hop, isSlot_of_isReg (hd hop)]
  · simp [LaneOp.slots, LaneOp.sources, LaneOp.isCvt, LaneOp.isMem, ha, hb, hop]

theorem slots_of_rmw (h : (if ret then Instr.laneAtomic? i else Instr.laneRed? i) = some (opc, op, f)) (hwf : i.wf = true) :
    LaneOp.slots ⟨9, opc, f⟩ = [] := by
  cases ret with
  | true =>
    obtain ⟨types, rnd, sat, ab, hok⟩ := atomOk_of_wf h hwf
    simp only [LaneFields.atomOk, regOk, Bool.and_eq_true] at hok
    obtain ⟨⟨⟨-, hc⟩, -⟩, hd, -⟩ := hok
    exact slots_of_atomCommon hc fun _ => hd
  | false =>
    obtain ⟨hop, types, rnd, sat, ab, hok⟩ := noRetOk_of_wf h hwf
    simp only [LaneFields.noRetOk, Bool.and_eq_true] at hok
    obtain ⟨⟨⟨-, hc⟩, -⟩, -⟩ := hok
    exact slots_of_atomCommon hc fun h => absurd h hop

/-! ### The issue -/

theorem laneAtomic_eq (hb : s.beginLane i ⟨9, opc, f⟩ false memReads (fun _ p => p.lanes) = .ok (c, ps)) (hs : c.s = s)
    (ho : c.o = ⟨9, opc, f⟩) (hacc : c.accesses9 ps = accs) (hf : ∀ a ∈ accs, a.chk.fails = [])
    (hheld : s.fabricHeld (accs.flatMap fun a => a.chk.keys) = false) (hlost : s.lostLanes accs = []) :
    s.laneAtomic i opc f op = s.endLane (c.rmwTeam op true ps accs (lanePost (encode i))) ps.length f.stall.toNat := by
  have hgood : (accs.filter fun a => !(([] : List (Nat × Word)).any fun x => x.1 == a.lane)) = accs := by simp
  unfold State.laneAtomic
  rw [hb]
  dsimp only
  rw [hacc, accTrap_none hf]
  dsimp only
  rw [hheld, if_neg Bool.false_ne_true, hlost, hgood]
  subst hs
  obtain rfl : f = c.o.f := by rw [ho]
  exact congrArg (fun u => c.s.endLane u ps.length c.o.f.stall.toNat)
    (async_append_nil (c.rmwTeam op true ps accs (lanePost (encode i))))

theorem laneReduction_eq (hb : s.beginLane i ⟨9, opc, f⟩ false memReads (fun _ _ => []) = .ok (c, ps)) (hs : c.s = s)
    (hacc : c.accesses9 ps = accs) (hf : ∀ a ∈ accs, a.chk.fails = [])
    (hheld : s.fabricHeld (accs.flatMap fun a => a.chk.keys) = false) :
    s.laneReduction i opc f op = s.endLane (c.rmwTeam op false ps accs (lanePost (encode i))) ps.length f.stall.toNat := by
  unfold State.laneReduction
  rw [hb]
  dsimp only
  rw [hacc, accTrap_none hf]
  dsimp only
  rw [hheld, if_neg Bool.false_ne_true]
  subst hs
  rfl

theorem exec_of_rmw (h : (if ret then Instr.laneAtomic? i else Instr.laneRed? i) = some (opc, op, f)) (hwf : i.wf = true)
    (hhead : s.laneHead i e rest) (hc : c = s.laneCtx ⟨9, opc, f⟩ e rest []) (hps : ps = s.lanePasses ⟨9, opc, f⟩ false rest)
    (hchk : s.laneChecked ⟨9, opc, f⟩ e rest ps (memReads c) (fun p => if ret then p.lanes else []))
    (hacc : c.accesses9 ps = accs) (hf : ∀ a ∈ accs, a.chk.fails = [])
    (hheld : s.fabricHeld (accs.flatMap fun a => a.chk.keys) = false) (hlost : s.lostLanes accs = []) :
    exec i s = .next (s.endLane (c.rmwTeam op ret ps accs (lanePost (encode i))) ps.length f.stall.toNat) := by
  subst hc hps
  have hslots := slots_of_rmw h hwf
  cases ret with
  | true =>
    have hb := beginLane_mem (wl := fun _ p => p.lanes) hhead hslots hchk
    rw [exec_of_laneAtomic h, laneAtomic_eq hb rfl rfl hacc hf hheld hlost]
  | false =>
    have hb := beginLane_mem (wl := fun _ _ => []) hhead hslots hchk
    rw [exec_of_laneRed h, laneReduction_eq hb rfl hacc hf hheld]

/-! ### The order of the elements (R95) -/

theorem shuffle_length {α : Type} (free n : Nat) (xs : List α) (h : n ≤ xs.length) : (shuffle free n xs).length = xs.length := by
  induction n generalizing xs with
  | zero => rfl
  | succ n ih =>
    have hlt : draw free 6 n % xs.length < xs.length := Nat.mod_lt _ (by omega)
    have hlen := List.length_eraseIdx_of_lt hlt
    rw [shuffle, List.getElem?_eq_getElem hlt]
    dsimp only
    rw [List.length_cons, ih _ (by omega)]
    omega

theorem unordered_length (free : Nat) (xs : List Rmw) : (unordered free xs).length = xs.length := by
  unfold unordered
  split
  · rfl
  · exact shuffle_length free _ xs le_rfl

/-- Elements that share no location keep their order. -/
theorem unordered_of_nodup {free : Nat} {xs : List Rmw} (h : (xs.map Rmw.key).Nodup) : unordered free xs = xs := if_pos h

/-! ### What is queued -/

theorem rmwWrites_length : (c.rmwWrites op ret accs).length = accs.length := by
  rw [Ctx.rmwWrites, List.length_map, unordered_length, List.length_map]

theorem accesses9_nil (c : Ctx) : c.accesses9 [] = [] := rfl

theorem queuedWrites_length {first opn cycle : Nat} {release : Option Nat} {ws : List (WriteWhat × Option Word)} {acquire : Bool} :
    (queuedWrites first opn cycle release ws acquire).length = ws.length := by
  rw [queuedWrites, List.length_map, List.length_zipIdx]

theorem queuedWrites_get {first opn cycle n : Nat} {release : Option Nat} {ws : List (WriteWhat × Option Word)} {acquire : Bool}
    {x : WriteWhat × Option Word} (h : ws[n]? = some x) :
    ∃ w, (queuedWrites first opn cycle release ws acquire)[n]? = some w ∧ w.what = x.1 := by
  rw [queuedWrites, List.getElem?_map, List.getElem?_zipIdx, h]
  exact ⟨_, rfl, rfl⟩

/-- The team is what it was, but for one more outstanding operation, its token, and one queued write for each access. -/
theorem rmwTeam_eq (c : Ctx) (op : RmwOp) (ret : Bool) (ps : List Pass) (accs : List LaneAcc) (w : Nat)
    (hnil : ps = [] → accs = []) :
    ∃ P K n m, c.rmwTeam op ret ps accs (lanePost w) = { c.t with
        pend := P, tok := K, nextOp := n
        sdq := c.t.sdq ++ queuedWrites m c.t.nextOp c.s.cycle c.o.release (c.rmwWrites op ret accs) (ret && c.o.acquires) }
      ∧ P = (c.issued ps (c.rmwPend ret accs (lanePost w)) (lanePost w)).pend ∧ K = c.t.postedTok w ps.isEmpty := by
  obtain ⟨P, K, n, hteam, hP, hK⟩ := issued_eq c ps (c.rmwPend ret accs (lanePost w)) w
  by_cases hps : ps = []
  · obtain rfl := hnil hps
    subst hps
    have hws : c.rmwWrites op ret [] = [] := List.eq_nil_of_length_eq_zero rmwWrites_length
    have htok : c.t.tok = K := congrArg Team.tok hteam
    refine ⟨c.t.pend, c.t.tok, c.t.nextOp, 0, ?_, rfl, htok.trans hK⟩
    rw [hws]
    exact congrArg (fun q => ({ c.t with sdq := q } : Team)) (List.append_nil _).symm
  · refine ⟨P, K, n + (c.rmwWrites op ret accs).length, n, ?_, hP, hK⟩
    rw [Ctx.issued, if_neg (by simpa using hps)] at hteam
    rw [Ctx.rmwTeam, if_neg (by simpa using hps), addWrites_eq, hteam]

/-- An element of a 64-bit type takes eight bytes, any other four (R256). -/
theorem rmw_size (ty : BitVec 4) : (if tyBits ty.toNat = 64 then 8 else 4) = if ty ∈ [0#4, 8#4, 0xC#4] then 8 else 4 := by
  revert ty
  decide

theorem acquires_iff (o : LaneOp) : o.acquires = true ↔ o.f.mod.getLsbD 3 = true := by
  rw [LaneOp.acquires, LaneFields.ord, modF_eq]
  simp [BitVec.getLsbD, Nat.testBit, Nat.shiftRight_eq_div_pow]

theorem release9_eq (opc : Nat) (f : LaneFields) : LaneOp.release ⟨9, opc, f⟩
    = if 2 ≤ (f.mod.extractLsb' 3 2).toNat then some (f.imm.extractLsb' 16 4).toNat else none := release_eq opc f

/-! ### What is awaited (R255) -/

theorem mem_accesses9_lane {l : Nat} : (∃ a ∈ c.accesses9 ps, a.lane = l) ↔ ∃ p ∈ ps, l ∈ p.lanes := by
  simp [Ctx.accesses9]

/-- An operation awaits the registers of D of the lanes that take part. -/
theorem mem_awaits {k l : Nat} {free cyc m : Nat} {t : Team} (hps : ps = t.passesFrom false free cyc m) (hl : l < 1024)
    (hk : k < c.o.width) :
    1024 * (c.o.f.d.toNat + k) + l ∈ (c.rmwPend true (c.accesses9 ps) tok).awaits ↔ ∃ p ∈ ps, l ∈ p.lanes := by
  rw [← mem_accesses9_lane (c := c)]
  simp only [Ctx.rmwPend, if_true, List.mem_flatMap, List.mem_map, List.mem_range, vKey]
  constructor
  · rintro ⟨a, ha, r, -, hkey⟩
    obtain ⟨p, hp, hlane⟩ := mem_accesses9_lane.mp ⟨a, ha, rfl⟩
    have := (passesFrom_lane (hps ▸ hp) hlane).2
    exact ⟨a, ha, by omega⟩
  · rintro ⟨a, ha, rfl⟩
    exact ⟨a, ha, k, hk, rfl⟩

/-- Settles O35: the instruction begins, its elements are queued behind what the team has queued, and the end of the instruction
touches nothing else. -/
theorem laneAtomics : Obligations.LaneAtomics := by
  intro s i opc op f ret e rest hi hwf hhead o t ps c accs hchk hfails hheld hlost
  have hexec := exec_of_rmw hi hwf hhead rfl rfl hchk rfl hfails hheld hlost
  have hnil : ps = [] → accs = [] := fun h => (congrArg c.accesses9 h).trans (accesses9_nil c)
  obtain ⟨P, K, n, m, hteam, hP, hK⟩ := rmwTeam_eq c op ret ps accs (encode i) hnil
  rw [hteam] at hexec
  refine ⟨_, _, issues_of_endLane hexec rfl rfl rfl rfl rfl rfl rfl rfl rfl, rfl, rfl, rfl, hK, rfl,
    queuedWrites_length.trans rmwWrites_length, fun w hw => ?_, (congrArg List.length hP).trans (issued_pend_length c ps _ _),
    fun hdist j a ha => ?_, fun hret hps ht => ?_⟩
  · obtain ⟨hborn, hdep, hacq, hrel⟩ := mem_queuedWrites hw
    refine ⟨hborn, hdep, ?_, hrel.trans (release9_eq opc f)⟩
    rw [hacq, Bool.and_eq_true, acquires_iff]
    exact Iff.rfl
  · have hkeys : ((accs.map (c.rmw op)).map Rmw.key).Nodup := by
      rw [List.map_map]
      exact hdist
    have hget : (c.rmwWrites op ret accs)[j]?
        = some (if ret then .atomic (c.rmw op a) else .reduction (c.rmw op a) c.o.isG, fabricOf accs (c.rmw op a)) := by
      rw [Ctx.rmwWrites, unordered_of_nodup hkeys, List.getElem?_map, List.getElem?_map, ha]
      rfl
    obtain ⟨w, hw, hwhat⟩ := queuedWrites_get (first := m) (opn := c.t.nextOp) (cycle := c.s.cycle) (release := c.o.release)
      (acquire := ret && c.o.acquires) hget
    exact ⟨w, c.rmw op a, hw, hwhat, rfl, rfl, rfl, rfl, rfl, rmw_size f.ty⟩
  · subst hret
    exact ⟨_, hP.trans (issued_pend_of_nil hps ht _ _), rfl, rfl, rfl, fun l k hl hk => mem_awaits (c := c) rfl hl hk⟩

end Sys2Proof.Laws
end

section
/-!
The encodings of the scalar words (R141 to R151): the fields of a word that is put together from operands, what decoding makes of the
word of an instruction, and the word that an instruction stands for.
-/

namespace Sys2Proof.Laws

open Sys2Proof

/-! ### The fields of a number that operands are added to

The words are sums of operands put at their places, from the highest place down, so each field is read off by passing the operands
below it, above it, and at its own place. -/

section Fields

variable {n x k lo len : Nat}

/-- A field below a placed operand does not see it. -/
@[simp] theorem fld_add_put_above (y : BitVec n) (h : lo + len ≤ k) : fld (x + put y k) lo len = fld x lo len := by
  obtain ⟨j, rfl⟩ := Nat.exists_eq_add_of_le h
  have hput : put y (lo + len + j) = 2 ^ lo * (2 ^ len * (y.toNat * 2 ^ j)) := by rw [put]; ring
  rw [fld, hput, Nat.add_mul_div_left _ _ (Nat.two_pow_pos lo), Nat.add_mul_mod_self_left, fld]

/-- An operand added where nothing stands leaves what is above it. -/
theorem add_div_of_mod_eq_zero {x y : Nat} (hx : x % 2 ^ n = 0) (hy : y < 2 ^ n) : (x + y) / 2 ^ n = x / 2 ^ n := by
  obtain ⟨q, rfl⟩ := Nat.dvd_of_mod_eq_zero hx
  rw [Nat.mul_add_div (Nat.two_pow_pos n), Nat.div_eq_of_lt hy, Nat.mul_div_cancel_left _ (Nat.two_pow_pos n), Nat.add_zero]

/-- A field above a placed operand does not see it, when nothing else stands at its place. -/
@[simp] theorem fld_add_put_below (y : BitVec n) (h : k + n ≤ lo) (hx : fld x k n = 0) : fld (x + put y k) lo len = fld x lo len := by
  obtain ⟨j, rfl⟩ := Nat.exists_eq_add_of_le h
  simp only [fld, put, Nat.pow_add, ← Nat.div_div_eq_div_mul]
  rw [Nat.add_mul_div_right _ _ (Nat.two_pow_pos k), add_div_of_mod_eq_zero hx y.isLt]

/-- A field at a placed operand's own place reads the operand, when nothing else stands there. -/
@[simp] theorem fld_add_put_same (y : BitVec n) (hx : fld x k n = 0) : fld (x + put y k) k n = y.toNat := by
  rw [fld] at hx
  rw [fld, put, Nat.add_mul_div_right _ _ (Nat.two_pow_pos k), Nat.add_mod, hx, Nat.zero_add, Nat.mod_mod, Nat.mod_eq_of_lt y.isLt]

/-- A wider field around a placed operand holds it where it lies, when nothing else stands there. -/
@[simp] theorem fld_add_put_inside (y : BitVec n) (h : n < len ∧ lo ≤ k ∧ k + n ≤ lo + len) (hx : fld x k n = 0) :
    fld (x + put y k) lo len = put y (k - lo) + fld x lo len := by
  obtain ⟨-, hlo, hhi⟩ := h
  obtain ⟨j, rfl⟩ := Nat.exists_eq_add_of_le hlo
  obtain ⟨m, hm⟩ : ∃ m, len = j + (n + m) := ⟨len - j - n, by omega⟩
  subst hm
  rw [Nat.add_sub_cancel_left]
  have hput : put y (lo + j) = put y j * 2 ^ lo := by simp only [put]; ring
  have hzero : x / 2 ^ lo % 2 ^ (j + (n + m)) / 2 ^ j % 2 ^ n = 0 := by
    rw [fld, Nat.pow_add, ← Nat.div_div_eq_div_mul] at hx
    rw [Nat.pow_add, Nat.mod_mul_right_div_self, Nat.mod_mod_of_dvd _ (Nat.pow_dvd_pow 2 (Nat.le_add_right n m)), hx]
  have hlt : x / 2 ^ lo % 2 ^ (j + (n + m)) + put y j < 2 ^ (j + (n + m)) := by
    have hhigh : x / 2 ^ lo % 2 ^ (j + (n + m)) / 2 ^ j / 2 ^ n < 2 ^ m := by
      rw [Nat.div_div_eq_div_mul, ← Nat.pow_add]
      refine Nat.div_lt_of_lt_mul ?_
      rw [← Nat.pow_add, Nat.add_assoc]
      exact Nat.mod_lt _ (Nat.two_pow_pos _)
    rw [← add_div_of_mod_eq_zero hzero y.isLt, ← Nat.add_mul_div_right _ _ (Nat.two_pow_pos j), Nat.div_div_eq_div_mul,
      Nat.div_lt_iff_lt_mul (by positivity)] at hhigh
    exact hhigh.trans_eq (by ring)
  rw [fld, hput, Nat.add_mul_div_right _ _ (Nat.two_pow_pos lo), Nat.add_mod, Nat.mod_eq_of_lt (a := put y j), Nat.mod_eq_of_lt hlt,
    fld, Nat.add_comm]
  exact (Nat.le_add_left _ _).trans_lt hlt

/-- The field of a number that is written out. -/
@[simp] theorem fld_literal (n lo len : Nat) : fld (no_index (OfNat.ofNat n)) lo len = OfNat.ofNat n / 2 ^ lo % 2 ^ len := by rw [fld]

@[simp] theorem fld_put_above (y : BitVec n) (h : lo + len ≤ k) : fld (put y k) lo len = 0 := by
  rw [← Nat.zero_add (put y k), fld_add_put_above y h, fld, Nat.zero_div, Nat.zero_mod]

@[simp] theorem fld_put_same (y : BitVec n) : fld (put y k) k n = y.toNat := by
  rw [← Nat.zero_add (put y k), fld_add_put_same y (by rw [fld, Nat.zero_div, Nat.zero_mod])]

theorem fld_all {w : Nat} (h : w < 2 ^ n) : fld w 0 n = w := by
  rw [fld, Nat.pow_zero, Nat.div_one, Nat.mod_eq_of_lt h]

/-- A field is made up of the fields that it is cut into. -/
theorem fld_split (w lo m n : Nat) : fld w lo (m + n) = fld w (lo + m) n * 2 ^ m + fld w lo m := by
  rw [fld, fld, fld, Nat.pow_add, Nat.pow_add, ← Nat.div_div_eq_div_mul, Nat.mod_mul, Nat.mul_comm, Nat.add_comm]

theorem fld_fld (w lo : Nat) {a b : Nat} (h : a + b ≤ len) : fld (fld w lo len) a b = fld w (lo + a) b := by
  obtain ⟨m, rfl⟩ := Nat.exists_eq_add_of_le h
  rw [fld, fld, fld, Nat.add_assoc, Nat.pow_add 2 a, Nat.mod_mul_right_div_self,
    Nat.mod_mod_of_dvd _ (Nat.pow_dvd_pow 2 (Nat.le_add_right b m)), Nat.div_div_eq_div_mul, ← Nat.pow_add]

theorem put_bfld (w lo n : Nat) : put (bfld w lo n) lo = fld w lo n * 2 ^ lo := by
  rw [put, bfld, BitVec.toNat_ofNat, fld, Nat.mod_mod]

end Fields

/-! ### The word of a scalar instruction decodes to it -/

/-- R148: the integer ALU, compare and select. -/
theorem decodeAssigned_encode_alu (d a b : BitVec 6) (c : BitVec 4) :
    ∀ x ∈ [Instr.iadd d a b, .isub d a b, .imul d a b, .imulh d a b, .imulhu d a b, .idiv d a b, .idivu d a b, .irem d a b,
      .iremu d a b, .and d a b, .or d a b, .xor d a b, .shl d a b, .shr d a b, .sar d a b, .imin d a b, .imax d a b,
      .iminu d a b, .imaxu d a b, .cmp a b, .sxt8 d a, .sxt16 d a, .sxt32 d a,
      .selCc d a b c], decodeAssigned (encode x) = some x := by
  intro x hx
  fin_cases hx <;> simp [encode, decodeAssigned, decodeOp00, bfld, -zero_add, -Nat.zero_add, ← Nat.add_assoc]

/-- R142: the I-format instructions that an `ext` can widen. -/
theorem decodeAssigned_encode_immediate (d a : BitVec 6) (i : BitVec 14) :
    ∀ x ∈ [Instr.iaddi d a i, .imuli d a i, .andi d a i, .ori d a i, .xori d a i, .cmpi a i], decodeAssigned (encode x) = some x := by
  intro x hx
  fin_cases hx <;> simp [encode, decodeAssigned, decodeOp01, decodeOp02, decodeOp03, decodeOp04, decodeOp05, decodeOp09, bfld]

/-- R147: the shifts by an immediate of 0 to 63. -/
theorem decodeAssigned_encode_shiftImmediate (d a n : BitVec 6) :
    ∀ x ∈ [Instr.shli d a n, .shri d a n, .sari d a n], decodeAssigned (encode x) = some x := by
  intro x hx
  fin_cases hx <;> simp [encode, decodeAssigned, decodeOp06, decodeOp07, decodeOp08, bfld]

/-- R172: the transfers of control. -/
theorem decodeAssigned_encode_transfer (d a : BitVec 6) (c : BitVec 4) (k : BitVec 22) (i : BitVec 14) :
    ∀ x ∈ [Instr.brCc c k, .call k, .jr a, .callr a, .ret, .dbnz d i], decodeAssigned (encode x) = some x := by
  intro x hx
  fin_cases hx <;> simp [encode, decodeAssigned, decodeOp10, decodeOp11, decodeOp12, decodeOp13, bfld]

/-- R175: scalar loads and stores. -/
theorem decodeAssigned_encode_access (d a b : BitVec 6) (s : BitVec 4) (c z : BitVec 2) :
    ∀ x ∈ [Instr.ldS d a b s c z, .ldG d a b s c z, .stS d a b s c z, .stG d a b s c z], decodeAssigned (encode x) = some x := by
  intro x hx
  fin_cases hx <;> simp [encode, decodeAssigned, decodeOp14, decodeOp15, decodeOp16, decodeOp17, bfld]

/-- R177, R178: scalar atomics at an S-address. -/
theorem decodeAssigned_encode_atomicS (d a b : BitVec 6) (z : BitVec 1) :
    ∀ x ∈ [Instr.atomAddS d a b z, .atomMinS d a b z, .atomMaxS d a b z, .atomMinuS d a b z, .atomMaxuS d a b z,
      .atomAndS d a b z, .atomOrS d a b z, .atomXorS d a b z, .atomExchS d a b z, .atomCasS d a b z, .atomFaddS d a b,
      .atomFmaxS d a b, .atomFminS d a b], decodeAssigned (encode x) = some x := by
  intro x hx
  fin_cases hx <;> simp [encode, decodeAssigned, decodeOp18, bfld]

/-- R177, R178: scalar atomics at a G-address. -/
theorem decodeAssigned_encode_atomicG (d a b : BitVec 6) (z : BitVec 1) :
    ∀ x ∈ [Instr.atomAddG d a b z, .atomMinG d a b z, .atomMaxG d a b z, .atomMinuG d a b z, .atomMaxuG d a b z,
      .atomAndG d a b z, .atomOrG d a b z, .atomXorG d a b z, .atomExchG d a b z, .atomCasG d a b z, .atomFaddG d a b,
      .atomFmaxG d a b, .atomFminG d a b], decodeAssigned (encode x) = some x := by
  intro x hx
  fin_cases hx <;> simp [encode, decodeAssigned, decodeOp19, bfld]

/-- R179 to R181: scalar binary32. -/
theorem decodeAssigned_encode_fp32 (d a b : BitVec 6) (r : BitVec 3) :
    ∀ x ∈ [Instr.faddF32 d a b r, .fsubF32 d a b r, .fmulF32 d a b r, .ffmaF32 d a b r, .fminF32 d a b, .fmaxF32 d a b,
      .fcmpF32 a b, .cvtF32S32 d a r, .cvtS32F32 d a r], decodeAssigned (encode x) = some x := by
  intro x hx
  fin_cases hx <;> simp [encode, decodeAssigned, decodeOp1C, bfld]

/-- R144, R147: the lane queue and its tokens. -/
theorem decodeAssigned_encode_laneControl (d a n : BitVec 6) (k : BitVec 4) (l : BitVec 26) :
    ∀ x ∈ [Instr.lrun l, .lrunr a, .lsync, .lqcnt d, .wait k n, .tkrd d k], decodeAssigned (encode x) = some x := by
  intro x hx
  fin_cases hx <;> simp [encode, decodeAssigned, decodeOp20, decodeOp21, decodeOp22, decodeOp23, bfld]

/-- R147: FMT and the seed. -/
theorem decodeAssigned_encode_format (d a b : BitVec 6) :
    ∀ x ∈ [Instr.fmtset a, .fmtget d, .srseed a b], decodeAssigned (encode x) = some x := by
  intro x hx
  fin_cases hx <;> simp [encode, decodeAssigned, decodeOp24, bfld, ← Nat.add_assoc]

/-- R151: masks. -/
theorem decodeAssigned_encode_mask (d a b : BitVec 6) :
    ∀ x ∈ [Instr.mand d a b, .mor d a b, .mxor d a b, .mnot d a, .mcount d a, .mfirst d a, .mtest a,
      .mset d a b], decodeAssigned (encode x) = some x := by
  intro x hx
  fin_cases hx <;> simp [encode, decodeAssigned, decodeOp25, bfld]

/-- R151: stream slots. -/
theorem decodeAssigned_encode_slot (d a b : BitVec 6) (f : BitVec 4) :
    ∀ x ∈ [Instr.qset a b f, .qget d b f], decodeAssigned (encode x) = some x := by
  intro x hx
  fin_cases hx <;> simp [encode, decodeAssigned, decodeOp26, bfld]

/-- R147: barriers, stiles, waits and fences. -/
theorem decodeAssigned_encode_sync (d a b : BitVec 6) (n s : BitVec 4) (c : BitVec 2) :
    ∀ x ∈ [Instr.bar d n, .barGang d n, .stexp a b, .starr a s, .sttest d a b s, .stwait d a b s, .yield d a b, .mwait d a b,
      .fence s c], decodeAssigned (encode x) = some x := by
  intro x hx
  fin_cases hx <;> simp [encode, decodeAssigned, decodeOp27, decodeOp28, decodeOp29, decodeOp2A, bfld]

/-- R147: subscriptions, launches, control registers and the translation buffer. -/
theorem decodeAssigned_encode_system (d a b r : BitVec 6) :
    ∀ x ∈ [Instr.sub d a b, .unsub d a, .subflush d a, .launch d a, .cget d r, .cset a r, .tlbw d a b, .tlbi a, .tlbrW0 d a,
      .tlbrW1 d a], decodeAssigned (encode x) = some x := by
  intro x hx
  fin_cases hx <;> simp [encode, decodeAssigned, decodeOp2B, decodeOp2C, decodeOp2D, decodeOp2E, bfld]

/-- R147: the rest of OP 0x2F, and `ext`. -/
theorem decodeAssigned_encode_control (a b : BitVec 6) (l : BitVec 26) :
    ∀ x ∈ [Instr.nop, .halt, .eret, .brk, .trap a b, .mark a, .ext l], decodeAssigned (encode x) = some x := by
  intro x hx
  fin_cases hx <;> simp [encode, decodeAssigned, decodeOp2F, decodeOp3F, bfld, ← Nat.add_assoc]

/-- The word of an instruction that R147 assigns fits 32 bits and decodes to the instruction. -/
theorem decodeAssigned_encode {i : Instr} (hn : i.nbits = 32) (hu : ∀ w, i ≠ .unassignedScalarWord w) :
    encode i < 2 ^ 32 ∧ decodeAssigned (encode i) = some i := by
  cases i with
  | iadd d a b => exact ⟨Fits.iadd d a b, decodeAssigned_encode_alu d a b 0 _ (by simp)⟩
  | isub d a b => exact ⟨Fits.isub d a b, decodeAssigned_encode_alu d a b 0 _ (by simp)⟩
  | imul d a b => exact ⟨Fits.imul d a b, decodeAssigned_encode_alu d a b 0 _ (by simp)⟩
  | imulh d a b => exact ⟨Fits.imulh d a b, decodeAssigned_encode_alu d a b 0 _ (by simp)⟩
  | imulhu d a b => exact ⟨Fits.imulhu d a b, decodeAssigned_encode_alu d a b 0 _ (by simp)⟩
  | idiv d a b => exact ⟨Fits.idiv d a b, decodeAssigned_encode_alu d a b 0 _ (by simp)⟩
  | idivu d a b => exact ⟨Fits.idivu d a b, decodeAssigned_encode_alu d a b 0 _ (by simp)⟩
  | irem d a b => exact ⟨Fits.irem d a b, decodeAssigned_encode_alu d a b 0 _ (by simp)⟩
  | iremu d a b => exact ⟨Fits.iremu d a b, decodeAssigned_encode_alu d a b 0 _ (by simp)⟩
  | and d a b => exact ⟨Fits.and d a b, decodeAssigned_encode_alu d a b 0 _ (by simp)⟩
  | or d a b => exact ⟨Fits.or d a b, decodeAssigned_encode_alu d a b 0 _ (by simp)⟩
  | xor d a b => exact ⟨Fits.xor d a b, decodeAssigned_encode_alu d a b 0 _ (by simp)⟩
  | shl d a b => exact ⟨Fits.shl d a b, decodeAssigned_encode_alu d a b 0 _ (by simp)⟩
  | shr d a b => exact ⟨Fits.shr d a b, decodeAssigned_encode_alu d a b 0 _ (by simp)⟩
  | sar d a b => exact ⟨Fits.sar d a b, decodeAssigned_encode_alu d a b 0 _ (by simp)⟩
  | imin d a b => exact ⟨Fits.imin d a b, decodeAssigned_encode_alu d a b 0 _ (by simp)⟩
  | imax d a b => exact ⟨Fits.imax d a b, decodeAssigned_encode_alu d a b 0 _ (by simp)⟩
  | iminu d a b => exact ⟨Fits.iminu d a b, decodeAssigned_encode_alu d a b 0 _ (by simp)⟩
  | imaxu d a b => exact ⟨Fits.imaxu d a b, decodeAssigned_encode_alu d a b 0 _ (by simp)⟩
  | cmp a b => exact ⟨Fits.cmp a b, decodeAssigned_encode_alu 0 a b 0 _ (by simp)⟩
  | sxt8 d a => exact ⟨Fits.sxt8 d a, decodeAssigned_encode_alu d a 0 0 _ (by simp)⟩
  | sxt16 d a => exact ⟨Fits.sxt16 d a, decodeAssigned_encode_alu d a 0 0 _ (by simp)⟩
  | sxt32 d a => exact ⟨Fits.sxt32 d a, decodeAssigned_encode_alu d a 0 0 _ (by simp)⟩
  | selCc d a b c => exact ⟨Fits.selCc d a b c, decodeAssigned_encode_alu d a b c _ (by simp)⟩
  | iaddi d a i => exact ⟨Fits.iaddi d a i, decodeAssigned_encode_immediate d a i _ (by simp)⟩
  | imuli d a i => exact ⟨Fits.imuli d a i, decodeAssigned_encode_immediate d a i _ (by simp)⟩
  | andi d a i => exact ⟨Fits.andi d a i, decodeAssigned_encode_immediate d a i _ (by simp)⟩
  | ori d a i => exact ⟨Fits.ori d a i, decodeAssigned_encode_immediate d a i _ (by simp)⟩
  | xori d a i => exact ⟨Fits.xori d a i, decodeAssigned_encode_immediate d a i _ (by simp)⟩
  | cmpi a i => exact ⟨Fits.cmpi a i, decodeAssigned_encode_immediate 0 a i _ (by simp)⟩
  | shli d a n => exact ⟨Fits.shli d a n, decodeAssigned_encode_shiftImmediate d a n _ (by simp)⟩
  | shri d a n => exact ⟨Fits.shri d a n, decodeAssigned_encode_shiftImmediate d a n _ (by simp)⟩
  | sari d a n => exact ⟨Fits.sari d a n, decodeAssigned_encode_shiftImmediate d a n _ (by simp)⟩
  | brCc c k => exact ⟨Fits.brCc c k, decodeAssigned_encode_transfer 0 0 c k 0 _ (by simp)⟩
  | call k => exact ⟨Fits.call k, decodeAssigned_encode_transfer 0 0 0 k 0 _ (by simp)⟩
  | jr a => exact ⟨Fits.jr a, decodeAssigned_encode_transfer 0 a 0 0 0 _ (by simp)⟩
  | callr a => exact ⟨Fits.callr a, decodeAssigned_encode_transfer 0 a 0 0 0 _ (by simp)⟩
  | ret => exact ⟨Fits.ret, decodeAssigned_encode_transfer 0 0 0 0 0 _ (by simp)⟩
  | dbnz d i => exact ⟨Fits.dbnz d i, decodeAssigned_encode_transfer d 0 0 0 i _ (by simp)⟩
  | ldS d a b s c z => exact ⟨Fits.ldS d a b s c z, decodeAssigned_encode_access d a b s c z _ (by simp)⟩
  | ldG d a b s c z => exact ⟨Fits.ldG d a b s c z, decodeAssigned_encode_access d a b s c z _ (by simp)⟩
  | stS d a b s c z => exact ⟨Fits.stS d a b s c z, decodeAssigned_encode_access d a b s c z _ (by simp)⟩
  | stG d a b s c z => exact ⟨Fits.stG d a b s c z, decodeAssigned_encode_access d a b s c z _ (by simp)⟩
  | atomAddS d a b z => exact ⟨Fits.atomAddS d a b z, decodeAssigned_encode_atomicS d a b z _ (by simp)⟩
  | atomMinS d a b z => exact ⟨Fits.atomMinS d a b z, decodeAssigned_encode_atomicS d a b z _ (by simp)⟩
  | atomMaxS d a b z => exact ⟨Fits.atomMaxS d a b z, decodeAssigned_encode_atomicS d a b z _ (by simp)⟩
  | atomMinuS d a b z => exact ⟨Fits.atomMinuS d a b z, decodeAssigned_encode_atomicS d a b z _ (by simp)⟩
  | atomMaxuS d a b z => exact ⟨Fits.atomMaxuS d a b z, decodeAssigned_encode_atomicS d a b z _ (by simp)⟩
  | atomAndS d a b z => exact ⟨Fits.atomAndS d a b z, decodeAssigned_encode_atomicS d a b z _ (by simp)⟩
  | atomOrS d a b z => exact ⟨Fits.atomOrS d a b z, decodeAssigned_encode_atomicS d a b z _ (by simp)⟩
  | atomXorS d a b z => exact ⟨Fits.atomXorS d a b z, decodeAssigned_encode_atomicS d a b z _ (by simp)⟩
  | atomExchS d a b z => exact ⟨Fits.atomExchS d a b z, decodeAssigned_encode_atomicS d a b z _ (by simp)⟩
  | atomCasS d a b z => exact ⟨Fits.atomCasS d a b z, decodeAssigned_encode_atomicS d a b z _ (by simp)⟩
  | atomFaddS d a b => exact ⟨Fits.atomFaddS d a b, decodeAssigned_encode_atomicS d a b 0 _ (by simp)⟩
  | atomFmaxS d a b => exact ⟨Fits.atomFmaxS d a b, decodeAssigned_encode_atomicS d a b 0 _ (by simp)⟩
  | atomFminS d a b => exact ⟨Fits.atomFminS d a b, decodeAssigned_encode_atomicS d a b 0 _ (by simp)⟩
  | atomAddG d a b z => exact ⟨Fits.atomAddG d a b z, decodeAssigned_encode_atomicG d a b z _ (by simp)⟩
  | atomMinG d a b z => exact ⟨Fits.atomMinG d a b z, decodeAssigned_encode_atomicG d a b z _ (by simp)⟩
  | atomMaxG d a b z => exact ⟨Fits.atomMaxG d a b z, decodeAssigned_encode_atomicG d a b z _ (by simp)⟩
  | atomMinuG d a b z => exact ⟨Fits.atomMinuG d a b z, decodeAssigned_encode_atomicG d a b z _ (by simp)⟩
  | atomMaxuG d a b z => exact ⟨Fits.atomMaxuG d a b z, decodeAssigned_encode_atomicG d a b z _ (by simp)⟩
  | atomAndG d a b z => exact ⟨Fits.atomAndG d a b z, decodeAssigned_encode_atomicG d a b z _ (by simp)⟩
  | atomOrG d a b z => exact ⟨Fits.atomOrG d a b z, decodeAssigned_encode_atomicG d a b z _ (by simp)⟩
  | atomXorG d a b z => exact ⟨Fits.atomXorG d a b z, decodeAssigned_encode_atomicG d a b z _ (by simp)⟩
  | atomExchG d a b z => exact ⟨Fits.atomExchG d a b z, decodeAssigned_encode_atomicG d a b z _ (by simp)⟩
  | atomCasG d a b z => exact ⟨Fits.atomCasG d a b z, decodeAssigned_encode_atomicG d a b z _ (by simp)⟩
  | atomFaddG d a b => exact ⟨Fits.atomFaddG d a b, decodeAssigned_encode_atomicG d a b 0 _ (by simp)⟩
  | atomFmaxG d a b => exact ⟨Fits.atomFmaxG d a b, decodeAssigned_encode_atomicG d a b 0 _ (by simp)⟩
  | atomFminG d a b => exact ⟨Fits.atomFminG d a b, decodeAssigned_encode_atomicG d a b 0 _ (by simp)⟩
  | faddF32 d a b r => exact ⟨Fits.faddF32 d a b r, decodeAssigned_encode_fp32 d a b r _ (by simp)⟩
  | fsubF32 d a b r => exact ⟨Fits.fsubF32 d a b r, decodeAssigned_encode_fp32 d a b r _ (by simp)⟩
  | fmulF32 d a b r => exact ⟨Fits.fmulF32 d a b r, decodeAssigned_encode_fp32 d a b r _ (by simp)⟩
  | ffmaF32 d a b r => exact ⟨Fits.ffmaF32 d a b r, decodeAssigned_encode_fp32 d a b r _ (by simp)⟩
  | fminF32 d a b => exact ⟨Fits.fminF32 d a b, decodeAssigned_encode_fp32 d a b 0 _ (by simp)⟩
  | fmaxF32 d a b => exact ⟨Fits.fmaxF32 d a b, decodeAssigned_encode_fp32 d a b 0 _ (by simp)⟩
  | fcmpF32 a b => exact ⟨Fits.fcmpF32 a b, decodeAssigned_encode_fp32 0 a b 0 _ (by simp)⟩
  | cvtF32S32 d a r => exact ⟨Fits.cvtF32S32 d a r, decodeAssigned_encode_fp32 d a 0 r _ (by simp)⟩
  | cvtS32F32 d a r => exact ⟨Fits.cvtS32F32 d a r, decodeAssigned_encode_fp32 d a 0 r _ (by simp)⟩
  | lrun l => exact ⟨Fits.lrun l, decodeAssigned_encode_laneControl 0 0 0 0 l _ (by simp)⟩
  | lrunr a => exact ⟨Fits.lrunr a, decodeAssigned_encode_laneControl 0 a 0 0 0 _ (by simp)⟩
  | lsync => exact ⟨Fits.lsync, decodeAssigned_encode_laneControl 0 0 0 0 0 _ (by simp)⟩
  | lqcnt d => exact ⟨Fits.lqcnt d, decodeAssigned_encode_laneControl d 0 0 0 0 _ (by simp)⟩
  | wait k n => exact ⟨Fits.wait k n, decodeAssigned_encode_laneControl 0 0 n k 0 _ (by simp)⟩
  | tkrd d k => exact ⟨Fits.tkrd d k, decodeAssigned_encode_laneControl d 0 0 k 0 _ (by simp)⟩
  | fmtset a => exact ⟨Fits.fmtset a, decodeAssigned_encode_format 0 a 0 _ (by simp)⟩
  | fmtget d => exact ⟨Fits.fmtget d, decodeAssigned_encode_format d 0 0 _ (by simp)⟩
  | srseed a b => exact ⟨Fits.srseed a b, decodeAssigned_encode_format 0 a b _ (by simp)⟩
  | mand d a b => exact ⟨Fits.mand d a b, decodeAssigned_encode_mask d a b _ (by simp)⟩
  | mor d a b => exact ⟨Fits.mor d a b, decodeAssigned_encode_mask d a b _ (by simp)⟩
  | mxor d a b => exact ⟨Fits.mxor d a b, decodeAssigned_encode_mask d a b _ (by simp)⟩
  | mnot d a => exact ⟨Fits.mnot d a, decodeAssigned_encode_mask d a 0 _ (by simp)⟩
  | mcount d a => exact ⟨Fits.mcount d a, decodeAssigned_encode_mask d a 0 _ (by simp)⟩
  | mfirst d a => exact ⟨Fits.mfirst d a, decodeAssigned_encode_mask d a 0 _ (by simp)⟩
  | mtest a => exact ⟨Fits.mtest a, decodeAssigned_encode_mask 0 a 0 _ (by simp)⟩
  | mset d a b => exact ⟨Fits.mset d a b, decodeAssigned_encode_mask d a b _ (by simp)⟩
  | qset a b f => exact ⟨Fits.qset a b f, decodeAssigned_encode_slot 0 a b f _ (by simp)⟩
  | qget d b f => exact ⟨Fits.qget d b f, decodeAssigned_encode_slot d 0 b f _ (by simp)⟩
  | bar d n => exact ⟨Fits.bar d n, decodeAssigned_encode_sync d 0 0 n 0 0 _ (by simp)⟩
  | barGang d n => exact ⟨Fits.barGang d n, decodeAssigned_encode_sync d 0 0 n 0 0 _ (by simp)⟩
  | stexp a b => exact ⟨Fits.stexp a b, decodeAssigned_encode_sync 0 a b 0 0 0 _ (by simp)⟩
  | starr a s => exact ⟨Fits.starr a s, decodeAssigned_encode_sync 0 a 0 0 s 0 _ (by simp)⟩
  | sttest d a b s => exact ⟨Fits.sttest d a b s, decodeAssigned_encode_sync d a b 0 s 0 _ (by simp)⟩
  | stwait d a b s => exact ⟨Fits.stwait d a b s, decodeAssigned_encode_sync d a b 0 s 0 _ (by simp)⟩
  | yield d a b => exact ⟨Fits.yield d a b, decodeAssigned_encode_sync d a b 0 0 0 _ (by simp)⟩
  | mwait d a b => exact ⟨Fits.mwait d a b, decodeAssigned_encode_sync d a b 0 0 0 _ (by simp)⟩
  | fence s c => exact ⟨Fits.fence s c, decodeAssigned_encode_sync 0 0 0 0 s c _ (by simp)⟩
  | sub d a b => exact ⟨Fits.sub d a b, decodeAssigned_encode_system d a b 0 _ (by simp)⟩
  | unsub d a => exact ⟨Fits.unsub d a, decodeAssigned_encode_system d a 0 0 _ (by simp)⟩
  | subflush d a => exact ⟨Fits.subflush d a, decodeAssigned_encode_system d a 0 0 _ (by simp)⟩
  | launch d a => exact ⟨Fits.launch d a, decodeAssigned_encode_system d a 0 0 _ (by simp)⟩
  | cget d r => exact ⟨Fits.cget d r, decodeAssigned_encode_system d 0 0 r _ (by simp)⟩
  | cset a r => exact ⟨Fits.cset a r, decodeAssigned_encode_system 0 a 0 r _ (by simp)⟩
  | tlbw d a b => exact ⟨Fits.tlbw d a b, decodeAssigned_encode_system d a b 0 _ (by simp)⟩
  | tlbi a => exact ⟨Fits.tlbi a, decodeAssigned_encode_system 0 a 0 0 _ (by simp)⟩
  | tlbrW0 d a => exact ⟨Fits.tlbrW0 d a, decodeAssigned_encode_system d a 0 0 _ (by simp)⟩
  | tlbrW1 d a => exact ⟨Fits.tlbrW1 d a, decodeAssigned_encode_system d a 0 0 _ (by simp)⟩
  | nop => exact ⟨Fits.nop, decodeAssigned_encode_control 0 0 0 _ (by simp)⟩
  | halt => exact ⟨Fits.halt, decodeAssigned_encode_control 0 0 0 _ (by simp)⟩
  | eret => exact ⟨Fits.eret, decodeAssigned_encode_control 0 0 0 _ (by simp)⟩
  | brk => exact ⟨Fits.brk, decodeAssigned_encode_control 0 0 0 _ (by simp)⟩
  | trap a b => exact ⟨Fits.trap a b, decodeAssigned_encode_control a b 0 _ (by simp)⟩
  | mark a => exact ⟨Fits.mark a, decodeAssigned_encode_control a 0 0 _ (by simp)⟩
  | ext l => exact ⟨Fits.ext l, decodeAssigned_encode_control 0 0 l _ (by simp)⟩
  | unassignedScalarWord w => exact absurd rfl (hu w)
  | _ => cases hn

/-- A well-formed scalar instruction, the unassigned word included, is read back from its word. -/
theorem decodeScalar_encode {i : Instr} (hwf : i.wf = true) (hn : i.nbits = 32) :
    encode i < 2 ^ 32 ∧ decodeScalar (encode i) = i := by
  by_cases hu : ∃ w, i = .unassignedScalarWord w
  · obtain ⟨w, rfl⟩ := hu
    have hnone : decodeAssigned w.toNat = none := Option.isNone_iff_eq_none.mp hwf
    have hword : bfld w.toNat 0 32 = w := by rw [bfld, fld_all w.isLt, BitVec.ofNat_toNat, BitVec.setWidth_eq]
    refine ⟨w.isLt, ?_⟩
    rw [decodeScalar, encode, hnone, hword, Option.getD_none]
  · obtain ⟨hlt, hdec⟩ := decodeAssigned_encode hn fun w h => hu ⟨w, h⟩
    exact ⟨hlt, by rw [decodeScalar, hdec, Option.getD_some]⟩

end Sys2Proof.Laws
end

section
/-!
Every scalar word is the word of what it decodes to (R141 to R151).
-/

namespace Sys2Proof

/-- What the decoder answers for `w`, if anything, is an instruction whose word is `w`. -/
def WordOf (w : Nat) (o : Option Instr) : Prop := ∀ i, o = some i → encode i = w

end Sys2Proof

namespace Sys2Proof.Laws

open Sys2Proof

variable {w : Nat} {i : Instr} {o : Option Instr}

/-! ### The rows of an opcode map -/

theorem wordOf_none : WordOf w none := fun _ h => by cases h

theorem wordOf_some (h : encode i = w) : WordOf w (some i) := fun _ hj => by cases hj; exact h

theorem wordOf_ite {c : Prop} [Decidable c] {a b : Option Instr} (hb : WordOf w b) (ha : c → WordOf w a) :
    WordOf w (if c then a else b) := by
  split
  · next h => exact ha h
  · exact hb

/-- A row of a map, above the rows that are read when its condition fails. -/
theorem wordOf_row {c : Prop} [Decidable c] (ho : WordOf w o) (h : c → encode i = w) : WordOf w (if c then some i else o) :=
  wordOf_ite ho fun hc => wordOf_some (h hc)

/-! ### The formats of R141 -/

theorem word_formatL (hw : w < 2 ^ 32) : w = fld w 26 6 * 2 ^ 26 + fld w 0 26 := by
  rw [← fld_split w 0 26 6, fld_all hw]

theorem word_formatB (hw : w < 2 ^ 32) : w = fld w 26 6 * 2 ^ 26 + fld w 22 4 * 2 ^ 22 + fld w 0 22 := by
  rw [Nat.add_assoc, ← fld_split w 0 22 4, ← word_formatL hw]

theorem word_formatI (hw : w < 2 ^ 32) :
    w = fld w 26 6 * 2 ^ 26 + fld w 20 6 * 2 ^ 20 + fld w 14 6 * 2 ^ 14 + fld w 0 14 := by
  rw [Nat.add_assoc, ← fld_split w 0 14 6, Nat.add_assoc, ← fld_split w 0 20 6, ← word_formatL hw]

theorem word_formatS (hw : w < 2 ^ 32) :
    w = fld w 26 6 * 2 ^ 26 + fld w 20 6 * 2 ^ 20 + fld w 14 6 * 2 ^ 14 + fld w 8 6 * 2 ^ 8 + fld w 0 8 := by
  rw [Nat.add_assoc, ← fld_split w 0 8 6, ← word_formatI hw]

/-! ### The opcodes of R147

In each row the fields that the row fixes and the operands that it takes add up to the word. -/

theorem wordOf_op00 (hw : w < 2 ^ 32) (hop : fld w 26 6 = 0x00) : WordOf w (decodeOp00 w) := by
  have := word_formatS hw
  have : fld w 0 14 = fld w 8 6 * 2 ^ 8 + fld w 0 8 := fld_split w 0 8 6
  have : fld w 0 8 = fld w 4 4 * 2 ^ 4 + fld w 0 4 := fld_split w 0 4 4
  unfold decodeOp00
  iterate 24 refine wordOf_row ?_ fun h => ?_
  · exact wordOf_none
  all_goals
    simp only [encode, put_bfld]
    omega

/-- The I-format instructions that an `ext` can widen, but for `cmpi`. -/
theorem wordOf_immediate (hw : w < 2 ^ 32) :
    ∀ x ∈ ([(0x01, decodeOp01), (0x02, decodeOp02), (0x03, decodeOp03), (0x04, decodeOp04), (0x05, decodeOp05)]
      : List (Nat × (Nat → Option Instr))), fld w 26 6 = x.1 → WordOf w (x.2 w) := by
  have := word_formatI hw
  intro x hx hop
  fin_cases hx
  all_goals
    refine wordOf_some ?_
    simp only [encode, put_bfld] at hop ⊢
    omega

/-- The shifts by an immediate. -/
theorem wordOf_shiftImmediate (hw : w < 2 ^ 32) :
    ∀ x ∈ ([(0x06, decodeOp06), (0x07, decodeOp07), (0x08, decodeOp08)]
      : List (Nat × (Nat → Option Instr))), fld w 26 6 = x.1 → WordOf w (x.2 w) := by
  have := word_formatI hw
  have : fld w 0 14 = fld w 6 8 * 2 ^ 6 + fld w 0 6 := fld_split w 0 6 8
  intro x hx hop
  fin_cases hx
  all_goals
    refine wordOf_row wordOf_none fun h => ?_
    simp only [encode, put_bfld] at hop ⊢
    omega

theorem wordOf_op09 (hw : w < 2 ^ 32) (hop : fld w 26 6 = 0x09) : WordOf w (decodeOp09 w) := by
  have := word_formatI hw
  unfold decodeOp09
  refine wordOf_row wordOf_none fun h => ?_
  simp only [encode, put_bfld]
  omega

theorem wordOf_op10 (hw : w < 2 ^ 32) (hop : fld w 26 6 = 0x10) : WordOf w (decodeOp10 w) := by
  have := word_formatB hw
  unfold decodeOp10
  refine wordOf_some ?_
  simp only [encode, put_bfld]
  omega

theorem wordOf_op11 (hw : w < 2 ^ 32) (hop : fld w 26 6 = 0x11) : WordOf w (decodeOp11 w) := by
  have := word_formatB hw
  unfold decodeOp11
  refine wordOf_row wordOf_none fun h => ?_
  simp only [encode, put_bfld]
  omega

theorem wordOf_op12 (hw : w < 2 ^ 32) (hop : fld w 26 6 = 0x12) : WordOf w (decodeOp12 w) := by
  have := word_formatI hw
  have := word_formatL hw
  unfold decodeOp12
  iterate 3 refine wordOf_row ?_ fun h => ?_
  · exact wordOf_none
  all_goals
    simp only [encode, put_bfld]
    omega

theorem wordOf_op13 (hw : w < 2 ^ 32) (hop : fld w 26 6 = 0x13) : WordOf w (decodeOp13 w) := by
  have := word_formatI hw
  unfold decodeOp13
  refine wordOf_row wordOf_none fun h => ?_
  simp only [encode, put_bfld]
  omega

/-- Scalar loads and stores. -/
theorem wordOf_access (hw : w < 2 ^ 32) :
    ∀ x ∈ ([(0x14, decodeOp14), (0x15, decodeOp15), (0x16, decodeOp16), (0x17, decodeOp17)]
      : List (Nat × (Nat → Option Instr))), fld w 26 6 = x.1 → WordOf w (x.2 w) := by
  have := word_formatS hw
  have : fld w 0 8 = fld w 4 4 * 2 ^ 4 + fld w 0 4 := fld_split w 0 4 4
  have : fld w 0 4 = fld w 2 2 * 2 ^ 2 + fld w 0 2 := fld_split w 0 2 2
  intro x hx hop
  fin_cases hx
  all_goals
    refine wordOf_some ?_
    simp only [encode, put_bfld] at hop ⊢
    omega

/-- Scalar atomics. -/
theorem wordOf_atomic (hw : w < 2 ^ 32) :
    ∀ x ∈ ([(0x18, decodeOp18), (0x19, decodeOp19)]
      : List (Nat × (Nat → Option Instr))), fld w 26 6 = x.1 → WordOf w (x.2 w) := by
  have := word_formatS hw
  have : fld w 0 8 = fld w 4 4 * 2 ^ 4 + fld w 0 4 := fld_split w 0 4 4
  have : fld w 0 4 = fld w 3 1 * 2 ^ 3 + fld w 0 3 := fld_split w 0 3 1
  intro x hx hop
  fin_cases hx
  all_goals
    iterate 13 refine wordOf_row ?_ fun h => ?_
    · exact wordOf_none
    all_goals
      simp only [encode, put_bfld] at hop ⊢
      omega

theorem wordOf_op1C (hw : w < 2 ^ 32) (hop : fld w 26 6 = 0x1C) : WordOf w (decodeOp1C w) := by
  have := word_formatS hw
  have := word_formatI hw
  have : fld w 0 8 = fld w 3 5 * 2 ^ 3 + fld w 0 3 := fld_split w 0 3 5
  have : fld w 0 14 = fld w 3 11 * 2 ^ 3 + fld w 0 3 := fld_split w 0 3 11
  unfold decodeOp1C
  iterate 9 refine wordOf_row ?_ fun h => ?_
  · exact wordOf_none
  all_goals
    simp only [encode, put_bfld]
    omega

theorem wordOf_op20 (hw : w < 2 ^ 32) (hop : fld w 26 6 = 0x20) : WordOf w (decodeOp20 w) := by
  have := word_formatL hw
  unfold decodeOp20
  refine wordOf_some ?_
  simp only [encode, put_bfld]
  omega

theorem wordOf_op21 (hw : w < 2 ^ 32) (hop : fld w 26 6 = 0x21) : WordOf w (decodeOp21 w) := by
  have := word_formatI hw
  have := word_formatL hw
  have : fld w 0 26 = fld w 20 6 * 2 ^ 20 + fld w 0 20 := fld_split w 0 20 6
  unfold decodeOp21
  iterate 3 refine wordOf_row ?_ fun h => ?_
  · exact wordOf_none
  all_goals
    simp only [encode, put_bfld]
    omega

theorem wordOf_op22 (hw : w < 2 ^ 32) (hop : fld w 26 6 = 0x22) : WordOf w (decodeOp22 w) := by
  have := word_formatL hw
  have : fld w 0 26 = fld w 20 6 * 2 ^ 20 + fld w 0 20 := fld_split w 0 20 6
  have : fld w 20 6 = fld w 24 2 * 2 ^ 4 + fld w 20 4 := fld_split w 20 4 2
  have : fld w 0 20 = fld w 6 14 * 2 ^ 6 + fld w 0 6 := fld_split w 0 6 14
  unfold decodeOp22
  refine wordOf_row wordOf_none fun h => ?_
  simp only [encode, put_bfld]
  omega

theorem wordOf_op23 (hw : w < 2 ^ 32) (hop : fld w 26 6 = 0x23) : WordOf w (decodeOp23 w) := by
  have := word_formatL hw
  have : fld w 0 26 = fld w 20 6 * 2 ^ 20 + fld w 0 20 := fld_split w 0 20 6
  have : fld w 0 20 = fld w 4 16 * 2 ^ 4 + fld w 0 4 := fld_split w 0 4 16
  unfold decodeOp23
  refine wordOf_row wordOf_none fun h => ?_
  simp only [encode, put_bfld]
  omega

theorem wordOf_op24 (hw : w < 2 ^ 32) (hop : fld w 26 6 = 0x24) : WordOf w (decodeOp24 w) := by
  have := word_formatS hw
  have := word_formatI hw
  have := word_formatL hw
  have : fld w 0 26 = fld w 20 6 * 2 ^ 20 + fld w 0 20 := fld_split w 0 20 6
  unfold decodeOp24
  iterate 3 refine wordOf_row ?_ fun h => ?_
  · exact wordOf_none
  all_goals
    simp only [encode, put_bfld]
    omega

theorem wordOf_op25 (hw : w < 2 ^ 32) (hop : fld w 26 6 = 0x25) : WordOf w (decodeOp25 w) := by
  have := word_formatS hw
  have : fld w 0 14 = fld w 8 6 * 2 ^ 8 + fld w 0 8 := fld_split w 0 8 6
  unfold decodeOp25
  iterate 8 refine wordOf_row ?_ fun h => ?_
  · exact wordOf_none
  all_goals
    simp only [encode, put_bfld]
    omega

theorem wordOf_op26 (hw : w < 2 ^ 32) (hop : fld w 26 6 = 0x26) : WordOf w (decodeOp26 w) := by
  have := word_formatS hw
  have : fld w 0 8 = fld w 4 4 * 2 ^ 4 + fld w 0 4 := fld_split w 0 4 4
  unfold decodeOp26
  iterate 2 refine wordOf_row ?_ fun h => ?_
  · exact wordOf_none
  all_goals
    simp only [encode, put_bfld]
    omega

theorem wordOf_op27 (hw : w < 2 ^ 32) (hop : fld w 26 6 = 0x27) : WordOf w (decodeOp27 w) := by
  have := word_formatL hw
  have : fld w 0 26 = fld w 20 6 * 2 ^ 20 + fld w 0 20 := fld_split w 0 20 6
  have : fld w 0 20 = fld w 4 16 * 2 ^ 4 + fld w 0 4 := fld_split w 0 4 16
  unfold decodeOp27
  iterate 2 refine wordOf_row ?_ fun h => ?_
  · exact wordOf_none
  all_goals
    simp only [encode, put_bfld]
    omega

theorem wordOf_op28 (hw : w < 2 ^ 32) (hop : fld w 26 6 = 0x28) : WordOf w (decodeOp28 w) := by
  have := word_formatS hw
  have : fld w 0 8 = fld w 4 4 * 2 ^ 4 + fld w 0 4 := fld_split w 0 4 4
  unfold decodeOp28
  iterate 4 refine wordOf_row ?_ fun h => ?_
  · exact wordOf_none
  all_goals
    simp only [encode, put_bfld]
    omega

theorem wordOf_op29 (hw : w < 2 ^ 32) (hop : fld w 26 6 = 0x29) : WordOf w (decodeOp29 w) := by
  have := word_formatS hw
  unfold decodeOp29
  iterate 2 refine wordOf_row ?_ fun h => ?_
  · exact wordOf_none
  all_goals
    simp only [encode, put_bfld]
    omega

theorem wordOf_op2A (hw : w < 2 ^ 32) (hop : fld w 26 6 = 0x2A) : WordOf w (decodeOp2A w) := by
  have := word_formatL hw
  have : fld w 0 26 = fld w 8 18 * 2 ^ 8 + fld w 0 8 := fld_split w 0 8 18
  have : fld w 0 8 = fld w 4 4 * 2 ^ 4 + fld w 0 4 := fld_split w 0 4 4
  have : fld w 0 4 = fld w 2 2 * 2 ^ 2 + fld w 0 2 := fld_split w 0 2 2
  unfold decodeOp2A
  refine wordOf_row wordOf_none fun h => ?_
  simp only [encode, put_bfld]
  omega

theorem wordOf_op2B (hw : w < 2 ^ 32) (hop : fld w 26 6 = 0x2B) : WordOf w (decodeOp2B w) := by
  have := word_formatS hw
  have : fld w 0 14 = fld w 8 6 * 2 ^ 8 + fld w 0 8 := fld_split w 0 8 6
  unfold decodeOp2B
  iterate 3 refine wordOf_row ?_ fun h => ?_
  · exact wordOf_none
  all_goals
    simp only [encode, put_bfld]
    omega

theorem wordOf_op2C (hw : w < 2 ^ 32) (hop : fld w 26 6 = 0x2C) : WordOf w (decodeOp2C w) := by
  have := word_formatI hw
  unfold decodeOp2C
  refine wordOf_row wordOf_none fun h => ?_
  simp only [encode, put_bfld]
  omega

theorem wordOf_op2D (hw : w < 2 ^ 32) (hop : fld w 26 6 = 0x2D) : WordOf w (decodeOp2D w) := by
  have := word_formatS hw
  unfold decodeOp2D
  iterate 2 refine wordOf_row ?_ fun h => ?_
  · exact wordOf_none
  all_goals
    simp only [encode, put_bfld]
    omega

theorem wordOf_op2E (hw : w < 2 ^ 32) (hop : fld w 26 6 = 0x2E) : WordOf w (decodeOp2E w) := by
  have := word_formatS hw
  have : fld w 0 14 = fld w 8 6 * 2 ^ 8 + fld w 0 8 := fld_split w 0 8 6
  unfold decodeOp2E
  iterate 4 refine wordOf_row ?_ fun h => ?_
  · exact wordOf_none
  all_goals
    simp only [encode, put_bfld]
    omega

theorem wordOf_op2F (hw : w < 2 ^ 32) (hop : fld w 26 6 = 0x2F) : WordOf w (decodeOp2F w) := by
  have := word_formatS hw
  have := word_formatI hw
  have := word_formatL hw
  unfold decodeOp2F
  iterate 6 refine wordOf_row ?_ fun h => ?_
  · exact wordOf_none
  all_goals
    simp only [encode, put_bfld]
    omega

theorem wordOf_op3F (hw : w < 2 ^ 32) (hop : fld w 26 6 = 0x3F) : WordOf w (decodeOp3F w) := by
  have := word_formatL hw
  unfold decodeOp3F
  refine wordOf_some ?_
  simp only [encode, put_bfld]
  omega

/-- A word that R147 assigns is the word of its instruction. -/
theorem wordOf_decodeAssigned (hw : w < 2 ^ 32) : WordOf w (decodeAssigned w) := by
  unfold decodeAssigned
  refine wordOf_ite ?_ (wordOf_op00 hw)
  refine wordOf_ite ?_ (wordOf_immediate hw (0x01, decodeOp01) (by simp))
  refine wordOf_ite ?_ (wordOf_immediate hw (0x02, decodeOp02) (by simp))
  refine wordOf_ite ?_ (wordOf_immediate hw (0x03, decodeOp03) (by simp))
  refine wordOf_ite ?_ (wordOf_immediate hw (0x04, decodeOp04) (by simp))
  refine wordOf_ite ?_ (wordOf_immediate hw (0x05, decodeOp05) (by simp))
  refine wordOf_ite ?_ (wordOf_shiftImmediate hw (0x06, decodeOp06) (by simp))
  refine wordOf_ite ?_ (wordOf_shiftImmediate hw (0x07, decodeOp07) (by simp))
  refine wordOf_ite ?_ (wordOf_shiftImmediate hw (0x08, decodeOp08) (by simp))
  refine wordOf_ite ?_ (wordOf_op09 hw)
  refine wordOf_ite ?_ (wordOf_op10 hw)
  refine wordOf_ite ?_ (wordOf_op11 hw)
  refine wordOf_ite ?_ (wordOf_op12 hw)
  refine wordOf_ite ?_ (wordOf_op13 hw)
  refine wordOf_ite ?_ (wordOf_access hw (0x14, decodeOp14) (by simp))
  refine wordOf_ite ?_ (wordOf_access hw (0x15, decodeOp15) (by simp))
  refine wordOf_ite ?_ (wordOf_access hw (0x16, decodeOp16) (by simp))
  refine wordOf_ite ?_ (wordOf_access hw (0x17, decodeOp17) (by simp))
  refine wordOf_ite ?_ (wordOf_atomic hw (0x18, decodeOp18) (by simp))
  refine wordOf_ite ?_ (wordOf_atomic hw (0x19, decodeOp19) (by simp))
  refine wordOf_ite ?_ (wordOf_op1C hw)
  refine wordOf_ite ?_ (wordOf_op20 hw)
  refine wordOf_ite ?_ (wordOf_op21 hw)
  refine wordOf_ite ?_ (wordOf_op22 hw)
  refine wordOf_ite ?_ (wordOf_op23 hw)
  refine wordOf_ite ?_ (wordOf_op24 hw)
  refine wordOf_ite ?_ (wordOf_op25 hw)
  refine wordOf_ite ?_ (wordOf_op26 hw)
  refine wordOf_ite ?_ (wordOf_op27 hw)
  refine wordOf_ite ?_ (wordOf_op28 hw)
  refine wordOf_ite ?_ (wordOf_op29 hw)
  refine wordOf_ite ?_ (wordOf_op2A hw)
  refine wordOf_ite ?_ (wordOf_op2B hw)
  refine wordOf_ite ?_ (wordOf_op2C hw)
  refine wordOf_ite ?_ (wordOf_op2D hw)
  refine wordOf_ite ?_ (wordOf_op2E hw)
  refine wordOf_ite ?_ (wordOf_op2F hw)
  refine wordOf_ite ?_ (wordOf_op3F hw)
  exact wordOf_none

/-- Every scalar word is the word of what it decodes to. -/
theorem encode_decodeScalar (hw : w < 2 ^ 32) : encode (decodeScalar w) = w := by
  rw [decodeScalar]
  cases h : decodeAssigned w with
  | none =>
    rw [Option.getD_none, encode, bfld, BitVec.toNat_ofNat, fld_all hw, Nat.mod_eq_of_lt hw]
  | some i => exact wordOf_decodeAssigned hw i h

end Sys2Proof.Laws
end

section
/-!
The encodings of the lane words (R152 to R163).
-/

namespace Sys2Proof

/-- The lane words of the classes that hold one instruction (R159); class 0xF holds pairs. -/
def decodeSingle (cls op : Nat) (f : LaneFields) : Except LaneReject Instr :=
  if cls = 0x0 then decodeClass0 op f
  else if cls = 0x1 then decodeClass1 op f
  else if cls = 0x2 then decodeClass2 op f
  else if cls = 0x3 then decodeClass3 op f
  else if cls = 0x4 then decodeClass4 op f
  else if cls = 0x5 then decodeClass5 op f
  else if cls = 0x6 then decodeClass6 op f
  else if cls = 0x7 then decodeClass7 op f
  else if cls = 0x8 then decodeClass8 op f
  else if cls = 0x9 then decodeClass9 op f
  else if cls = 0xA then decodeClassA op f
  else if cls = 0xE then .error .headerClass
  else .error .unassignedClass

/-- What a class answers, if anything, is the instruction of that class, operation and fields. -/
def LaneRow (cls op : Nat) (f : LaneFields) (r : Except LaneReject Instr) : Prop :=
  ∀ i, r = .ok i → encode i = encodeLane cls op f ∧ i.nbits = 96

end Sys2Proof

namespace Sys2Proof.Laws

open Sys2Proof Sys2Proof.Machine

/-! ### The fields of lane words and of their halves -/

/-- CLASS, OP and the other fields of a lane word (R152) are where the encoder put them. -/
theorem fields_encodeLane (cls : BitVec 4) (op : BitVec 8) (f : LaneFields) :
    fld (encodeLane cls.toNat op.toNat f) 92 4 = cls.toNat ∧ fld (encodeLane cls.toNat op.toNat f) 84 8 = op.toNat
      ∧ laneFields (encodeLane cls.toNat op.toNat f) = f := by
  have hput : ∀ {n : Nat} (x : BitVec n) (lo : Nat), x.toNat * 2 ^ lo = put x lo := fun _ _ => rfl
  rw [encodeLane, hput cls, hput op]
  simp [laneFields, bfld]

/-- A lane word is made up of its fields. -/
theorem encodeLane_laneFields {w : Nat} (hw : w < 2 ^ 96) : encodeLane (fld w 92 4) (fld w 84 8) (laneFields w) = w := by
  have hall : fld w 92 4 * 2 ^ 92 + fld w 0 92 = w := (fld_split w 0 92 4).symm.trans (fld_all hw)
  simp only [encodeLane, laneFields, put_bfld, Nat.pow_zero, Nat.mul_one]
  rw [Nat.add_assoc, ← fld_split w 0 32 6, Nat.add_assoc, ← fld_split w 0 38 1, Nat.add_assoc, ← fld_split w 0 39 5,
    Nat.add_assoc, ← fld_split w 0 44 4, Nat.add_assoc, ← fld_split w 0 48 8, Nat.add_assoc, ← fld_split w 0 56 8,
    Nat.add_assoc, ← fld_split w 0 64 8, Nat.add_assoc, ← fld_split w 0 72 1, Nat.add_assoc, ← fld_split w 0 73 4,
    Nat.add_assoc, ← fld_split w 0 77 3, Nat.add_assoc, ← fld_split w 0 80 4, Nat.add_assoc, ← fld_split w 0 84 8, hall]

/-- The fields of a half (R162) are where the encoder put them. -/
theorem pairHalf_encodeHalf (h : PairHalf) : pairHalf (encodeHalf h) 0 = h := by
  simp [pairHalf, encodeHalf, bfld]

/-- The half at a place is the half that stands there alone. -/
theorem pairHalf_eq_of_fld (w lo : Nat) : pairHalf w lo = pairHalf (fld w lo 46) 0 := by
  simp [pairHalf, bfld, fld_fld]

/-- A half of a pair word is made up of its fields. -/
theorem encodeHalf_pairHalf (w lo : Nat) : encodeHalf (pairHalf w lo) = fld w lo 46 := by
  rw [pairHalf_eq_of_fld]
  have hall : fld (fld w lo 46) 0 46 = fld w lo 46 := fld_fld w lo (Nat.le_refl 46)
  generalize fld w lo 46 = v at hall
  simp only [encodeHalf, pairHalf, Nat.zero_add, put_bfld, Nat.pow_zero, Nat.mul_one]
  rw [Nat.add_assoc, ← fld_split v 0 3 4, Nat.add_assoc, ← fld_split v 0 7 8, Nat.add_assoc, ← fld_split v 0 15 8,
    Nat.add_assoc, ← fld_split v 0 23 8, Nat.add_assoc, ← fld_split v 0 31 3, Nat.add_assoc, ← fld_split v 0 34 2,
    Nat.add_assoc, ← fld_split v 0 36 4, ← fld_split v 0 40 6, hall]

/-! ### The word of a lane instruction decodes to it -/

theorem decodeLane_eq (w : Nat) : decodeLane w =
    if fld w 92 4 = 0xF then .ok (.pairWord (pairHalf w 46) (pairHalf w 0))
    else decodeSingle (fld w 92 4) (fld w 84 8) (laneFields w) := by
  by_cases h : fld w 92 4 = 0xF
  · simp [decodeLane, h]
  · simp [decodeLane, decodeSingle, h]

theorem decodeLane_encodeLane (cls : BitVec 4) (op : BitVec 8) (f : LaneFields) (h : cls ≠ 0xF#4) :
    decodeLane (encodeLane cls.toNat op.toNat f) = decodeSingle cls.toNat op.toNat f := by
  obtain ⟨hcls, hop, hf⟩ := fields_encodeLane cls op f
  rw [decodeLane_eq, hcls, hop, hf, if_neg]
  exact fun hn => h (BitVec.eq_of_toNat_eq hn)

theorem decodeLane_pairWord (x y : PairHalf) : decodeLane (encode (.pairWord x y)) = .ok (.pairWord x y) := by
  have hput : encode (.pairWord x y)
      = put 0xF#4 92 + put (BitVec.ofNat 46 (encodeHalf x)) 46 + put (BitVec.ofNat 46 (encodeHalf y)) 0 := by
    simp only [encode, put, BitVec.toNat_ofNat, Nat.mod_eq_of_lt (encodeHalf_lt _), Nat.pow_zero, Nat.mul_one]
  have hx : fld (encode (.pairWord x y)) 46 46 = encodeHalf x := by
    rw [hput]
    simpa using encodeHalf_lt x
  have hy : fld (encode (.pairWord x y)) 0 46 = encodeHalf y := by
    rw [hput]
    simpa using encodeHalf_lt y
  have hcls : fld (encode (.pairWord x y)) 92 4 = 0xF := by
    rw [hput]
    simp
  rw [decodeLane_eq, if_pos hcls, pairHalf_eq_of_fld _ 46, pairHalf_eq_of_fld (encode _) 0, hx, hy, pairHalf_encodeHalf,
    pairHalf_encodeHalf]

/-- Every lane instruction is read back from its word. -/
theorem decodeLane_encode {i : Instr} (hn : i.nbits = 96) : decodeLane (encode i) = .ok i := by
  cases i with
  | laneIadd f => exact decodeLane_encodeLane 0x0 0x00 f (by decide)
  | laneIsub f => exact decodeLane_encodeLane 0x0 0x01 f (by decide)
  | laneImul f => exact decodeLane_encodeLane 0x0 0x02 f (by decide)
  | laneImulhi f => exact decodeLane_encodeLane 0x0 0x03 f (by decide)
  | laneImad f => exact decodeLane_encodeLane 0x0 0x04 f (by decide)
  | laneIdiv f => exact decodeLane_encodeLane 0x0 0x05 f (by decide)
  | laneIrem f => exact decodeLane_encodeLane 0x0 0x06 f (by decide)
  | laneImin f => exact decodeLane_encodeLane 0x0 0x07 f (by decide)
  | laneImax f => exact decodeLane_encodeLane 0x0 0x08 f (by decide)
  | laneIabs f => exact decodeLane_encodeLane 0x0 0x09 f (by decide)
  | laneIneg f => exact decodeLane_encodeLane 0x0 0x0A f (by decide)
  | laneMov f => exact decodeLane_encodeLane 0x0 0x0B f (by decide)
  | laneLfn3 f => exact decodeLane_encodeLane 0x1 0x00 f (by decide)
  | laneIshl f => exact decodeLane_encodeLane 0x1 0x01 f (by decide)
  | laneIshr f => exact decodeLane_encodeLane 0x1 0x02 f (by decide)
  | laneIsar f => exact decodeLane_encodeLane 0x1 0x03 f (by decide)
  | laneIrot f => exact decodeLane_encodeLane 0x1 0x04 f (by decide)
  | laneBfext f => exact decodeLane_encodeLane 0x1 0x05 f (by decide)
  | laneBfins f => exact decodeLane_encodeLane 0x1 0x06 f (by decide)
  | laneBfrev f => exact decodeLane_encodeLane 0x1 0x07 f (by decide)
  | lanePopc f => exact decodeLane_encodeLane 0x1 0x08 f (by decide)
  | laneClz f => exact decodeLane_encodeLane 0x1 0x09 f (by decide)
  | laneCtz f => exact decodeLane_encodeLane 0x1 0x0A f (by decide)
  | laneIcmp f => exact decodeLane_encodeLane 0x2 0x00 f (by decide)
  | laneFcmp f => exact decodeLane_encodeLane 0x2 0x01 f (by decide)
  | laneSel f => exact decodeLane_encodeLane 0x2 0x02 f (by decide)
  | laneVote f => exact decodeLane_encodeLane 0x2 0x03 f (by decide)
  | laneFadd f => exact decodeLane_encodeLane 0x3 0x00 f (by decide)
  | laneFsub f => exact decodeLane_encodeLane 0x3 0x01 f (by decide)
  | laneFmul f => exact decodeLane_encodeLane 0x3 0x02 f (by decide)
  | laneFfma f => exact decodeLane_encodeLane 0x3 0x03 f (by decide)
  | laneFmin f => exact decodeLane_encodeLane 0x3 0x04 f (by decide)
  | laneFmax f => exact decodeLane_encodeLane 0x3 0x05 f (by decide)
  | laneFabs f => exact decodeLane_encodeLane 0x3 0x06 f (by decide)
  | laneFneg f => exact decodeLane_encodeLane 0x3 0x07 f (by decide)
  | laneFclass f => exact decodeLane_encodeLane 0x3 0x08 f (by decide)
  | laneFrcp f => exact decodeLane_encodeLane 0x4 0x00 f (by decide)
  | laneFrsq f => exact decodeLane_encodeLane 0x4 0x01 f (by decide)
  | laneFsqrt f => exact decodeLane_encodeLane 0x4 0x02 f (by decide)
  | laneFexp2 f => exact decodeLane_encodeLane 0x4 0x03 f (by decide)
  | laneFlog2 f => exact decodeLane_encodeLane 0x4 0x04 f (by decide)
  | laneFsin f => exact decodeLane_encodeLane 0x4 0x05 f (by decide)
  | laneFcos f => exact decodeLane_encodeLane 0x4 0x06 f (by decide)
  | laneFtanh f => exact decodeLane_encodeLane 0x4 0x07 f (by decide)
  | laneCvt f => exact decodeLane_encodeLane 0x5 0x00 f (by decide)
  | laneFrnd f => exact decodeLane_encodeLane 0x5 0x01 f (by decide)
  | laneBpack f => exact decodeLane_encodeLane 0x6 0x00 f (by decide)
  | laneBunpack f => exact decodeLane_encodeLane 0x6 0x01 f (by decide)
  | laneBscale f => exact decodeLane_encodeLane 0x6 0x02 f (by decide)
  | laneFpres f => exact decodeLane_encodeLane 0x6 0x03 f (by decide)
  | laneFdflt f => exact decodeLane_encodeLane 0x6 0x04 f (by decide)
  | laneHist f => exact decodeLane_encodeLane 0x6 0x05 f (by decide)
  | laneShfl f => exact decodeLane_encodeLane 0x7 0x00 f (by decide)
  | laneQuad f => exact decodeLane_encodeLane 0x7 0x01 f (by decide)
  | laneWred f => exact decodeLane_encodeLane 0x7 0x02 f (by decide)
  | laneTred f => exact decodeLane_encodeLane 0x7 0x03 f (by decide)
  | laneLd f => exact decodeLane_encodeLane 0x8 0x00 f (by decide)
  | laneSt f => exact decodeLane_encodeLane 0x8 0x01 f (by decide)
  | lanePref f => exact decodeLane_encodeLane 0x8 0x02 f (by decide)
  | laneAtomAdd f => exact decodeLane_encodeLane 0x9 0x00 f (by decide)
  | laneAtomMin f => exact decodeLane_encodeLane 0x9 0x01 f (by decide)
  | laneAtomMax f => exact decodeLane_encodeLane 0x9 0x02 f (by decide)
  | laneAtomAnd f => exact decodeLane_encodeLane 0x9 0x03 f (by decide)
  | laneAtomOr f => exact decodeLane_encodeLane 0x9 0x04 f (by decide)
  | laneAtomXor f => exact decodeLane_encodeLane 0x9 0x05 f (by decide)
  | laneAtomExch f => exact decodeLane_encodeLane 0x9 0x06 f (by decide)
  | laneAtomCas f => exact decodeLane_encodeLane 0x9 0x07 f (by decide)
  | laneAtomFadd f => exact decodeLane_encodeLane 0x9 0x08 f (by decide)
  | laneAtomFmax f => exact decodeLane_encodeLane 0x9 0x09 f (by decide)
  | laneAtomFmin f => exact decodeLane_encodeLane 0x9 0x0A f (by decide)
  | laneRedAdd f => exact decodeLane_encodeLane 0x9 0x10 f (by decide)
  | laneRedMin f => exact decodeLane_encodeLane 0x9 0x11 f (by decide)
  | laneRedMax f => exact decodeLane_encodeLane 0x9 0x12 f (by decide)
  | laneRedAnd f => exact decodeLane_encodeLane 0x9 0x13 f (by decide)
  | laneRedOr f => exact decodeLane_encodeLane 0x9 0x14 f (by decide)
  | laneRedXor f => exact decodeLane_encodeLane 0x9 0x15 f (by decide)
  | laneRedFadd f => exact decodeLane_encodeLane 0x9 0x18 f (by decide)
  | laneRedFmax f => exact decodeLane_encodeLane 0x9 0x19 f (by decide)
  | laneRedFmin f => exact decodeLane_encodeLane 0x9 0x1A f (by decide)
  | mma f => exact decodeLane_encodeLane 0xA 0x00 f (by decide)
  | mmloop f => exact decodeLane_encodeLane 0xA 0x01 f (by decide)
  | mmzero f => exact decodeLane_encodeLane 0xA 0x02 f (by decide)
  | mmdrain f => exact decodeLane_encodeLane 0xA 0x03 f (by decide)
  | mmcheck f => exact decodeLane_encodeLane 0xA 0x04 f (by decide)
  | pairWord x y => exact decodeLane_pairWord x y
  | _ => cases hn

/-- An instruction has 32 bits, 96, or, for an event, none. -/
theorem nbits_cases (i : Instr) : i.nbits = 0 ∨ i.nbits = 32 ∨ i.nbits = 96 := by
  cases i <;> simp [Instr.nbits]

/-! ### A lane word that decodes is the word of its instruction -/

section Rows

variable {cls op k : Nat} {f : LaneFields} {r r' : Except LaneReject Instr} {i : Instr}

theorem laneRow_error (e : LaneReject) : LaneRow cls op f (.error e) := fun _ h => by cases h

theorem laneRow_ok (h : encode i = encodeLane cls op f) (hn : i.nbits = 96) : LaneRow cls op f (.ok i) := fun _ hj => by
  cases hj
  exact ⟨h, hn⟩

theorem laneRow_ite {c : Prop} [Decidable c] (hr : c → LaneRow cls op f r) (hr' : LaneRow cls op f r') :
    LaneRow cls op f (if c then r else r') := by
  split
  · next h => exact hr h
  · exact hr'

/-- The row of an operation, above the rows of the others. -/
theorem laneRow_row (h : encode i = encodeLane cls k f) (hn : i.nbits = 96) (hr : LaneRow cls op f r) :
    LaneRow cls op f (if op = k then .ok i else r) :=
  laneRow_ite (fun hk => laneRow_ok (by rw [hk, h]) hn) hr

theorem laneRow_class0 : LaneRow 0x0 op f (decodeClass0 op f) := by
  unfold decodeClass0
  iterate 12 refine laneRow_row rfl rfl ?_
  exact laneRow_error _

theorem laneRow_class1 : LaneRow 0x1 op f (decodeClass1 op f) := by
  unfold decodeClass1
  iterate 11 refine laneRow_row rfl rfl ?_
  exact laneRow_error _

theorem laneRow_class2 : LaneRow 0x2 op f (decodeClass2 op f) := by
  unfold decodeClass2
  iterate 4 refine laneRow_row rfl rfl ?_
  exact laneRow_error _

theorem laneRow_class3 : LaneRow 0x3 op f (decodeClass3 op f) := by
  unfold decodeClass3
  iterate 9 refine laneRow_row rfl rfl ?_
  exact laneRow_error _

theorem laneRow_class4 : LaneRow 0x4 op f (decodeClass4 op f) := by
  unfold decodeClass4
  iterate 8 refine laneRow_row rfl rfl ?_
  exact laneRow_error _

theorem laneRow_class5 : LaneRow 0x5 op f (decodeClass5 op f) := by
  unfold decodeClass5
  iterate 2 refine laneRow_row rfl rfl ?_
  exact laneRow_error _

theorem laneRow_class6 : LaneRow 0x6 op f (decodeClass6 op f) := by
  unfold decodeClass6
  iterate 6 refine laneRow_row rfl rfl ?_
  exact laneRow_error _

theorem laneRow_class7 : LaneRow 0x7 op f (decodeClass7 op f) := by
  unfold decodeClass7
  iterate 4 refine laneRow_row rfl rfl ?_
  exact laneRow_error _

theorem laneRow_class8 : LaneRow 0x8 op f (decodeClass8 op f) := by
  unfold decodeClass8
  iterate 3 refine laneRow_row rfl rfl ?_
  exact laneRow_error _

theorem laneRow_class9 : LaneRow 0x9 op f (decodeClass9 op f) := by
  unfold decodeClass9
  iterate 20 refine laneRow_row rfl rfl ?_
  exact laneRow_error _

theorem laneRow_classA : LaneRow 0xA op f (decodeClassA op f) := by
  unfold decodeClassA
  iterate 5 refine laneRow_row rfl rfl ?_
  exact laneRow_error _

theorem laneRow_decodeSingle : LaneRow cls op f (decodeSingle cls op f) := by
  unfold decodeSingle
  refine laneRow_ite (fun h => h ▸ laneRow_class0) ?_
  refine laneRow_ite (fun h => h ▸ laneRow_class1) ?_
  refine laneRow_ite (fun h => h ▸ laneRow_class2) ?_
  refine laneRow_ite (fun h => h ▸ laneRow_class3) ?_
  refine laneRow_ite (fun h => h ▸ laneRow_class4) ?_
  refine laneRow_ite (fun h => h ▸ laneRow_class5) ?_
  refine laneRow_ite (fun h => h ▸ laneRow_class6) ?_
  refine laneRow_ite (fun h => h ▸ laneRow_class7) ?_
  refine laneRow_ite (fun h => h ▸ laneRow_class8) ?_
  refine laneRow_ite (fun h => h ▸ laneRow_class9) ?_
  refine laneRow_ite (fun h => h ▸ laneRow_classA) ?_
  exact laneRow_ite (fun _ => laneRow_error _) (laneRow_error _)

end Rows

/-- A lane word that decodes is the word of the instruction, which has 96 bits. -/
theorem encode_of_decodeLane {w : Nat} {i : Instr} (hw : w < 2 ^ 96) (h : decodeLane w = .ok i) : encode i = w ∧ i.nbits = 96 := by
  rw [decodeLane_eq] at h
  split at h
  · next hcls =>
    cases h
    have hpair : fld w 0 92 = fld w 46 46 * 2 ^ 46 + fld w 0 46 := fld_split w 0 46 46
    refine ⟨?_, rfl⟩
    rw [encode, encodeHalf_pairHalf, encodeHalf_pairHalf, Nat.add_assoc, ← hpair, ← hcls, ← fld_split w 0 92 4, fld_all hw]
  · obtain ⟨henc, hn⟩ := laneRow_decodeSingle i h
    exact ⟨henc.trans (encodeLane_laneFields hw), hn⟩

theorem encode_lt_of_lane {i : Instr} (hn : i.nbits = 96) : encode i < 2 ^ 96 := by
  have h := decodeLane_encode hn
  rw [decodeLane_eq] at h
  split at h
  · rw [← Except.ok.inj h]
    exact Fits.pairWord _ _
  · rw [(laneRow_decodeSingle i h).1]
    exact encodeLane_lt _ _ _ (Nat.mod_lt _ (by decide)) (Nat.mod_lt _ (by decide))

/-! ### Both word sizes -/

theorem decodeTableWord_scalar {w : Nat} (hw : w < 2 ^ 32) : decodeTableWord 32 w = some (decodeScalar w) := by
  rw [decodeTableWord, if_pos (Nat.le_refl 32), decodeScalarBytes, if_pos (leBytes_length 4 w), leNat_leBytes,
    Nat.mod_eq_of_lt (show w < 256 ^ 4 from hw)]

theorem decodeTableWord_lane {w : Nat} {i : Instr} (hw : w < 2 ^ 96) (h : decodeLane w = .ok i) : decodeTableWord 96 w = some i := by
  rw [decodeTableWord, if_neg (by decide), decodeLaneBytes, if_pos (leBytes_length 12 w), leNat_leBytes,
    Nat.mod_eq_of_lt (show w < 256 ^ 12 from hw), h]

/-- Settles O56: the two directions of the scalar words and of the lane words; the words of a table are read through their bytes. -/
theorem roundTrip : Obligations.RoundTrip := by
  refine ⟨fun i => decodeScalar_encode, fun i _ hn => ⟨encode_lt_of_lane hn, decodeLane_encode hn⟩, fun i hwf hn => ?_,
    fun w => encode_decodeScalar, fun w i => encode_of_decodeLane⟩
  rcases nbits_cases i with h | h | h
  · exact absurd h hn
  · obtain ⟨hlt, hdec⟩ := decodeScalar_encode hwf h
    rw [h, decodeTableWord_scalar hlt, hdec]
  · rw [h, decodeTableWord_lane (encode_lt_of_lane h) (decodeLane_encode h)]

/-! ### Words of the encodings -/

/-- The scalar opcodes that R147 leaves unassigned. -/
def unassignedOps : List Nat :=
  [0x0A, 0x0B, 0x0C, 0x0D, 0x0E, 0x0F, 0x1A, 0x1B, 0x1D, 0x1E, 0x1F, 0x30, 0x31, 0x32, 0x33, 0x34, 0x35, 0x36, 0x37, 0x38, 0x39,
    0x3A, 0x3B, 0x3C, 0x3D, 0x3E]

/-- No row of R147 has an unassigned opcode. -/
theorem decodeAssigned_of_unassigned {w op : Nat} (hop : op ∈ unassignedOps) (h : fld w 26 6 = op) : decodeAssigned w = none := by
  fin_cases hop <;> simp [decodeAssigned, h]

/-- The opcode of a word that is put together from an opcode and 26 bits. -/
theorem fld_opcode {op : Nat} (hop : op < 64) (x : BitVec 26) : fld (op * 2 ^ 26 + x.toNat) 26 6 = op := by
  have hx : fld (op * 2 ^ 26) 0 26 = 0 := by rw [fld, Nat.pow_zero, Nat.div_one, Nat.mul_mod_left]
  rw [show x.toNat = put x 0 from (Nat.mul_one _).symm, fld_add_put_below x (Nat.le_refl _) hx, fld,
    Nat.mul_div_cancel _ (Nat.two_pow_pos 26), Nat.mod_eq_of_lt (show op < 2 ^ 6 from hop)]

/-- Settles O55: each word is the word of its instruction, so the round trip reads it back; and no row of R147 has an unassigned
opcode. -/
theorem decodeWords : Obligations.DecodeWords := by
  obtain ⟨-, -, hback, -, -⟩ := roundTrip
  have hread : ∀ {n w : Nat} {i : Instr}, i.wf = true ∧ i.nbits = n ∧ n ≠ 0 ∧ encode i = w → decodeTableWord n w = some i := by
    rintro n w i ⟨hwf, rfl, hn, rfl⟩
    exact hback i hwf hn
  refine ⟨fun x hx => hread ?_, fun x hx => hread ?_, fun op hop w => ?_⟩
  · revert x
    decide +kernel
  · revert x
    decide +kernel
  · have hlt : op < 64 := by
      revert op
      decide
    have hword : op * 2 ^ 26 + w.toNat < 2 ^ 32 := by omega
    rw [decodeScalar, decodeAssigned_of_unassigned hop (fld_opcode hlt w), bfld, fld_all hword, Option.getD_none]

end Sys2Proof.Laws
end

section
/-!
The flags of sums and differences (R149, R167) and the instructions that an `ext` widens (R142, R145, R146).
-/

namespace Sys2Proof.Machine

/-- The flags of an exact sum and of an exact difference. -/
def Pstat.ofSum (p : Pstat) (x y : Word) : Pstat :=
  { p with n := (x + y).getLsbD 63, z := decide (x + y = 0#64), c := decide (2 ^ 64 ≤ x.toNat + y.toNat),
           v := overflows (x.toInt + y.toInt) }
def Pstat.ofDiff (p : Pstat) (x y : Word) : Pstat :=
  { p with n := (x - y).getLsbD 63, z := decide (x = y), c := decide (y.toNat ≤ x.toNat), v := overflows (x.toInt - y.toInt) }

end Sys2Proof.Machine

namespace Sys2Proof.Laws

open Sys2Proof Sys2Proof.Machine

variable {s : State} {t : Team}

/-! ### Flags -/

/-- A signed sum overflows when two operands of one sign have a sum of the other. -/
theorem overflows_add (x y : Word) : overflows (x.toInt + y.toInt) = (x.msb == y.msb && (x + y).msb != x.msb) := by
  have h := BitVec.saddOverflow_eq x y
  rw [BitVec.saddOverflow, Bool.or_comm] at h
  exact h

/-- A signed difference overflows when the operands have different signs and the difference has not that of the first. -/
theorem overflows_sub (x y : Word) : overflows (x.toInt - y.toInt) = (x.msb != y.msb && (x - y).msb != x.msb) := by
  have h := BitVec.ssubOverflow_eq x y
  rw [BitVec.ssubOverflow, Bool.or_comm] at h
  refine h.trans ?_
  cases x.msb <;> cases y.msb <;> cases (x - y).msb <;> rfl

theorem setReg_eq (t : Team) (d : BitVec 6) (x : Word) :
    t.setReg d x = { t with s := if d = 0#6 then t.s else Store.set 0 t.s d.toNat x } := by
  unfold Team.setReg
  split <;> rfl

theorem setFlags_addFlags (t : Team) (x y : Word) : t.setFlags (addFlags x y) = { t with pstat := t.pstat.ofSum x y } := by
  have hv := overflows_add x y
  simp only [Team.setFlags, addFlags, Pstat.ofSum, hv, BitVec.msb_eq_getLsbD_last, beq_eq_decide]

theorem setFlags_subFlags (t : Team) (x y : Word) : t.setFlags (subFlags x y) = { t with pstat := t.pstat.ofDiff x y } := by
  have hv := overflows_sub x y
  have hz : (x - y == 0#64) = decide (x = y) := by
    rw [beq_eq_decide]
    exact decide_eq_decide.mpr sub_eq_zero
  simp only [Team.setFlags, subFlags, Pstat.ofDiff, hv, hz, BitVec.msb_eq_getLsbD_last]

theorem putFlags_add (t : Team) (d : BitVec 6) (x y n : Word) :
    t.putFlags d (x + y) (addFlags x y) n = { t.wrote d (x + y) n with pstat := t.pstat.ofSum x y } := by
  rw [Team.putFlags, setFlags_addFlags, setReg_eq]
  rfl

theorem putFlags_sub (t : Team) (d : BitVec 6) (x y r n : Word) :
    t.putFlags d r (subFlags x y) n = { t.wrote d r n with pstat := t.pstat.ofDiff x y } := by
  rw [Team.putFlags, setFlags_subFlags, setReg_eq]
  rfl

/-- Register s0 discards what is written to it (R19). -/
theorem wrote_zero (t : Team) (x n : Word) : t.wrote 0#6 x n = { t with pc := t.pc + n } := rfl

theorem putFlags_cmp (t : Team) (x y n : Word) :
    t.putFlags 0#6 0 (subFlags x y) n = { t with pc := t.pc + n, pstat := t.pstat.ofDiff x y } := by
  rw [putFlags_sub, wrote_zero]

/-- What an immediate form writes without flags. -/
theorem immOp_team (t : Team) (f : Word → Word → Word) (d a : BitVec 6) (imm n : Word) :
    { t.setReg d (f (t.reg a) imm) with pc := t.pc + n } = t.wrote d (f (t.reg a) imm) n := by
  rw [setReg_eq]
  rfl

/-- An instruction whose meaning is a change of the team gives the changed team. -/
theorem gives_of_eq {i : Instr} {u v : Team} (h : exec i s = .next (s.setTeam v)) (huv : v = u) : Gives i s u := by
  rw [Gives, h, huv]

theorem flagResults_claim : Claims.FlagResults := fun s _ _ _ _ =>
  ⟨gives_of_eq rfl (putFlags_add s.team _ _ _ 4), gives_of_eq rfl (putFlags_sub s.team _ _ _ _ 4),
    gives_of_eq rfl (putFlags_cmp s.team _ _ 4), gives_of_eq rfl (putFlags_add s.team _ _ _ 4),
    gives_of_eq rfl (putFlags_cmp s.team _ _ 4)⟩

theorem conditionCodes_claim : Claims.ConditionCodes := by
  intro p
  refine ⟨rfl, rfl, rfl, ?_, ?_, ?_, ?_, rfl, rfl, ?_, ?_, rfl, rfl, rfl, rfl, rfl⟩
  all_goals simp [condHolds, bne, beq_eq_decide]

/-- Settles O4: an instruction that writes its flags writes those of the exact sum or difference (the overflow lemmas of bit vectors),
and the condition codes are read off their table. -/
theorem flagResults : Obligations.FlagResults := ⟨flagResults_claim, conditionCodes_claim⟩

/-! ### `ext` -/

theorem imm40_eq (hi : BitVec 26) (lo : BitVec 14) : imm40 hi lo = BitVec.ofInt 64 (hi.toInt * 2 ^ 14 + lo.toNat) := by
  rw [imm40, BitVec.signExtend, BitVec.toInt_append, if_neg (by decide), Int.mul_comm]

/-- What an `ext` does with the word after it, when that can be fetched. -/
theorem exec_ext {hi : BitVec 26} {w : Nat} (hf : s.fetchAt s.team (s.team.pc + 4#64).toNat 4 = .word w) :
    exec (.ext hi) s = .next (if ¬ fld w 26 6 ∈ [1, 2, 3, 4, 5, 9] then s.trap cBadExt 0
      else if (decodeScalar w).wf then s.prefixed hi (decodeScalar w) else s.illegal w) := by
  change execExt hi s = _
  simp only [execExt, hf, Bool.not_eq_true', List.contains_eq_mem, decide_eq_false_iff_not]

theorem exec_ext_encode {hi : BitVec 26} {j : Instr} (hf : s.fetchAt s.team (s.team.pc + 4#64).toNat 4 = .word (encode j))
    (hop : fld (encode j) 26 6 ∈ [1, 2, 3, 4, 5, 9]) (hwf : j.wf = true) (hn : j.nbits = 32) :
    exec (.ext hi) s = .next (s.prefixed hi j) := by
  obtain ⟨-, hdec⟩ := decodeScalar_encode hwf hn
  rw [exec_ext hf, if_neg (not_not_intro hop), hdec, if_pos hwf]

theorem prefixedInstructions_claim : Claims.PrefixedInstructions := by
  intro s hi d a lo j t x imm hf
  have himm : imm40 hi lo = imm := imm40_eq hi lo
  clear_value imm
  subst himm
  refine ⟨?_, ?_, ?_, ?_, ?_, ?_⟩ <;> rintro rfl
  · exact gives_of_eq (exec_ext_encode hf (by simp [encode]) rfl rfl) (putFlags_add t d x _ 8)
  · exact gives_of_eq (exec_ext_encode hf (by simp [encode]) rfl rfl) (immOp_team t (· * ·) d a _ 8)
  · exact gives_of_eq (exec_ext_encode hf (by simp [encode]) rfl rfl) (immOp_team t (· &&& ·) d a _ 8)
  · exact gives_of_eq (exec_ext_encode hf (by simp [encode]) rfl rfl) (immOp_team t (· ||| ·) d a _ 8)
  · exact gives_of_eq (exec_ext_encode hf (by simp [encode]) rfl rfl) (immOp_team t (· ^^^ ·) d a _ 8)
  · exact gives_of_eq (exec_ext_encode hf (by simp [encode]) rfl rfl) (putFlags_cmp t x _ 8)

theorem prefixRefused_claim : Claims.PrefixRefused := by
  intro s hi w t hf hop
  rw [exec_ext hf, if_pos (show fld w 26 6 ∉ _ from hop)]
  rfl

/-- Settles O6: the word after the `ext` decodes to the instruction that it is the word of, whose meaning takes the wide immediate. -/
theorem prefixes : Obligations.Prefixes := ⟨prefixedInstructions_claim, prefixRefused_claim⟩

end Sys2Proof.Laws
end

section
/-!
The issue of a pair word (R162 to R165, R297).
-/

namespace Sys2Proof.Machine

/-- The outstanding passes of half Y, each with the cycle of its pass, numbered from `first`. -/
def laterPends (c : Ctx) (sp : FixedSpec) (ps : List Pass) (first : Nat) : List (Nat × Pend) :=
  ((passPends c sp ps none false).zip ps).map fun x => (x.2.cyc, { x.1 with id := first + (x.1.id - c.t.nextOp) })

/-- The team with the passes of both halves outstanding: those of X, and behind them those of Y. -/
def pairTeam (cx cy : Ctx) (sx sy : FixedSpec) (px py : List Pass) : Team :=
  let t := cx.t.addPends cx.s.free cx.o.layout (fixedPends cx sx px none)
  t.addPends cx.s.free cy.o.layout (laterPends cy sy py t.nextOp)

/-- The team after a pair word with these passes and STALLs has issued at `cycle`. -/
def Team.pairDone (t : Team) (cycle px py stallX stallY : Nat) : Team :=
  { t.issuesUntil (cycle + max px py) with laneFree := max (nextIssue cycle px stallX) (nextIssue cycle py stallY) }

/-- The context of half Y, whose elements are counted from 0x8000 (R165). -/
def State.pairCtxY (s : State) (o : LaneOp) (e : LaneEntry) (rest : List LaneEntry) : Ctx :=
  { s.laneCtx o e rest [] with elOff := 0x8000 }

end Sys2Proof.Machine

namespace Sys2Proof.Laws

open Sys2Proof Sys2Proof.Machine

variable {s : State} {t : Team} {i : Instr} {c cx cy : Ctx} {sx sy : FixedSpec} {e : LaneEntry} {rest : List LaneEntry}
  {px py : List Pass} {p : Pass}

/-! ### The halves -/

/-- Whatever operation a half stands for, its fields are those of the half. -/
theorem ofHalf_fields (h : PairHalf) : (LaneOp.ofHalf h).f.d = h.d ∧ (LaneOp.ofHalf h).f.stall = h.stall := by
  unfold LaneOp.ofHalf
  extract_lets f
  simp only [apply_ite LaneOp.f, ite_self]
  exact ⟨rfl, rfl⟩

/-- A half writes D in every lane of its passes, and nothing else (R163). -/
theorem halfSpec_eval (o : LaneOp) (c : Ctx) (p : Pass) : ∃ g, (halfSpec o).eval c p = c.perLane p g := by
  unfold halfSpec
  split_ifs <;> exact ⟨_, rfl⟩

/-- With one register for an element, what a half writes lies in register D. -/
theorem halfSpec_regs {o : LaneOp} {k free cyc m : Nat} (hw : c.o.width = 1) (hp : p ∈ t.passesFrom false free cyc m)
    (hk : k ∈ ((halfSpec o).eval c p).regs.map Prod.fst) : k / 1024 = c.o.f.d.toNat := by
  obtain ⟨g, hg⟩ := halfSpec_eval o c p
  obtain ⟨y, hy, rfl⟩ := List.mem_map.mp hk
  rw [hg, Ctx.perLane, hw] at hy
  obtain ⟨l, hl, hy⟩ := List.mem_flatMap.mp hy
  obtain ⟨i, hi, rfl⟩ := mem_putRegs.mp hy
  have hlane := (passesFrom_lane hp hl).2
  dsimp only
  omega

theorem halfSpec_masks (o : LaneOp) (c : Ctx) (p : Pass) : ((halfSpec o).eval c p).masks = [] := by
  obtain ⟨g, hg⟩ := halfSpec_eval o c p
  rw [hg]
  rfl

/-! ### The issue -/

/-- At the head of the queue, its turn come and its operands at hand, the pair issues. -/
theorem issuePair_ok {x y : LaneOp} (h : s.laneHead i e rest)
    (hc : e.chk = true → (s.team.popped rest).checkTouches
      (x.touches ((s.team.popped rest).mayPass s.cycle x.f.mask.toNat) s.team.nwarp s.cycle e.y e.fmt (s.lanePasses x false rest)
          (fun _ => Pass.lanes) Pass.lanes
        ++ y.touches ((s.team.popped rest).mayPass s.cycle y.f.mask.toNat) s.team.nwarp s.cycle e.y e.fmt
          (s.lanePasses y false rest) (fun _ => Pass.lanes) Pass.lanes) = none) :
    ∃ d, s.issuePair i x y sx sy = { s.setTeam
        ((pairTeam (s.laneCtx x e rest []) (s.pairCtxY y e rest) sx sy (s.lanePasses x false rest) (s.lanePasses y false rest)).pairDone
          s.cycle (s.lanePasses x false rest).length (s.lanePasses y false rest).length x.f.stall.toNat y.f.stall.toNat) with
      free := s.free + 1, dbgs := d } := by
  obtain ⟨-, -, hfree, -⟩ := id h
  have hdirect : s.directFault (encode i) true = none := if_pos rfl
  have hearly : ¬ s.cycle < (s.team.popped rest).laneFree := Nat.not_lt.mpr hfree
  have hchk : (if e.chk = true then (s.team.popped rest).checkTouches
      (x.touches ((s.team.popped rest).mayPass s.cycle x.f.mask.toNat) s.team.nwarp s.cycle e.y e.fmt (s.lanePasses x false rest)
          (fun _ => Pass.lanes) Pass.lanes
        ++ y.touches ((s.team.popped rest).mayPass s.cycle y.f.mask.toNat) s.team.nwarp s.cycle e.y e.fmt
          (s.lanePasses y false rest) (fun _ => Pass.lanes) Pass.lanes) else none) = none := by
    split
    · next he => exact hc he
    · rfl
  unfold State.issuePair
  dsimp only
  rw [takeEntry_head h]
  dsimp only
  rw [hdirect]
  dsimp only
  rw [if_neg hearly]
  split
  · next c v hv =>
    have hnone := hchk.symm.trans hv
    cases hnone
  · obtain ⟨d, hd⟩ := countEvent_eq (s.setTeam ((pairTeam (s.laneCtx x e rest []) (s.pairCtxY y e rest) sx sy
        (s.lanePasses x false rest) (s.lanePasses y false rest)).pairDone s.cycle (s.lanePasses x false rest).length
        (s.lanePasses y false rest).length x.f.stall.toNat y.f.stall.toNat)).fresh (s.team.popped rest).core
      (s.team.popped rest).pstat.tag 3 ((s.lanePasses x false rest).length + (s.lanePasses y false rest).length)
    exact ⟨d, hd⟩

/-! ### The team after the issue -/

/-- Outstanding passes are all that the two halves add to the team. -/
theorem pairTeam_eq : ∃ n, pairTeam cx cy sx sy px py = { cx.t with pend := (pairTeam cx cy sx sy px py).pend, nextOp := n } := by
  obtain ⟨n, hn⟩ := addPends_eq cx.t cx.s.free cx.o.layout (fixedPends cx sx px none)
  unfold pairTeam
  dsimp only
  generalize cx.t.addPends cx.s.free cx.o.layout (fixedPends cx sx px none) = u at hn
  obtain ⟨m, hm⟩ := addPends_eq u cx.s.free cy.o.layout (laterPends cy sy py u.nextOp)
  refine ⟨m, hm.trans ?_⟩
  generalize (u.addPends cx.s.free cy.o.layout (laterPends cy sy py u.nextOp)).pend = P
  generalize u.pend = P' at hn
  subst hn
  rfl

theorem pairTeam_pend_length : (pairTeam cx cy sx sy px py).pend.length = cx.t.pend.length + px.length + py.length := by
  have hlater : ∀ n, (laterPends cy sy py n).length = py.length := fun n => by simp [laterPends, passPends]
  exact (addPends_length _ _ _ _).trans (congrArg₂ (· + ·)
    ((addPends_length _ _ _ _).trans (congrArg (cx.t.pend.length + ·) fixedPends_length)) (hlater _))

/-- Of two passes that stand apart, put to an empty list one behind the other, both stay whole. -/
theorem addPends_pair {free : Nat} {x y : Layout} {a b : Nat × Pend} (ht : t.pend = []) (ha : a.2.Apart b.2) :
    ((t.addPends free x [a]).addPends free y [b]).pend = [a.2, b.2] := by
  have hfirst : (t.addPends free x [a]).pend = [a.2] := addPend_of_nil t free x (fun _ => a.1) a.2 ht
  change ((t.addPends free x [a]).addPend free y (fun _ => b.1) b.2).pend = [a.2, b.2]
  rw [addPend_eq, hfirst, List.map_singleton, beside_of_apart ha, after_of_apart fun _ hp => List.mem_singleton.mp hp ▸ ha]
  rfl

/-- With nothing else outstanding, one pass of each half and nothing written by both, both passes stand outstanding whole. -/
theorem pairTeam_single (ht : cx.t.pend = [])
    (hd : ∀ k, (k ∈ (sy.eval cy p).regs.map Prod.fst → k ∉ (sx.eval cx p).regs.map Prod.fst)
      ∧ (k ∈ (sy.eval cy p).masks.map Prod.fst → k ∉ (sx.eval cx p).masks.map Prod.fst)) :
    (pairTeam cx cy sx sy [p] [p]).pend.map Pend.regs = [(sx.eval cx p).regs, (sy.eval cy p).regs]
      ∧ ∀ r ∈ (pairTeam cx cy sx sy [p] [p]).pend, r.part = [] := by
  obtain ⟨a, ha, har, haw, ham, hap⟩ : ∃ a, fixedPends cx sx [p] none = [a] ∧ a.2.regs = (sx.eval cx p).regs
      ∧ a.2.awaits = [] ∧ a.2.masks = (sx.eval cx p).masks ∧ a.2.part = [] := ⟨_, rfl, rfl, rfl, rfl, rfl⟩
  obtain ⟨b, hb, hbr, hbw, hbm, hbp⟩ : ∃ b, laterPends cy sy [p] (cx.t.addPends cx.s.free cx.o.layout [a]).nextOp = [b]
      ∧ b.2.regs = (sy.eval cy p).regs ∧ b.2.awaits = [] ∧ b.2.masks = (sy.eval cy p).masks ∧ b.2.part = [] :=
    ⟨_, rfl, rfl, rfl, rfl, rfl⟩
  have hapart : a.2.Apart b.2 := apart_of_disjoint haw hbw (by rwa [har, hbr, ham, hbm])
  have hpend : (pairTeam cx cy sx sy [p] [p]).pend = [a.2, b.2] := by
    unfold pairTeam
    dsimp only
    rw [ha, hb]
    exact addPends_pair ht hapart
  rw [hpend]
  simp [har, hbr, hap, hbp]

/-- Halves with different destinations, of one register for an element, write nothing in common. -/
theorem halves_disjoint {x y : LaneOp} {free cyc m : Nat} (hcx : cx.o = x) (hcy : cy.o = y) (hx : x.width = 1) (hy : y.width = 1)
    (hne : x.f.d ≠ y.f.d) (hp : p ∈ t.passesFrom false free cyc m) (k : Nat) :
    (k ∈ ((halfSpec y).eval cy p).regs.map Prod.fst → k ∉ ((halfSpec x).eval cx p).regs.map Prod.fst)
      ∧ (k ∈ ((halfSpec y).eval cy p).masks.map Prod.fst → k ∉ ((halfSpec x).eval cx p).masks.map Prod.fst) := by
  subst hcx hcy
  constructor
  · intro hky hkx
    exact hne (BitVec.eq_of_toNat_eq ((halfSpec_regs hx hp hkx).symm.trans (halfSpec_regs hy hp hky)))
  · rw [halfSpec_masks]
    exact fun hk => absurd hk List.not_mem_nil

/-- The later of the two halves' next issues. -/
theorem max_nextIssue (cycle a b stallX stallY : Nat) : max (nextIssue cycle a stallX) (nextIssue cycle b stallY)
    = cycle + max (max a 1 + stallX) (max b 1 + stallY) := by
  unfold nextIssue
  omega

/-- What the two halves leave outstanding, with nothing else outstanding, different destinations and one pass each (R162). -/
theorem pairTeam_halves {x y : LaneOp} (ht : s.team.pend = []) (hpx : s.lanePasses x false rest = [p]) (hne : x.f.d ≠ y.f.d)
    (hwx : x.width = 1) (hwy : y.width = 1) :
    let u := pairTeam (s.laneCtx x e rest []) (s.pairCtxY y e rest) (halfSpec x) (halfSpec y) [p] [p]
    u.pend.map Pend.regs = [((halfSpec x).eval (s.laneCtx x e rest []) p).regs, ((halfSpec y).eval (s.pairCtxY y e rest) p).regs]
      ∧ ∀ r ∈ u.pend, r.part = [] := by
  have hmem : p ∈ s.lanePasses x false rest := by simp [hpx]
  exact pairTeam_single ht (halves_disjoint rfl rfl hwx hwy hne hmem)

/-- Settles O29: both contexts hold the team before the word; the passes of X are queued and those of Y behind them, and apart
from them the team changes in the time of its next issue alone. -/
theorem pairIssue : Obligations.PairIssue := by
  intro s x y e rest hhead ox oy t px py hchk
  obtain ⟨d, hd⟩ := issuePair_ok (sx := halfSpec ox) (sy := halfSpec oy) hhead hchk
  have hexec : exec (.pairWord x y) s = .next _ := congrArg Host.Outcome.next hd
  obtain ⟨hdx, hstallx⟩ := ofHalf_fields x
  obtain ⟨hdy, hstally⟩ := ofHalf_fields y
  obtain ⟨n, hteam⟩ := pairTeam_eq (cx := s.laneCtx ox e rest []) (cy := s.pairCtxY oy e rest) (sx := halfSpec ox)
    (sy := halfSpec oy) (px := px) (py := py)
  have hlen : (pairTeam (s.laneCtx ox e rest []) (s.pairCtxY oy e rest) (halfSpec ox) (halfSpec oy) px py).pend.length
      = t.pend.length + px.length + py.length := pairTeam_pend_length
  rw [hteam] at hexec
  refine ⟨_, ⟨_, hexec, State.teamAt_putTeam s s.cur _, rfl, rfl, rfl, fun id hid => State.teamAt_putTeam_other s _ hid, rfl, rfl,
    rfl, rfl, rfl, rfl, rfl, rfl, rfl⟩, rfl, rfl, rfl, rfl, ?_, hlen, fun ht p hpx hpy hne hwx hwy => ?_⟩
  · rw [← hstallx, ← hstally]
    exact max_nextIssue _ _ _ _ _
  · have hhalves := pairTeam_halves (e := e) ht hpx (by rwa [hdx, hdy]) hwx hwy
    change List.map Pend.regs (pairTeam (s.laneCtx ox e rest []) (s.pairCtxY oy e rest) (halfSpec ox) (halfSpec oy) px py).pend = _
      ∧ ∀ r ∈ (pairTeam (s.laneCtx ox e rest []) (s.pairCtxY oy e rest) (halfSpec ox) (halfSpec oy) px py).pend, _
    rw [hpx, hpy]
    exact hhalves

end Sys2Proof.Laws
end

section
/-!
Scalar arithmetic (R169 to R171) and control transfers (R172).
-/

namespace Sys2Proof.Laws

open Sys2Proof Sys2Proof.Machine

variable {s : State}

/-! ### Words as numbers -/

/-- The low word of a product of words is the product of their numbers. -/
theorem mul_eq_ofInt (x y : Word) : x * y = BitVec.ofInt 64 (x.toInt * y.toInt) := by
  rw [BitVec.ofInt_mul, BitVec.ofInt_toInt, BitVec.ofInt_toInt]

/-- The upper half of a number of 128 bits. -/
theorem extractLsb'_high (z : Int) : (BitVec.ofInt 128 z).extractLsb' 64 64 = BitVec.ofInt 64 (z / 2 ^ 64) := by
  apply BitVec.eq_of_toNat_eq
  simp only [BitVec.extractLsb'_toNat, BitVec.toNat_ofInt, Nat.shiftRight_eq_div_pow]
  omega

theorem mulHigh_eq (x y : Word) : mulHigh x y = (x.signExtend 128 * y.signExtend 128).extractLsb' 64 64 := by
  rw [BitVec.signExtend, BitVec.signExtend, ← BitVec.ofInt_mul, extractLsb'_high, mulHigh]

theorem mulHighU_eq (x y : Word) : mulHighU x y = (x.zeroExtend 128 * y.zeroExtend 128).extractLsb' 64 64 := by
  apply BitVec.eq_of_toNat_eq
  have hp : x.toNat * y.toNat < 2 ^ 128 := (Nat.mul_lt_mul'' x.isLt y.isLt).trans_eq (by norm_num)
  have hx : x.toNat % 2 ^ 128 = x.toNat := Nat.mod_eq_of_lt (by omega)
  have hy : y.toNat % 2 ^ 128 = y.toNat := Nat.mod_eq_of_lt (by omega)
  simp only [mulHighU, BitVec.extractLsb'_toNat, BitVec.toNat_mul, BitVec.truncate_eq_setWidth, BitVec.toNat_setWidth,
    BitVec.toNat_ofNat, Nat.shiftRight_eq_div_pow, hx, hy, Nat.mod_eq_of_lt hp]

/-- A shift amount is its low six bits (R169). -/
theorem toNat_and_63 (y : Word) : (y &&& 63#64).toNat = y.toNat % 64 := Nat.and_two_pow_sub_one_eq_mod y.toNat 6

theorem shlW_eq (x y : Word) : shlW x y = x <<< (y &&& 63#64) := by
  rw [BitVec.shiftLeft_eq', toNat_and_63, shlW]

theorem shrW_eq (x y : Word) : shrW x y = x >>> (y &&& 63#64) := by
  rw [BitVec.ushiftRight_eq', toNat_and_63, shrW]

/-- An arithmetic shift divides toward minus infinity. -/
theorem sshiftRight_eq_ofInt (x : Word) (n : Nat) : x.sshiftRight n = BitVec.ofInt 64 (x.toInt / 2 ^ n) := by
  rw [BitVec.sshiftRight, Int.shiftRight_eq_div_pow]
  norm_cast

theorem sarW_eq (x y : Word) : sarW x y = BitVec.ofInt 64 (x.toInt / 2 ^ (y &&& 63#64).toNat) := by
  rw [sarW, sshiftRight_eq_ofInt, toNat_and_63]

theorem minS_eq (x y : Word) : minS x y = BitVec.ofInt 64 (min x.toInt y.toInt) := by
  unfold minS
  split
  · next h => rw [min_eq_left (BitVec.slt_iff_toInt_lt.mp h).le, BitVec.ofInt_toInt]
  · next h => rw [min_eq_right (not_lt.mp fun hl => h (BitVec.slt_iff_toInt_lt.mpr hl)), BitVec.ofInt_toInt]

theorem maxS_eq (x y : Word) : maxS x y = BitVec.ofInt 64 (max x.toInt y.toInt) := by
  unfold maxS
  split
  · next h => rw [max_eq_right (BitVec.slt_iff_toInt_lt.mp h).le, BitVec.ofInt_toInt]
  · next h => rw [max_eq_left (not_lt.mp fun hl => h (BitVec.slt_iff_toInt_lt.mpr hl)), BitVec.ofInt_toInt]

theorem minU_eq (x y : Word) : minU x y = BitVec.ofNat 64 (min x.toNat y.toNat) := by
  unfold minU
  split
  · next h => rw [min_eq_left (BitVec.ult_iff_lt.mp h).le, BitVec.ofNat_toNat, BitVec.setWidth_eq]
  · next h => rw [min_eq_right (not_lt.mp fun hl => h (BitVec.ult_iff_lt.mpr hl)), BitVec.ofNat_toNat, BitVec.setWidth_eq]

theorem maxU_eq (x y : Word) : maxU x y = BitVec.ofNat 64 (max x.toNat y.toNat) := by
  unfold maxU
  split
  · next h => rw [max_eq_right (BitVec.ult_iff_lt.mp h).le, BitVec.ofNat_toNat, BitVec.setWidth_eq]
  · next h => rw [max_eq_left (not_lt.mp fun hl => h (BitVec.ult_iff_lt.mpr hl)), BitVec.ofNat_toNat, BitVec.setWidth_eq]

theorem sxtW_eq {n : Nat} (hn : n ≤ 64) (x : Word) : sxtW n x = (x.extractLsb' 0 n).signExtend 64 := by
  rw [sxtW, BitVec.truncate_eq_setWidth, BitVec.setWidth_eq_extractLsb' hn]

theorem shiftLeft_eq_ofNat (x : Word) (n : Nat) : x <<< n = BitVec.ofNat 64 (x.toNat * 2 ^ n) := by
  apply BitVec.eq_of_toNat_eq
  rw [BitVec.toNat_shiftLeft, Nat.shiftLeft_eq, BitVec.toNat_ofNat]

theorem ushiftRight_eq_ofNat (x : Word) (n : Nat) : x >>> n = BitVec.ofNat 64 (x.toNat / 2 ^ n) := by
  rw [← Nat.shiftRight_eq_div_pow, ← BitVec.toNat_ushiftRight, BitVec.ofNat_toNat, BitVec.setWidth_eq]

theorem mul_signExtend_eq_ofInt (x : Word) (i : BitVec 14) : x * i.signExtend 64 = BitVec.ofInt 64 (x.toInt * i.toInt) := by
  rw [BitVec.signExtend, BitVec.ofInt_mul, BitVec.ofInt_toInt]

/-! ### Register and immediate forms -/

variable {i : Instr} {d a b : BitVec 6}

/-- An instruction that is well formed does what its meaning says. -/
theorem exec_of_wf {body : Out} (hwf : i.wf = true) (h : exec i s = guarded i s body) : exec i s = body := by
  rw [h, guarded, if_pos hwf]

/-- One that is not traps ILLEGAL with its word (R147, R154). -/
theorem exec_of_not_wf {body : Out} (hwf : i.wf = false) (h : exec i s = guarded i s body) :
    exec i s = .next (s.trap 0x01 (BitVec.ofNat 64 (encode i))) := by
  rw [h, guarded, if_neg (by simp [hwf])]
  rfl

theorem regOp_eq (f : Word → Word → Word) : s.regOp f d a b = s.setTeam (s.team.wrote d (f (s.team.reg a) (s.team.reg b)) 4) :=
  congrArg s.setTeam (setReg_advance _ _ _)

theorem regOp1_eq (f : Word → Word) : s.regOp1 f d a = s.setTeam (s.team.wrote d (f (s.team.reg a)) 4) :=
  congrArg s.setTeam (setReg_advance _ _ _)

/-- An instruction that writes one register gives the team that has the result there. -/
theorem gives_wrote {x y : Word} (h : exec i s = .next (s.setTeam (s.team.wrote d x 4))) (hxy : x = y) :
    Gives i s (s.team.wrote d y 4) := gives_of_eq h (by rw [hxy])

theorem gives_regOp {f : Word → Word → Word} {x : Word} (h : exec i s = .next (s.regOp f d a b))
    (hx : f (s.team.reg a) (s.team.reg b) = x) : Gives i s (s.team.wrote d x 4) :=
  gives_wrote (h.trans (congrArg _ (regOp_eq f))) hx

theorem gives_regOp1 {f : Word → Word} {x : Word} (h : exec i s = .next (s.regOp1 f d a)) (hx : f (s.team.reg a) = x) :
    Gives i s (s.team.wrote d x 4) :=
  gives_wrote (h.trans (congrArg _ (regOp1_eq f))) hx

theorem gives_immOp {f : Word → Word → Word} {imm x : Word} (h : exec i s = .next (s.immOp f d a imm 4))
    (hx : f (s.team.reg a) imm = x) : Gives i s (s.team.wrote d x 4) :=
  gives_wrote (h.trans (congrArg (fun t => Host.Outcome.next (s.setTeam t)) (immOp_team s.team f d a imm 4))) hx

theorem aluResults_registers : Claims.AluResults := by
  intro s d a b c x y
  refine ⟨gives_regOp rfl (mul_eq_ofInt x y), gives_regOp rfl (mulHigh_eq x y), gives_regOp rfl (mulHighU_eq x y),
    gives_regOp rfl rfl, gives_regOp rfl rfl, gives_regOp rfl rfl, gives_regOp rfl (shlW_eq x y), gives_regOp rfl (shrW_eq x y),
    gives_regOp rfl (sarW_eq x y), gives_regOp rfl (minS_eq x y), gives_regOp rfl (maxS_eq x y), gives_regOp rfl (minU_eq x y),
    gives_regOp rfl (maxU_eq x y), gives_regOp1 rfl (sxtW_eq (by decide) x), gives_regOp1 rfl (sxtW_eq (by decide) x),
    gives_regOp1 rfl (sxtW_eq (by decide) x),
    gives_of_eq rfl (setReg_advance _ _ _)⟩

theorem aluResults_immediates : Claims.ImmediateResults := by
  intro s d a n i x k
  exact ⟨gives_immOp rfl (mul_signExtend_eq_ofInt x i), gives_immOp rfl rfl, gives_immOp rfl rfl, gives_immOp rfl rfl,
    gives_regOp1 rfl (shiftLeft_eq_ofNat x _), gives_regOp1 rfl (ushiftRight_eq_ofNat x _),
    gives_regOp1 rfl (sshiftRight_eq_ofInt x _)⟩

/-- Settles O2: each meaning is a register write, and its word is the number that arithmetic gives. -/
theorem aluResults : Obligations.AluResults := ⟨aluResults_registers, aluResults_immediates⟩

/-! ### Division (R170) -/

theorem divOp_fault {f : Word → Word → Word} (hc : s.team.pstat.chk = true) (hb : s.team.reg b = 0#64) :
    s.divOp f d a b = s.trap 0x14 (s.team.reg a) := if_pos ⟨hc, hb⟩

theorem gives_divOp {f : Word → Word → Word} {x : Word} (h : exec i s = .next (s.divOp f d a b))
    (hb : s.team.pstat.chk = false ∨ s.team.reg b ≠ 0#64) (hx : f (s.team.reg a) (s.team.reg b) = x) :
    Gives i s (s.team.wrote d x 4) := by
  have hn : ¬ (s.team.pstat.chk = true ∧ s.team.reg b = 0#64) := fun ⟨hc, hz⟩ => hb.elim (by simp [hc]) (· hz)
  exact gives_regOp (h.trans (congrArg _ (if_neg hn))) hx

theorem quotU_eq (x y : Word) : quotU x y = if y = 0#64 then 0xFFFF_FFFF_FFFF_FFFF#64 else x / y := by
  rw [quotU, BitVec.udiv_def]
  rfl

theorem remU_eq (x y : Word) : remU x y = if y = 0#64 then x else x % y := by
  rw [remU, BitVec.umod_def]

/-- Settles O3: a zero divisor traps in checking mode, and everywhere else the words are the quotients
and remainders of the numbers. -/
theorem divisionResults : Obligations.DivisionResults := by
  intro s d a b x y
  refine ⟨fun hc hb i hi => ?_, fun h => ⟨gives_divOp rfl h rfl, gives_divOp rfl h rfl, gives_divOp rfl h (quotU_eq x y),
    gives_divOp rfl h (remU_eq x y), fun hx hy => ⟨gives_divOp rfl h ?_, gives_divOp rfl h ?_⟩⟩⟩
  · simp only [List.mem_cons, List.not_mem_nil, or_false] at hi
    obtain rfl | rfl | rfl | rfl := hi
    all_goals exact congrArg _ (divOp_fault hc hb)
  · change quot x y = _
    rw [hx, hy]
    decide
  · change rem x y = _
    rw [hx, hy]
    decide

/-! ### Control transfers (R172) -/

theorem disp_eq {n : Nat} (k : BitVec n) : disp k = BitVec.ofInt 64 (4 * k.toInt) := by
  rw [disp, BitVec.shiftLeft_eq_mul_twoPow, BitVec.signExtend, BitVec.ofInt_mul, BitVec.mul_comm]
  rfl

/-- A transfer that links writes the return address before it leaves. -/
theorem setReg_jump (t : Team) (d : BitVec 6) (x target : Word) :
    (t.setReg d x).jump target = (t.wrote d x 0).goTo t.pc target := by
  rw [setReg_eq]
  rfl

theorem jumpTo_aligned {x : Word} (h : x.toNat % 4 = 0) (f : Team → Team) : s.jumpTo x f = s.setTeam ((f s.team).jump x) :=
  if_neg (not_not_intro h)

theorem jumpTo_misaligned {x : Word} (h : x.toNat % 4 ≠ 0) (f : Team → Team) : s.jumpTo x f = s.trap 0x08 x := if_pos h

/-- Settles O5: displacements count words, and a register target is tested before anything is written. -/
theorem transfers : Obligations.Transfers := by
  intro s c k a d i t x
  refine ⟨gives_of_eq rfl ?_, gives_of_eq rfl ?_, gives_of_eq rfl ?_, fun h => ⟨?_, ?_⟩, fun h => ?_, fun h => ⟨?_, ?_⟩,
    fun h => ?_⟩
  · rw [disp_eq]
    rfl
  · rw [disp_eq]
    exact setReg_jump _ _ _ _
  · have hz : t.reg d - 1#64 = 0#64 ↔ t.reg d = 1#64 := sub_eq_zero
    change (if t.reg d - 1#64 = 0#64 then _ else _) = _
    simp only [hz]
    split
    · next h => rw [h]; exact setReg_advance _ _ _
    · rw [disp_eq]; exact setReg_jump _ _ _ _
  · exact congrArg _ (jumpTo_aligned h id)
  · exact (congrArg _ (jumpTo_aligned h _)).trans (congrArg (fun u => Host.Outcome.next (s.setTeam u)) (setReg_jump _ _ _ _))
  · exact congrArg _ (jumpTo_aligned h id)
  · exact congrArg _ (jumpTo_misaligned h _)
  · exact congrArg _ (jumpTo_misaligned h _)
  · exact congrArg _ (jumpTo_misaligned h _)

end Sys2Proof.Laws
end

section
/-!
Traps that instructions raise, and the return from a handler (R152, R196 to R198, R304 to R306).
-/

namespace Sys2Proof.Machine

/-- The team has noted a trap that has yet to enter (R304). -/
def Team.noted (t : Team) (r : TrapReq) : Team := { t with trapReq := some r }

end Sys2Proof.Machine

namespace Sys2Proof.Laws

open Sys2Proof Sys2Proof.Machine

variable {s : State} {r : TrapReq}

/-! ### Entry to a handler (R304, R305) -/

/-- A trap that a team has noted takes no part in what makes a crewed command an orphan (R299). -/
theorem orphans_noted (s : State) (r : TrapReq) : (s.setTeam (s.team.noted r)).orphans (s.team.noted r) = s.orphans s.team := by
  have hid (id : Nat) : ∃ y, (s.setTeam (s.team.noted r)).teamAt id = { s.teamAt id with trapReq := y } := by
    rcases eq_or_ne id s.cur with rfl | hne
    · exact ⟨some r, State.team_setTeam s _⟩
    · exact ⟨(s.teamAt id).trapReq, State.teamAt_setTeam_other s _ hne⟩
  have hc : (s.setTeam (s.team.noted r)).orphaned (s.team.noted r) = s.orphaned s.team := by
    funext c
    unfold State.orphaned
    congr 1
    cases c.crewN with
    | none => rfl
    | some n =>
      refine congrArg (List.any _) (funext fun id => ?_)
      obtain ⟨y, hy⟩ := hid id
      rw [hy]
      rfl
  exact congrArg (fun f => ((s.sequencer s.team.gq).filter f).map MatCmd.op) hc

theorem cancelOrphans_of_nil (h : s.orphans s.team = []) : s.cancelOrphans = s := by
  unfold State.cancelOrphans
  exact if_pos (List.isEmpty_iff.mpr h)

theorem traceTeam_of_not {kind seq : Nat} {pc val : Word} {lidx : BitVec 32}
    (h : s.traces s.team.core s.team.pstat.tag kind = false) : s.traceTeam kind pc seq lidx val = s := if_neg (by simp [h])

theorem countEvent_of_stopped {core event n : Nat} {tag : BitVec 16} (h : (s.dbg core).run = false) :
    s.countEvent core tag event n = s := if_neg (by simp [h])

/-- What follows the writes of an entry, when the debug unit observes nothing. -/
theorem enterTrap_unobserved (htr : s.traces s.team.core s.team.pstat.tag 3 = false) (hrun : (s.dbg s.team.core).run = false)
    (r : TrapReq) : s.enterTrap r = s.setTeam (s.team.enter r (s.groupAt s.team.group).handler) := by
  have hteam : (s.upd fun t => t.enter r (s.groupOf t).handler).team = s.team.enter r (s.groupAt s.team.group).handler :=
    State.team_upd s _
  have htr' : (s.upd fun t => t.enter r (s.groupOf t).handler).traces s.team.core s.team.pstat.tag 3 = false :=
    (traces_congr rfl rfl _ _ _).trans htr
  unfold State.enterTrap
  dsimp only
  rw [traceTeam_of_not (by rw [hteam]; exact htr')]
  split
  · exact countEvent_of_stopped (by rw [hteam]; exact hrun)
  · rfl

/-- A trap that nothing holds enters the handler at once. -/
theorem raise_of_canEnter (h : s.canEnter) (r : TrapReq) :
    s.raise r = s.setTeam (s.team.inHandler (s.groupAt s.team.group).handler r) := by
  obtain ⟨hinh, hq, hp, ho, htr, hrun⟩ := h
  have hteam : (s.setTeam (s.team.noted r)).team = s.team.noted r := State.team_setTeam s _
  have horphans : (s.setTeam (s.team.noted r)).cancelOrphans = s.setTeam (s.team.noted r) :=
    cancelOrphans_of_nil (by rw [hteam, orphans_noted, ho])
  have hready : (s.team.noted r).entryReady = true := by
    change (s.team.laneq.isEmpty && !s.team.regPending) = true
    rw [hq, hp]
    rfl
  have henter : (s.setTeam (s.team.noted r)).enterTrap r = s.setTeam (s.team.inHandler (s.groupAt s.team.group).handler r) := by
    rw [enterTrap_unobserved (by rw [hteam]; exact (traces_congr rfl rfl _ _ _).trans htr) (by rw [hteam]; exact hrun), hteam,
      setTeam_twice]
    rfl
  change (s.setTeam (s.team.noted r)).completeEntry = _
  have hreq : (s.team.noted r).trapReq = some r := rfl
  have hlevel : (s.team.noted r).pstat.inh = false := hinh
  simp only [State.completeEntry, hteam, hreq, hlevel, horphans, hready, henter, Bool.false_eq_true, if_false, if_true]

theorem gives_raise {i : Instr} (hc : s.canEnter) (h : exec i s = .next (s.raise r)) :
    Gives i s (s.team.inHandler (s.groupAt s.team.group).handler r) := by
  rw [Gives, h, raise_of_canEnter hc]

/-! ### Instructions that trap (R152, R196, R197) -/

theorem exec_trap_cause {a b : BitVec 6} (h1 : 1 ≤ (s.team.reg a).toNat) (h2 : (s.team.reg a).toNat ≤ 0x14) :
    exec (.trap a b) s = .next (s.raise (s.team.here (s.team.reg a).toNat true (s.team.reg b))) :=
  congrArg _ (if_pos ⟨h1, h2⟩)

theorem exec_trap_illegal {a b : BitVec 6} (h : (s.team.reg a).toNat = 0 ∨ 0x14 < (s.team.reg a).toNat) :
    exec (.trap a b) s = .next (s.illegal (encode (.trap a b))) :=
  congrArg _ (if_neg (by omega))

theorem exec_brk (h : (s.dbg s.team.core).dbg.owner ≠ 0xFE) : exec .brk s = .next (s.trap 0x0D 0) := by
  have hb : s.brkHalts s.team = false := by simp [State.brkHalts, h]
  exact congrArg _ (if_neg (by simp [hb]))

theorem exec_unassigned (w : BitVec 32) : exec (.unassignedScalarWord w) s = .next (s.trap 0x01 (w.zeroExtend 64)) := by
  change Host.Outcome.next (s.trap 0x01 (BitVec.ofNat 64 w.toNat)) = _
  rw [BitVec.ofNat_toNat]

/-- Settles O8: each of them raises a trap at its own address, which enters the handler. -/
theorem trapInstructions : Obligations.TrapInstructions := by
  intro s a b w hc t h
  refine ⟨fun h1 h2 => gives_raise hc (exec_trap_cause h1 h2), fun hb => gives_raise hc (exec_brk hb),
    gives_raise hc (exec_unassigned w), fun ha => gives_raise hc (exec_trap_illegal ha)⟩

/-! ### `eret` (R198, R306) -/

theorem resumeTest_noIndex {word : Nat} (hx : s.isExt s.team (s.team.trappc - 4#64).toNat = false)
    (hl : s.team.traplidx = 0xFFFFFFFF#32) : s.resumeTest s.team word = .block none := by
  simp only [State.resumeTest, hx, hl, Bool.false_eq_true, if_false, if_true]

theorem leave_noIndex {t : Team} (hl : t.traplidx = 0xFFFFFFFF#32) (f : Frame) (hdr : Option LaneBlock) :
    t.leave f hdr = { t with
      pstat := { t.pstat with pl := f.pl, inh := f.inh, stp := f.stp, n := f.n, z := f.z, c := f.c, v := f.v,
                              mz := f.mz, ma := f.ma },
      srctr := f.srctr, tok := f.tok, frame := none, seqctr := t.trapseq.extractLsb' 0 32, pc := t.trappc,
      pend := t.pend.map (fun p => { p with inFrame := false }), lidx := none, lhdr := none, came := none } := by
  simp only [Team.leave, hl, if_true, setWidth_low]

theorem eretReturns : Claims.EretReturns := by
  intro s f t hpl hinh hot htz hf hl hx hp htr
  refine gives_of_eq ?_ (leave_noIndex hl f none)
  change execEret s = _
  have hp' : (t.leave f none).pstat.p = false := hp
  simp only [execEret, State.upd, hpl, hinh, hot, htz, hf, resumeTest_noIndex hx hl, traceTeam_of_not htr, Option.getD_some, hp',
    Bool.not_true, Bool.false_eq_true, if_false, t]

theorem eretRefused : Claims.EretRefused := by
  intro s t
  refine ⟨fun hpl => congrArg _ (if_pos hpl), fun hpl hinh => ?_, fun hpl hinh hot htz => ?_⟩
  · exact congrArg _ ((if_neg hpl).trans (if_pos ((congrArg Bool.not hinh).trans rfl)))
  · change execEret s = _
    simp only [execEret, hpl, hinh, hot, htz, t, Bool.not_true, Bool.not_false, Bool.false_eq_true, if_false, if_true]

/-- Settles O9: the tests of `eret` in their order; the frame of the trap goes back. -/
theorem eret : Obligations.Eret := ⟨eretReturns, eretRefused⟩

end Sys2Proof.Laws
end

section
/-!
Scalar binary32 (R178 to R181).
-/

namespace Sys2Proof.Laws

open Sys2Proof Sys2Proof.Machine

variable {s : State} {i : Instr} {d a b : BitVec 6} {r : BitVec 3}

/-! ### Operands, rounding modes and results -/

theorem fld_toNat (x : Word) (lo len : Nat) : fld x.toNat lo len = (x.extractLsb' lo len).toNat := by
  rw [BitVec.extractLsb'_toNat, Nat.shiftRight_eq_div_pow, fld]

theorem f32_eq (t : Team) (a : BitVec 6) : t.f32 a = ((t.reg a).extractLsb' 0 32).toNat := by
  rw [← fld_toNat, fld, Nat.pow_zero, Nat.div_one, Team.f32]

theorem decode_f32 (t : Team) (a : BitVec 6) : fmtF32.decode (t.f32 a) = t.f32v a := by
  rw [f32_eq, Team.f32v]

theorem resolveRnd_eq (t : Team) (r : BitVec 3) : resolveRnd r.toNat t.fmt = t.fpMode r := by
  have h7 : r.toNat = 7 ↔ r = 7#3 := (BitVec.toNat_inj (y := 7#3))
  simp only [resolveRnd, Team.fpMode, fld_toNat, h7]

theorem scalarRnd_eq (t : Team) (r : BitVec 3) : t.scalarRnd r = t.fpRnd r := by
  rw [Team.scalarRnd, Team.scalarBits, resolveRnd_eq, fld_toNat, Team.fpRnd]

/-- A result goes into the register, and SRCTR advances under SR (R67). -/
theorem countSr_advance (t : Team) (d : BitVec 6) (r : BitVec 3) (x : Word) :
    ((t.setReg d x).countSr r).advance = t.fpWrote d r x := by
  have hm : resolveRnd r.toNat (t.setReg d x).fmt = t.fpMode r := by rw [Team.setReg_fmt, resolveRnd_eq]
  have hw := setReg_advance t d x
  unfold Team.countSr Team.fpWrote
  rw [hm, ← hw]
  split
  · rw [← Team.setReg_srctr t d x]
    rfl
  · rw [← Team.setReg_srctr t d x]
    rfl

theorem putF32_eq (t : Team) (d : BitVec 6) (r : BitVec 3) (x : Nat) :
    t.putF32 d r x = t.fpWrote d r (BitVec.ofNat 64 (x % 2 ^ 32)) := countSr_advance t d r _

/-- An operation of binary32 gives the rounded value. -/
theorem gives_fpOp {f : Rnd → FVal → FVal → FVal → FVal} (hwf : i.wf = true)
    (h : exec i s = guarded i s (.next (s.fpOp f d a b r))) :
    Gives i s (s.team.fpWrote d r (BitVec.ofNat 64 ((fmtF32.ofVal (s.team.fpRnd r) false
      (f (s.team.fpRnd r) (s.team.f32v a) (s.team.f32v b) (s.team.f32v d))).code % 2 ^ 32))) := by
  have hop := exec_of_wf hwf h
  simp only [State.fpOp, State.upd, putF32_eq, scalarRnd_eq, decode_f32] at hop
  exact hop

theorem gives_cvtF32S32 (hwf : rndOk r = true) : Gives (.cvtF32S32 d a r) s (s.team.fpWrote d r (BitVec.ofNat 64
    ((fmtF32.ofVal (s.team.fpRnd r) false (FVal.ofInt ((s.team.reg a).extractLsb' 0 32).toInt)).code % 2 ^ 32))) := by
  have hx : sext (s.team.f32 a) 32 = ((s.team.reg a).extractLsb' 0 32).toInt := by
    rw [f32_eq, sext_eq_toInt, BitVec.ofNat_toNat, BitVec.setWidth_eq]
  have hop : exec (.cvtF32S32 d a r) s = .next (s.setTeam (s.team.putF32 d r _)) := exec_of_wf (i := .cvtF32S32 d a r) hwf rfl
  rwa [putF32_eq, scalarRnd_eq, hx] at hop

theorem gives_cvtS32F32 (hwf : rndOk r = true) : Gives (.cvtS32F32 d a r) s (s.team.fpWrote d r
    (BitVec.ofInt 64 ((s.team.f32v a).toInt (s.team.fpRnd r) (-2147483648) 2147483647))) := by
  have hop : exec (.cvtS32F32 d a r) s = .next (s.setTeam (((s.team.setReg d _).countSr r).advance)) :=
    exec_of_wf (i := .cvtS32F32 d a r) hwf rfl
  rwa [countSr_advance, scalarRnd_eq, decode_f32] at hop

theorem scalarFloatResults : Claims.ScalarFloatResults := by
  intro s d a b r hr t m put
  have hwf : rndOk r = true := decide_eq_true fun h => hr (BitVec.eq_of_toNat_eq h)
  exact ⟨gives_fpOp (i := .faddF32 d a b r) (f := fun m x y _ => FVal.add m x y) hwf rfl,
    gives_fpOp (i := .fsubF32 d a b r) (f := fun m x y _ => FVal.add m x y.neg) hwf rfl,
    gives_fpOp (i := .fmulF32 d a b r) (f := fun _ x y _ => FVal.mul x y) hwf rfl,
    gives_fpOp (i := .ffmaF32 d a b r) (f := fun m x y z => FVal.fma m x y z) hwf rfl,
    gives_cvtF32S32 hwf, gives_cvtS32F32 hwf⟩

/-! ### Minimum, maximum and comparison -/

theorem minMax_nan_nan {f : FFmt} {isMax : Bool} {x y : Nat} (hx : f.decode x = .nan) (hy : f.decode y = .nan) :
    f.minMax isMax x y = f.nan := by
  rw [FFmt.minMax, hx, hy]

theorem minMax_nan_left {f : FFmt} {isMax : Bool} {x y : Nat} (hx : f.decode x = .nan) (hy : f.decode y ≠ .nan) :
    f.minMax isMax x y = y := by
  unfold FFmt.minMax
  dsimp only
  split <;> simp_all

theorem minMax_nan_right {f : FFmt} {isMax : Bool} {x y : Nat} (hx : f.decode x ≠ .nan) (hy : f.decode y = .nan) :
    f.minMax isMax x y = x := by
  unfold FFmt.minMax
  dsimp only
  split <;> simp_all

/-- The first of two numbers lies below the second; of two zeros -0 does (R178). -/
def below (x y : FVal) : Bool := x.lt y || (!y.lt x && x.isNeg && !y.isNeg)

theorem minMax_numbers {f : FFmt} {isMax : Bool} {x y : Nat} (hx : f.decode x ≠ .nan) (hy : f.decode y ≠ .nan) :
    f.minMax isMax x y = if below (f.decode x) (f.decode y) = isMax then y else x := by
  unfold FFmt.minMax
  dsimp only
  split
  · simp_all
  · simp_all
  · simp_all
  · rfl

theorem minMax32_absent {isMax : Bool} {x y : Nat} (h : fmtF32.decode x = .absent ∨ fmtF32.decode y = .absent) :
    minMax32 isMax x y = fmtF32.absent := if_pos h

theorem minMax32_present {isMax : Bool} {x y : Nat} (hx : fmtF32.decode x ≠ .absent) (hy : fmtF32.decode y ≠ .absent) :
    minMax32 isMax x y = fmtF32.minMax isMax x y := if_neg (not_or.mpr ⟨hx, hy⟩)

/-- The code of an operand as the word that holds it. -/
theorem ofNat_f32 (t : Team) (a : BitVec 6) : BitVec.ofNat 64 (t.f32 a) = ((t.reg a).extractLsb' 0 32).zeroExtend 64 := by
  rw [f32_eq, BitVec.ofNat_toNat]

/-- `fmin` and `fmax` write the code that the table of R178 chooses. -/
theorem gives_minMax {isMax : Bool} {n : Nat} (h : exec i s = .next (s.fpMinMax isMax d a b))
    (hn : minMax32 isMax (s.team.f32 a) (s.team.f32 b) = n) : Gives i s (s.team.wrote d (BitVec.ofNat 64 n) 4) :=
  gives_wrote (h.trans (congrArg (fun t => Host.Outcome.next (s.setTeam t)) (setReg_advance _ _ _))) (congrArg _ hn)

/-- The code is that of an operand. -/
theorem gives_operand {isMax : Bool} (c : BitVec 6) (h : exec i s = .next (s.fpMinMax isMax d a b))
    (hn : minMax32 isMax (s.team.f32 a) (s.team.f32 b) = s.team.f32 c) :
    Gives i s (s.team.wrote d ((s.team.reg c).extractLsb' 0 32 |>.zeroExtend 64) 4) :=
  ofNat_f32 s.team c ▸ gives_minMax h hn

/-- Both give what they agree on. -/
theorem gives_both {u : Team} (hmin : Gives (.fminF32 d a b) s u) (hmax : Gives (.fmaxF32 d a b) s u) :
    ∀ i ∈ [Instr.fminF32 d a b, .fmaxF32 d a b], Gives i s u := by
  simp only [List.mem_cons, List.not_mem_nil, or_false]
  rintro i (rfl | rfl)
  · exact hmin
  · exact hmax

theorem gives_fcmp {f : Nzcv} (h : fcmpFlags (s.team.f32v a) (s.team.f32v b) = f) : Gives (.fcmpF32 a b) s { s.team with
    pc := s.team.pc + 4, pstat := { s.team.pstat with n := f.n, z := f.z, c := f.c, v := f.v } } := by
  rw [← h, ← decode_f32, ← decode_f32]
  rfl

theorem fcmpFlags_numbers {x y : FVal} (ha : ¬ (x = .absent ∨ y = .absent)) (hn : ¬ (x = .nan ∨ y = .nan)) :
    fcmpFlags x y = if x.lt y then ⟨true, false, false, false⟩ else if y.lt x then ⟨false, false, true, false⟩
      else ⟨false, true, true, false⟩ := by
  rw [fcmpFlags, if_neg ha, if_neg hn]

theorem scalarFloatCompare : Claims.ScalarFloatCompare := by
  intro s d a b t x y flags takesA takesB least most
  have hx : fmtF32.decode (t.f32 a) = x := decode_f32 t a
  have hy : fmtF32.decode (t.f32 b) = y := decode_f32 t b
  refine ⟨fun h => ?absent, fun hxa hya => ?_⟩
  case absent =>
    have hn (isMax : Bool) : minMax32 isMax (t.f32 a) (t.f32 b) = fmtF32.absent := minMax32_absent (by rwa [hx, hy])
    exact ⟨gives_minMax (i := .fminF32 d a b) rfl (hn false), gives_minMax (i := .fmaxF32 d a b) rfl (hn true),
      gives_fcmp (if_pos h)⟩
  have ha : ¬ (x = .absent ∨ y = .absent) := not_or.mpr ⟨hxa, hya⟩
  have hm (isMax : Bool) : minMax32 isMax (t.f32 a) (t.f32 b) = fmtF32.minMax isMax (t.f32 a) (t.f32 b) :=
    minMax32_present (by rwa [hx]) (by rwa [hy])
  have takesLeast (c : BitVec 6) (h : fmtF32.minMax false (t.f32 a) (t.f32 b) = t.f32 c) :=
    gives_operand (i := .fminF32 d a b) c rfl ((hm false).trans h)
  have takesMost (c : BitVec 6) (h : fmtF32.minMax true (t.f32 a) (t.f32 b) = t.f32 c) :=
    gives_operand (i := .fmaxF32 d a b) c rfl ((hm true).trans h)
  refine ⟨fun h => gives_fcmp ((if_neg ha).trans (if_pos h)), fun hxn hyn => ?nans, fun hxn hyn => ?nanLeft,
    fun hxn hyn => ?nanRight, fun hxn hyn => ?numbers⟩
  case nans =>
    have hn (isMax : Bool) : minMax32 isMax (t.f32 a) (t.f32 b) = fmtF32.nan :=
      (hm isMax).trans (minMax_nan_nan (by rw [hx, hxn]) (by rw [hy, hyn]))
    exact gives_both (gives_minMax rfl (hn false)) (gives_minMax rfl (hn true))
  case nanLeft =>
    have hn (isMax : Bool) := minMax_nan_left (isMax := isMax) (hx.trans hxn) (hy ▸ hyn)
    exact gives_both (takesLeast b (hn false)) (takesMost b (hn true))
  case nanRight =>
    have hn (isMax : Bool) := minMax_nan_right (isMax := isMax) (hx ▸ hxn) (hy.trans hyn)
    exact gives_both (takesLeast a (hn false)) (takesMost a (hn true))
  case numbers =>
    have hn (isMax : Bool) : fmtF32.minMax isMax (t.f32 a) (t.f32 b) = if below x y = isMax then t.f32 b else t.f32 a := by
      rw [minMax_numbers (by rwa [hx]) (by rwa [hy]), hx, hy]
    have hflags := fcmpFlags_numbers ha (not_or.mpr ⟨hxn, hyn⟩)
    have ifBelow (h : below x y = true) : takesA least ∧ takesB most :=
      ⟨takesLeast a ((hn false).trans (if_neg (by simp [h]))), takesMost b ((hn true).trans (if_pos h))⟩
    have ifNot (h : below x y = false) : takesB least ∧ takesA most :=
      ⟨takesLeast b ((hn false).trans (if_pos h)), takesMost a ((hn true).trans (if_neg (by simp [h])))⟩
    refine ⟨fun hlt => ?_, fun hlt hgt => ?_, fun hlt hgt => ?_⟩
    · exact ⟨gives_fcmp (hflags.trans (if_pos hlt)), ifBelow (by simp [below, hlt])⟩
    · exact ⟨gives_fcmp (hflags.trans ((if_neg hlt).trans (if_pos hgt))), ifNot (by simp [below, hlt, hgt])⟩
    · refine ⟨gives_fcmp (hflags.trans ((if_neg hlt).trans (if_neg hgt))),
        fun hxs hys => ifBelow (by simp [below, hlt, hgt, hxs, hys]), fun hxs _ => ifNot (by simp [below, hlt, hxs]),
        fun hs => ?_⟩
      obtain ⟨hleast, hmost⟩ := ifNot (by cases h : y.isNeg <;> simp [below, hlt, hs, h])
      simp only [List.mem_cons, List.not_mem_nil, or_false]
      rintro i (rfl | rfl)
      · exact .inr hleast
      · exact .inl hmost

/-- Settles O11: operands and modes are those of the registers and FMT; of two operands the one that R178 names is written. -/
theorem scalarFloat : Obligations.ScalarFloat := ⟨scalarFloatResults, scalarFloatCompare⟩

end Sys2Proof.Laws
end

section
/-!
The instructions that watch the lane queue and the tokens and set formats (R182 to R184, R187, R196), and those on whole masks and
stream slots (R188, R189).
-/

namespace Sys2Proof.Laws

open Sys2Proof Sys2Proof.Machine

variable {s : State} {i : Instr} {d a b : BitVec 6}

/-! ### Queue, tokens, formats -/

theorem exec_wait {k : BitVec 4} {n : BitVec 6} (h : s.orphanBlocks s.team k.toNat n.toNat = false) :
    exec (.wait k n) s = .next (if s.team.queuedPost k.toNat = true ∨ n.toNat < (s.team.token k.toNat).count then s
      else s.upd Team.advance) :=
  congrArg _ (if_neg (by simp [h]))

theorem tkrd_team (t : Team) (d : BitVec 6) (k : Nat) :
    ((t.setReg d (tokenWord (t.token k))).setToken k { t.token k with cancel := false }).advance
      = { t.wrote d (BitVec.ofNat 64 ((t.token k).count + if (t.token k).cancel then 64 else 0)) 4 with
          tok := Store.set {} t.tok k { t.token k with cancel := false } } := by
  rw [setReg_eq]
  rfl

/-- The test of R65, field by field. -/
theorem fmtOk_iff (x : Word) : fmtOk x = true ↔
    x.extractLsb' 0 3 ≠ 0#3 ∧ x.extractLsb' 5 2 ≠ 3#2 ∧ x.extractLsb' 7 3 ≤ 5#3 ∧ x.extractLsb' 18 46 = 0#46 := by
  have hhigh : x.toNat < 2 ^ 18 ↔ x.extractLsb' 18 46 = 0#46 := by
    rw [← BitVec.toNat_inj, ← fld_toNat, fld, BitVec.toNat_ofNat]
    omega
  simp only [fmtOk, Bool.and_eq_true, decide_eq_true_eq, and_assoc, fld_toNat]
  exact and_congr (not_congr (BitVec.toNat_inj (y := 0#3))) (and_congr (not_congr (BitVec.toNat_inj (y := 3#2)))
    (and_congr Iff.rfl hhigh))

theorem exec_fmtset_ok (h : fmtOk (s.team.reg a) = true) :
    Gives (.fmtset a) s { s.team with pc := s.team.pc + 4, fmt := s.team.reg a } :=
  congrArg Host.Outcome.next (if_pos h)

theorem exec_fmtset_refused (h : ¬ fmtOk (s.team.reg a) = true) :
    exec (.fmtset a) s = .next (s.trap 0x01 (BitVec.ofNat 64 (encode (.fmtset a)))) :=
  congrArg Host.Outcome.next (if_neg h)

/-- Settles O13: each is one change of the team, or none while it is held; `fmtset` tests the fields of R65. -/
theorem queueTokensFormats : Obligations.QueueTokensFormats := by
  intro s d a b k n t x
  refine ⟨rfl, fun h => congrArg Host.Outcome.next (if_pos (List.isEmpty_iff.mpr h)),
    fun h => congrArg Host.Outcome.next (if_neg fun he => h (List.isEmpty_iff.mp he)), gives_of_eq rfl (setReg_advance _ _ _),
    fun ho hp hc => ?_, fun ho h => ?_, gives_of_eq rfl (tkrd_team _ _ _), rfl, gives_of_eq rfl (setReg_advance _ _ _), rfl,
    fun h0 h5 h7 h18 => exec_fmtset_ok ((fmtOk_iff x).mpr ⟨h0, h5, h7, h18⟩), fun h => exec_fmtset_refused fun hok => ?_⟩
  · refine (exec_wait ho).trans (congrArg _ (if_neg ?_))
    rintro (h | h)
    · exact absurd h (by simp [t] at hp; simp [hp])
    · exact absurd h (not_lt.mpr hc)
  · exact (exec_wait ho).trans (congrArg _ (if_pos h))
  · obtain ⟨h0, h5, h7, h18⟩ := (fmtOk_iff x).mp hok
    rcases h with h | h | h | h
    · exact h0 h
    · exact h5 h
    · exact absurd h7 (BitVec.not_le.mpr h)
    · exact h h18

/-! ### Bits of masks -/

theorem countBits_eq (x : Mask) (n : Nat) : countBits x n = ((List.range n).filter x.getLsbD).length := by
  induction n with
  | zero => rfl
  | succ n ih => cases h : x.getLsbD n <;> simp [countBits, List.range_succ, ih, h]

theorem firstBit_eq (x : Mask) (n i : Nat) : firstBit x i n = ((List.range' i n).filter x.getLsbD).head? := by
  induction n generalizing i with
  | zero => rfl
  | succ n ih => cases h : x.getLsbD i <;> simp [firstBit, List.range'_succ, ih, h]

/-- The bits a to b - 1 (R188). -/
theorem getLsbD_rangeMask (a b : Nat) {l : Nat} (hl : l < 1024) :
    (rangeMask a b).getLsbD l = (decide (a ≤ l) && decide (l < b)) := by
  have hpow {k m : Nat} (h : k ≤ m) : 2 ^ m - 2 ^ k = 2 ^ k * (2 ^ (m - k) - 1) := by
    rw [Nat.mul_sub, ← Nat.pow_add, Nat.add_sub_cancel' h, Nat.mul_one]
  rw [rangeMask, BitVec.getLsbD_ofNat, hpow (min_le_right _ _), Nat.testBit_two_pow_mul, Nat.testBit_two_pow_sub_one]
  simp only [hl, decide_true, Bool.true_and, ge_iff_le, ← Bool.decide_and]
  refine decide_eq_decide.mpr ?_
  omega

theorem mask_eq_iff {x y : Mask} : x = y ↔ ∀ l < 1024, x.getLsbD l = y.getLsbD l :=
  ⟨fun h _ _ => by rw [h], fun h => BitVec.eq_of_getLsbD_eq h⟩

/-! ### Whole masks -/

/-- A write of a mask other than m0. -/
theorem writesMask_of_setMask {x : Mask} {f : Nat → Bool} (hd : 1 ≤ d.toNat)
    (h : exec i s = .next (s.setTeam (s.team.setMask d.toNat x).advance)) (hf : ∀ l < 1024, x.getLsbD l = f l) :
    WritesMask i s d f := by
  have hd0 : d.toNat ≠ 0 := by omega
  refine ⟨_, h, ?_, fun l hl => ?_, fun n hn => Team.mask_setMask_other s.team x hn⟩
  · rw [Team.setMask, if_neg hd0]
    rfl
  · change ((s.team.setMask d.toNat x).mask d.toNat).getLsbD l = _
    rw [Team.mask_setMask_same _ _ hd0, BitVec.getLsbD_and, BitVec.getLsbD_ofNat, Nat.testBit_two_pow_sub_one, hf l hl, Team.lanes,
      Bool.and_comm]
    simp [hl]

theorem maskDstOk_of (h1 : 1 ≤ d.toNat) (h2 : d.toNat < 16) : maskDstOk d = true := by
  rw [maskDstOk, decide_eq_true (show 0 < d.toNat from h1), decide_eq_true h2]
  rfl

theorem maskOp_eq {g : Mask → Mask → Mask} (hh : s.team.maskHeld [a.toNat, b.toNat] d.toNat = false) :
    s.maskOp g d a b = s.setTeam (s.team.setMask d.toNat (g (s.team.mask a.toNat) (s.team.mask b.toNat))).advance :=
  if_neg (Bool.eq_false_iff.mp hh)

theorem maskResults : Claims.MaskResults := by
  intro s d a b hd hd' ha hb hh t x y
  have hdst : maskDstOk d = true := maskDstOk_of hd hd'
  have hwf : (maskDstOk d && maskSrcOk a && maskSrcOk b) = true := by
    rw [hdst, show maskSrcOk a = true from decide_eq_true ha, show maskSrcOk b = true from decide_eq_true hb]
    rfl
  have hwf' : (maskDstOk d && maskSrcOk a) = true := by
    rw [hdst, show maskSrcOk a = true from decide_eq_true ha]
    rfl
  have hh' : t.maskHeld [a.toNat, a.toNat] d.toNat = false := by
    simp only [Team.maskHeld, List.any_cons, List.any_nil, Bool.or_false, Bool.or_eq_false_iff] at hh ⊢
    exact ⟨⟨hh.1.1, hh.1.1⟩, hh.2⟩
  refine ⟨?_, ?_, ?_, ?_⟩
  · exact writesMask_of_setMask hd ((exec_of_wf (i := .mand d a b) hwf rfl).trans (congrArg _ (maskOp_eq hh)))
      fun l _ => BitVec.getLsbD_and
  · exact writesMask_of_setMask hd ((exec_of_wf (i := .mor d a b) hwf rfl).trans (congrArg _ (maskOp_eq hh)))
      fun l _ => BitVec.getLsbD_or
  · exact writesMask_of_setMask hd ((exec_of_wf (i := .mxor d a b) hwf rfl).trans (congrArg _ (maskOp_eq hh)))
      fun l _ => BitVec.getLsbD_xor
  · exact writesMask_of_setMask hd ((exec_of_wf (i := .mnot d a) hwf' rfl).trans (congrArg _ (maskOp_eq hh')))
      fun l hl => by simp [hl, x, t]

/-! ### Masks and scalar registers -/

/-- The lanes below 1,024 whose bit is set in both masks. -/
def bothLanes (x y : Mask) : List Nat := (List.range 1024).filter fun l => x.getLsbD l && y.getLsbD l

theorem filter_getLsbD_and (x y : Mask) (l : List Nat) :
    l.filter (x &&& y).getLsbD = l.filter fun l => x.getLsbD l && y.getLsbD l :=
  congrArg (List.filter · l) (funext fun _ => BitVec.getLsbD_and)

theorem countBits_and (x y : Mask) : countBits (x &&& y) 1024 = (bothLanes x y).length := by
  rw [countBits_eq, filter_getLsbD_and, bothLanes]

theorem lowest_and (x y : Mask) : lowest (x &&& y)
    = match bothLanes x y with | [] => 0xFFFF_FFFF_FFFF_FFFF#64 | l :: _ => BitVec.ofNat 64 l := by
  rw [lowest, firstBit_eq, filter_getLsbD_and, ← List.range_eq_range', ← bothLanes]
  cases bothLanes x y with
  | nil => rfl
  | cons l ls => rfl

theorem and_eq_zero_iff (x y : Mask) : (x &&& y == 0#1024) = (bothLanes x y).isEmpty := by
  rw [Bool.eq_iff_iff, beq_iff_eq, List.isEmpty_iff, bothLanes, List.filter_eq_nil_iff, mask_eq_iff]
  simp

theorem and_eq_right_iff (x y : Mask) : (x &&& y == y) = (List.range 1024).all fun l => !y.getLsbD l || x.getLsbD l := by
  rw [Bool.eq_iff_iff, beq_iff_eq, List.all_eq_true, mask_eq_iff]
  simp only [List.mem_range, BitVec.getLsbD_and]
  refine forall₂_congr fun l _ => ?_
  cases x.getLsbD l <;> cases y.getLsbD l <;> decide

theorem setMaskFlags_eq (t : Team) (x : Mask) : t.setMaskFlags x = { t with pstat := { t.pstat with
    mz := (bothLanes x t.m0).isEmpty, ma := (List.range 1024).all fun l => !t.m0.getLsbD l || x.getLsbD l } } := by
  rw [Team.setMaskFlags, and_eq_zero_iff, and_eq_right_iff]

theorem maskRead_eq {g : Mask → Word} (hh : s.team.maskHeld [a.toNat] 0 = false) :
    s.maskRead g d a = s.setTeam (s.team.wrote d (g (s.team.mask a.toNat &&& s.team.m0)) 4) :=
  (if_neg (Bool.eq_false_iff.mp hh)).trans (congrArg s.setTeam (setReg_advance _ _ _))

theorem maskScalarResults : Claims.MaskScalarResults := by
  intro s d a b m hm t x live
  have hwf : maskSrcOk m = true := decide_eq_true hm
  have hlive : bothLanes x t.m0 = live := rfl
  have hfirst := lowest_and x t.m0
  have hcount := countBits_and x t.m0
  have hflags := setMaskFlags_eq t x
  rw [hlive] at hfirst hcount hflags
  clear_value live
  refine ⟨fun hh => ⟨?_, ?_, ?_⟩, fun hm1 hh => ?_⟩
  · exact gives_wrote ((exec_of_wf (i := .mcount d m) hwf rfl).trans (congrArg _ (maskRead_eq hh))) (congrArg _ hcount)
  · refine gives_wrote ((exec_of_wf (i := .mfirst d m) hwf rfl).trans (congrArg _ (maskRead_eq hh))) (hfirst.trans ?_)
    cases live <;> rfl
  · have hop : exec (.mtest m) s = .next (s.setTeam (t.setMaskFlags x).advance) :=
      (exec_of_wf (i := .mtest m) hwf rfl).trans (congrArg _ (if_neg (Bool.eq_false_iff.mp hh)))
    rw [hflags] at hop
    exact hop
  · exact writesMask_of_setMask hm1 ((exec_of_wf (i := .mset m a b) (maskDstOk_of hm1 hm) rfl).trans
      (congrArg _ (if_neg (Bool.eq_false_iff.mp hh)))) fun l hl => getLsbD_rangeMask _ _ hl

theorem maskRefused : Claims.MaskRefused := by
  intro s d a b illegal noDest
  have hdst (h : noDest) : maskDstOk d = false := by
    rcases h with rfl | h
    · rfl
    · rw [maskDstOk, decide_eq_false (show ¬ d.toNat < 16 by omega), Bool.and_false]
  have hsrc {m : BitVec 6} (h : 16 ≤ m.toNat) : maskSrcOk m = false := decide_eq_false (by omega)
  refine ⟨fun h => ?_, fun h => ?_, fun h => exec_of_not_wf (i := .mset d a b) (hdst h) rfl, fun h => ?_⟩
  · have hwf : (maskDstOk d && maskSrcOk a && maskSrcOk b) = false := by
      rcases h with h | h | h
      · rw [hdst h, Bool.false_and, Bool.false_and]
      · rw [hsrc h, Bool.and_false, Bool.false_and]
      · rw [hsrc h, Bool.and_false]
    simp only [List.mem_cons, List.not_mem_nil, or_false]
    rintro i (rfl | rfl | rfl)
    · exact exec_of_not_wf (i := .mand d a b) hwf rfl
    · exact exec_of_not_wf (i := .mor d a b) hwf rfl
    · exact exec_of_not_wf (i := .mxor d a b) hwf rfl
  · refine exec_of_not_wf (i := .mnot d a) (show (maskDstOk d && maskSrcOk a) = false from ?_) rfl
    rcases h with h | h
    · rw [hdst h, Bool.false_and]
    · rw [hsrc h, Bool.and_false]
  · simp only [List.mem_cons, List.not_mem_nil, or_false]
    rintro i (rfl | rfl | rfl)
    · exact exec_of_not_wf (i := .mcount d a) (hsrc h) rfl
    · exact exec_of_not_wf (i := .mfirst d a) (hsrc h) rfl
    · exact exec_of_not_wf (i := .mtest a) (hsrc h) rfl

/-! ### Stream slots -/

theorem slotRefused : Claims.SlotRefused := by
  intro s d a b f h
  have hwf : (decide (b.toNat < 4) && decide (f.toNat < 5)) = false := by
    rcases h with h | h
    · rw [decide_eq_false (show ¬ b.toNat < 4 by omega), Bool.false_and]
    · rw [decide_eq_false (show ¬ f.toNat < 5 by omega), Bool.and_false]
  simp only [List.mem_cons, List.not_mem_nil, or_false]
  rintro i (rfl | rfl)
  · exact exec_of_not_wf (i := .qset a b f) hwf rfl
  · exact exec_of_not_wf (i := .qget d b f) hwf rfl

section Slots

variable {f : BitVec 4}

theorem slot_wf (hb : b.toNat < 4) (hf : f.toNat < 5) : (decide (b.toNat < 4) && decide (f.toNat < 5)) = true := by
  rw [decide_eq_true hb, decide_eq_true hf]
  rfl

theorem gives_qget (hb : b.toNat < 4) (hf : f.toNat < 5) (hn : s.team.laneNames (16 + b.toNat) = false) :
    Gives (.qget d b f) s (s.team.wrote d ((s.team.stream b.toNat).read f.toNat) 4) :=
  gives_wrote ((exec_of_wf (i := .qget d b f) (slot_wf hb hf) rfl).trans
    (congrArg _ ((if_neg (Bool.eq_false_iff.mp hn)).trans (congrArg s.setTeam (setReg_advance _ _ _))))) rfl

theorem exec_qset (hb : b.toNat < 4) (hf : f.toNat < 5) (hn : s.team.laneNames (16 + b.toNat) = false) :
    exec (.qset a b f) s = .next (match (s.team.stream b.toNat).write f.toNat (s.team.reg a) with
      | none => s.illegal (encode (.qset a b f))
      | some x => s.upd fun t => { t with q := Store.set {} t.q b.toNat x }.advance) :=
  (exec_of_wf (i := .qset a b f) (slot_wf hb hf) rfl).trans (congrArg _ (if_neg (Bool.eq_false_iff.mp hn)))

/-- `qset` writes the slot that its table gives, and traps ILLEGAL where it gives none. -/
theorem gives_qset (hb : b.toNat < 4) (hf : f.toNat < 5) (hn : s.team.laneNames (16 + b.toNat) = false) {x : Slot}
    (hx : (s.team.stream b.toNat).write f.toNat (s.team.reg a) = some x) :
    Gives (.qset a b f) s { s.team with q := Store.set {} s.team.q b.toNat x, pc := s.team.pc + 4 } := by
  rw [Gives, exec_qset hb hf hn, hx]
  rfl

theorem exec_qset_refused (hb : b.toNat < 4) (hf : f.toNat < 5) (hn : s.team.laneNames (16 + b.toNat) = false)
    (hx : (s.team.stream b.toNat).write f.toNat (s.team.reg a) = none) :
    exec (.qset a b f) s = .next (s.trap 0x01 (BitVec.ofNat 64 (encode (.qset a b f)))) := by
  rw [exec_qset hb hf hn, hx]
  rfl

end Slots

theorem write_kind (x : Slot) (v : Word) : x.write 1 v
    = if v.toNat < 32 ∧ v.toNat % 16 < 0xD then some { x with kind := v.extractLsb' 4 1, ty := v.extractLsb' 0 4 } else none := by
  rw [← bfld_toNat, ← bfld_toNat]
  rfl

theorem write_stride (x : Slot) (v : Word) : x.write 2 v
    = if (v.truncate 32 : BitVec 32).signExtend 64 = v then some { x with stride := v.extractLsb' 0 32 } else none := by
  rw [← setWidth_low]
  rfl

theorem write_count (x : Slot) (v : Word) :
    x.write 3 v = if v.toNat < 2 ^ 32 then some { x with count := v.extractLsb' 0 32 } else none := by
  rw [← setWidth_low]
  rfl

theorem write_pos (x : Slot) (v : Word) :
    x.write 4 v = if v.toNat < 2 ^ 32 then some { x with pos := v.extractLsb' 0 32 } else none := by
  rw [← setWidth_low]
  rfl

/-- A word that is the sign extension of its low half is a number of 32 bits. -/
theorem signExtend_low_iff (v : Word) :
    (v.truncate 32 : BitVec 32).signExtend 64 = v ↔ -2 ^ 31 ≤ v.toInt ∧ v.toInt < 2 ^ 31 := by
  rw [← BitVec.toInt_inj, BitVec.toInt_signExtend_of_le (by decide), BitVec.toInt_eq_toNat_cond, BitVec.toInt_eq_toNat_cond,
    BitVec.truncate_eq_setWidth, BitVec.toNat_setWidth]
  have := v.isLt
  split <;> split <;> omega

theorem streamSlotFields : Claims.StreamSlotFields := by
  intro s d a b hb hn t x q put
  refine ⟨gives_qget (f := 0) hb (by decide) hn, ?_, gives_qget (f := 2) hb (by decide) hn, ?_, ?_,
    gives_qset (f := 0) hb (by decide) hn rfl, fun h hty => ?_, fun hlo hhi => ?_, fun h => ⟨?_, ?_⟩, fun h => ?_, fun h => ?_,
    fun h => ?_⟩
  · rw [Nat.mul_comm]
    exact gives_qget (f := 1) hb (by decide) hn
  · rw [BitVec.ofNat_toNat]
    exact gives_qget (f := 3) hb (by decide) hn
  · rw [BitVec.ofNat_toNat]
    exact gives_qget (f := 4) hb (by decide) hn
  · exact gives_qset (f := 1) hb (by decide) hn ((write_kind q x).trans (if_pos ⟨h, hty⟩))
  · exact gives_qset (f := 2) hb (by decide) hn ((write_stride q x).trans (if_pos ((signExtend_low_iff x).mpr ⟨hlo, hhi⟩)))
  · exact gives_qset (f := 3) hb (by decide) hn ((write_count q x).trans (if_pos h))
  · exact gives_qset (f := 4) hb (by decide) hn ((write_pos q x).trans (if_pos h))
  · exact exec_qset_refused (f := 1) hb (by decide) hn ((write_kind q x).trans (if_neg (by omega)))
  · refine exec_qset_refused (f := 2) hb (by decide) hn ((write_stride q x).trans (if_neg fun hv => ?_))
    obtain ⟨hlo, hhi⟩ := (signExtend_low_iff x).mp hv
    rcases h with h | h
    · exact absurd hlo (not_le.mpr h)
    · exact absurd hhi (not_lt.mpr h)
  · have hv : ¬ x.toNat < 2 ^ 32 := not_lt.mpr h
    simp only [List.mem_cons, List.not_mem_nil, or_false]
    rintro f (rfl | rfl)
    · exact exec_qset_refused (f := 3) hb (by decide) hn ((write_count q x).trans (if_neg hv))
    · exact exec_qset_refused (f := 4) hb (by decide) hn ((write_pos q x).trans (if_neg hv))

/-- Settles O14: masks bit by bit, slots field by field; what the tests of R151 and R189 refuse traps. -/
theorem masksAndSlots : Obligations.MasksAndSlots :=
  ⟨maskResults, maskScalarResults, maskRefused, streamSlotFields, slotRefused⟩

end Sys2Proof.Laws
end

section
/-!
Laws. Scalar loads and stores: what a checked access reads and what it queues (R122, R150, R175, R176).
-/

namespace Sys2Proof.Laws

open Sys2Proof Sys2Proof.Machine

variable {s : State} {t : Team} {g : Bool} {need ea n : Nat} {keys : List Nat}

/-! ### The check of a scalar access -/

/-- Beside the windows the check of a scalar access is the check of every access. -/
theorem scalarCheck_eq_check (h : (s.scalarCheck t g need ea n).keys.any inWindow = false) :
    s.scalarCheck t g need ea n = s.check t g need 0 ea n := by
  cases g with
  | false => rfl
  | true => exact (if_neg (Bool.eq_false_iff.mp h)).symm

theorem checkTrap_of_nil {c : Checked} (h : c.fails = []) : s.checkTrap c = none := by
  rw [State.checkTrap, h]
  rfl

/-- A scalar access of 1, 2, 4 or 8 bytes reaches at most these. -/
theorem reaches_length (h : s.reaches g need ea n keys) : keys.length ≤ n := by
  obtain ⟨-, hkeys, hwin⟩ := h
  rw [← hkeys] at hwin ⊢
  rw [scalarCheck_eq_check hwin]
  exact check_keys_length g need 0 ea n

theorem size_le (z : BitVec 2) : 2 ^ z.toNat ≤ 8 := by
  have hz : z.toNat < 4 := z.isLt
  calc 2 ^ z.toNat ≤ 2 ^ 3 := Nat.pow_le_pow_right (by decide) (by omega)
    _ = 8 := rfl

/-! ### Loads -/

theorem load_lt (keys : List Nat) : s.load t keys < 256 ^ keys.length := by
  have h := leNat_lt (keys.map (s.loadByte t))
  rwa [List.length_map] at h

/-- The bytes of a number that is loaded are the bytes at its keys, the first least significant (R5). -/
theorem byteOf_load {j k : Nat} (hlen : keys.length ≤ 8) (h : keys[j]? = some k) :
    byteOf (BitVec.ofNat 64 (s.load t keys)) j = s.loadByte t k := by
  have hj := (List.getElem?_eq_some_iff.mp h).1
  have hbytes : leBytes keys.length (s.load t keys) = keys.map (s.loadByte t) := by
    have hb := leBytes_leNat (keys.map (s.loadByte t))
    rwa [List.length_map] at hb
  have hget := leBytes_getElem? (x := s.load t keys) hj
  rw [hbytes, List.getElem?_map, h] at hget
  rw [byteOf_ofNat (hj.trans_le hlen)]
  exact (Option.some.inj hget).symm

theorem loadPoisoned_of_none (h : keys.any s.poisoned = false) : s.loadPoisoned t keys = false := by
  rw [State.loadPoisoned, List.any_eq_false]
  intro k hk
  rw [Bool.eq_false_iff.mpr (List.any_eq_false.mp h k hk), Bool.false_and]
  decide

theorem scalarLoad_eq {d a b : BitVec 6} {z : BitVec 2}
    (h : s.reaches g needR (s.team.reg a + s.team.reg b).toNat (2 ^ z.toNat) keys) (hclear : s.clear keys) :
    s.scalarLoad g d a b z = s.setTeam (s.team.wrote d (BitVec.ofNat 64 (s.load s.team keys)) 4) := by
  obtain ⟨hfails, hkeys, hwin⟩ := h
  obtain ⟨hwait, hpoison, hreach, hfab⟩ := hclear
  unfold State.scalarLoad
  dsimp only
  rw [checkTrap_of_nil hfails, hkeys]
  dsimp only
  rw [hwin, hwait, loadPoisoned_of_none hpoison, hreach, hfab]
  simp only [Bool.false_eq_true, if_false]
  rw [setReg_advance]

theorem scalarLoads : Claims.ScalarLoads := by
  intro s i g d a b sc c z keys hi hwf hreach hclear
  have hlen : keys.length ≤ 8 := (reaches_length hreach).trans (size_le z)
  refine ⟨BitVec.ofNat 64 (s.load s.team keys), ?_, ?_, fun j k hk => byteOf_load hlen hk, fun k hk => ?_⟩
  · have hexec : exec i s = guarded i s (.next (s.scalarLoad g d a b z)) := by
      subst hi
      cases g <;> rfl
    exact gives_of_eq ((exec_of_wf hwf hexec).trans (congrArg Host.Outcome.next (scalarLoad_eq hreach hclear))) rfl
  · have hlt := load_lt (s := s) (t := s.team) keys
    have hpow : 256 ^ keys.length ≤ 2 ^ (8 * 2 ^ z.toNat) := by
      rw [Nat.pow_mul]
      exact Nat.pow_le_pow_right (by decide) (reaches_length hreach)
    exact (BitVec.toNat_ofNat _ _).trans_le (Nat.mod_le _ _) |>.trans_lt (hlt.trans_le hpow)
  · rw [State.loadByte, forward_none hk]
    rfl

/-! ### Stores -/

section Queued

variable {first op cycle : Nat} {release : Option Nat} {bs : List (Nat × Byte)} {acquire : Bool} {k : Nat}

theorem what_of_mem_store {w : WriteOp} (h : w ∈ queuedWrites first op cycle release (storeParts ea bs) acquire) :
    ∃ part, w.what = .bytes part ∧ ∀ b ∈ part, b ∈ bs := by
  have hw := List.mem_map_of_mem (f := WriteOp.what) h
  rw [queuedWrites_what, List.mem_map] at hw
  obtain ⟨x, hx, hwx⟩ := hw
  obtain ⟨part, hpart, hsub⟩ := mem_storeParts hx
  exact ⟨part, hwx.symm.trans hpart, hsub⟩

theorem exists_queued_store {b : Nat × Byte} (h : b ∈ bs) :
    ∃ w ∈ queuedWrites first op cycle release (storeParts ea bs) acquire, ∃ part, w.what = .bytes part ∧ b ∈ part := by
  obtain ⟨x, hx, part, hpart, hmem⟩ := exists_storePart (ea := ea) h
  have hw : x.1 ∈ (queuedWrites first op cycle release (storeParts ea bs) acquire).map WriteOp.what := by
    rw [queuedWrites_what]
    exact List.mem_map_of_mem hx
  obtain ⟨w, hmw, hwx⟩ := List.mem_map.mp hw
  exact ⟨w, hmw, part, hwx.trans hpart, hmem⟩

/-- The queue holds each byte of a store that names every place once. -/
theorem forward_store {x : Byte} (hnodup : (bs.map Prod.fst).Nodup) (h : (k, x) ∈ bs) :
    forward (queuedWrites first op cycle release (storeParts ea bs) acquire) k = some x := by
  have hval (w : WriteOp) (hw : w ∈ queuedWrites first op cycle release (storeParts ea bs) acquire) (y : Byte)
      (hy : w.data k = some y) : y = x := by
    obtain ⟨part, hpart, hsub⟩ := what_of_mem_store hw
    exact eq_of_nodup_fst hnodup (data_of_bytes hpart hsub hy) h
  obtain ⟨w, hw, part, hpart, hmem⟩ := exists_queued_store (first := first) (op := op) (cycle := cycle) (release := release)
    (acquire := acquire) (ea := ea) h
  obtain ⟨y, hy⟩ := data_of_mem hpart hmem
  exact forward_some hval ⟨w, hw, (hval w hw y hy) ▸ hy⟩

theorem forward_store_other (h : k ∉ bs.map Prod.fst) :
    forward (queuedWrites first op cycle release (storeParts ea bs) acquire) k = none := by
  refine forward_none fun w hw => ?_
  obtain ⟨part, hpart, hsub⟩ := what_of_mem_store hw
  by_contra hn
  obtain ⟨y, hy⟩ := Option.ne_none_iff_exists'.mp hn
  exact h (List.mem_map.mpr ⟨_, data_of_bytes hpart hsub hy, rfl⟩)

end Queued

theorem spread_fst (keys : List Nat) (x : Nat) : (spread keys x).map Prod.fst = keys := by
  rw [spread, List.map_fst_zip]
  rw [leBytes_length]

section Stored

variable {u : Team} {first cycle : Nat} {release : Option Nat} {x : Word}

/-- Behind its queue the team loads what it has stored (R122). -/
theorem loadByte_stored {j k : Nat} (hnodup : keys.Nodup) (hlen : keys.length ≤ 8) (hk : keys[j]? = some k)
    (hq : u.sdq = t.sdq ++ queuedWrites first 0 cycle release (storeParts ea (spread keys x.toNat)) false)
    (hp : u.pstat = t.pstat) : (s.setTeam u).loadByte u k = byteOf x j := by
  have hj : j < 8 := (List.getElem?_eq_some_iff.mp hk).1.trans_le hlen
  rw [loadByte_queued hq hp, forward_store (by rwa [spread_fst]) (mem_spread hk), ← byteOf_ofNat hj, BitVec.ofNat_toNat,
    BitVec.setWidth_eq]
  rfl

/-- Every other byte it loads as before. -/
theorem loadByte_unstored {k : Nat} (hk : k ∉ keys)
    (hq : u.sdq = t.sdq ++ queuedWrites first 0 cycle release (storeParts ea (spread keys x.toNat)) false)
    (hp : u.pstat = t.pstat) : (s.setTeam u).loadByte u k = s.loadByte t k := by
  rw [loadByte_queued hq hp, forward_store_other (by rwa [spread_fst])]
  rfl

end Stored

/-- Whether a store releases is its ORD alone. -/
theorem storeRelease_isSome (sc : BitVec 4) (c : BitVec 2) : (storeRelease sc c).isSome = decide (c = 2#2) := by
  unfold storeRelease
  split
  · next h => exact (decide_eq_true h).symm
  · next h => exact (decide_eq_false h).symm

theorem scalarStore_eq {d a b : BitVec 6} {release : Option Nat} {z : BitVec 2}
    (h : s.reaches g needW (s.team.reg a + s.team.reg b).toNat (2 ^ z.toNat) keys) (hheld : s.fabricHeld keys = false)
    (hbins : s.team.binsAhead release.isSome keys = false) :
    s.scalarStore g d a b release z
      = s.setTeam ((s.team.noteStale s g keys).addWrites 0 s.cycle release
          (storeParts (s.team.reg a + s.team.reg b).toNat (spread keys (s.team.reg d).toNat))).advance := by
  obtain ⟨hfails, hkeys, hwin⟩ := h
  unfold State.scalarStore
  dsimp only
  rw [checkTrap_of_nil hfails, hkeys]
  dsimp only
  rw [hwin, hheld, hbins]
  rfl

theorem scalarStores : Claims.ScalarStores := by
  intro s i g d a b sc c z keys hi hwf hreach hnodup hheld hbins
  have hexec : exec i s = guarded i s (.next (s.scalarStore g d a b (storeRelease sc c) z)) := by
    subst hi
    cases g <;> rfl
  rw [← storeRelease_isSome sc] at hbins
  have hstep := (exec_of_wf hwf hexec).trans (congrArg Host.Outcome.next (scalarStore_eq hreach hheld hbins))
  obtain ⟨x, hx⟩ := noteStale_eq s.team s g keys
  rw [hx, addWrites_eq] at hstep
  have hlen := (reaches_length hreach).trans (size_le z)
  refine ⟨_, _, gives_of_eq hstep rfl, rfl, fun j k hk => loadByte_stored hnodup hlen hk rfl rfl,
    fun k hk => loadByte_unstored hk rfl rfl, fun w hw => ?_, fun k => rfl⟩
  · obtain ⟨hborn, hdep, -, hrel⟩ := mem_queuedWrites hw
    exact ⟨hborn, hdep, hrel⟩

/-- Settles O17: a load reads the number that its bytes make, a store queues the bytes of a number. -/
theorem scalarLoadsAndStores : Obligations.ScalarLoadsAndStores := ⟨scalarLoads, scalarStores⟩

end Sys2Proof.Laws
end

section
/-!
Laws. Scalar atomics: the operation that is queued, and the integer read-modify-writes of 32 and 64 bits (R177).
-/

namespace Sys2Proof.Laws

open Sys2Proof Sys2Proof.Machine

variable {s : State} {g : Bool} {n : Nat} {k : Nat} {ks : List Nat} {d a b : BitVec 6}

theorem ofNat_toNat_self {w : Nat} (x : BitVec w) : BitVec.ofNat w x.toNat = x := by
  rw [BitVec.ofNat_toNat, BitVec.setWidth_eq]

/-! ### The operation that is queued -/

theorem exec_scalarAtomic {i : Instr} {op : RmwOp} {ty : BitVec 4}
    (h : Instr.scalarAtomic? i = some (g, op, ty, n, d, a, b)) : exec i s = .next (s.scalarAtomic g op ty n d a b) := by
  unfold Instr.scalarAtomic? at h
  split at h <;> cases h <;> rfl

/-- An atomic on aligned bytes that nothing holds is outstanding and queued. -/
theorem scalarAtomic_eq {op : RmwOp} {ty : BitVec 4} (h : s.reaches g needRW (s.team.reg a).toNat n (k :: ks))
    (halign : (s.team.reg a).toNat % n = 0) (hpoison : (k :: ks).any s.poisoned = false)
    (hheld : s.fabricHeld (k :: ks) = false) (hreach : (k :: ks).any s.unreachable = false)
    (hfab : (k :: ks).any onFabric = false) (hbins : s.team.binsAhead false (k :: ks) = false) :
    s.scalarAtomic g op ty n d a b
      = s.setTeam
          (({ s.team with
                pend := s.team.pend ++ [{ id := s.team.nextOp, kind := .atomic, seq := s.team.seqctr, pc := s.team.pc,
                                          born := s.ticks, scalar := some (d.toNat, none),
                                          addr := s.team.reg a }] } : Team).newOp.addWrites
            s.team.nextOp s.cycle none
            [(.atomic { mode := { op := op, ty := ty }, key := k, size := n,
                        val := BitVec.ofNat 64 ((s.team.reg b).toNat % 2 ^ (8 * n)),
                        cmp := BitVec.ofNat 64 ((s.team.reg d).toNat % 2 ^ (8 * n)) }, none)]) := by
  obtain ⟨hfails, hkeys, hwin⟩ := h
  have hfar : (k :: ks).filter onFabric = [] := List.filter_eq_nil_iff.mpr fun x hx => by
    simpa using List.any_eq_false.mp hfab x hx
  unfold State.scalarAtomic
  dsimp only
  rw [hkeys, hwin, if_neg Bool.false_ne_true, if_neg (not_not_intro halign), checkTrap_of_nil hfails]
  dsimp only
  rw [hkeys, hpoison, hheld, hbins, hreach, hfab, hfar, Nat.pow_mul, Team.scalarOp, ofNat_toNat_self]
  rfl

theorem scalarAtomics_claim : Claims.ScalarAtomics := by
  intro s i g op ty n d a b k ks hi hreach halign hpoison hheld hunr hfab hbins
  have hstep := (exec_scalarAtomic (s := s) hi).trans
    (congrArg Host.Outcome.next (scalarAtomic_eq hreach halign hpoison hheld hunr hfab hbins))
  refine ⟨_, gives_of_eq hstep rfl, ?_, rfl, rfl, rfl, rfl⟩
  exact List.any_append.trans (Bool.or_true _)

/-! ### Integer arithmetic -/

/-- What R202 leaves of an integer is the bit vector of it. -/
theorem wrapTo_eq_ofInt (z : Int) (n : Nat) : wrapTo z n = (BitVec.ofInt n z).toNat := by
  rw [wrapTo, BitVec.toNat_ofInt]

theorem wrapTo_toInt {w : Nat} (x : BitVec w) : wrapTo x.toInt w = x.toNat := by
  rw [wrapTo_eq_ofInt, BitVec.ofInt_toInt]

theorem wrapTo_toNat {w : Nat} (x : BitVec w) : wrapTo (x.toNat : Int) w = x.toNat := by
  rw [wrapTo_eq_ofInt, BitVec.ofInt_natCast, ofNat_toNat_self]

theorem wrapTo_add_toNat {w : Nat} (x y : BitVec w) : wrapTo ((x.toNat : Int) + y.toNat) w = (x + y).toNat := by
  rw [wrapTo_eq_ofInt, ← Int.natCast_add, BitVec.ofInt_natCast, BitVec.toNat_ofNat, BitVec.toNat_add]

theorem wrapTo_min_toNat {w : Nat} (x y : BitVec w) : wrapTo (min (x.toNat : Int) y.toNat) w = min x.toNat y.toNat := by
  rcases Nat.le_total x.toNat y.toNat with h | h
  · rw [min_eq_left (Int.ofNat_le.mpr h), min_eq_left h, wrapTo_toNat]
  · rw [min_eq_right (Int.ofNat_le.mpr h), min_eq_right h, wrapTo_toNat]

theorem wrapTo_max_toNat {w : Nat} (x y : BitVec w) : wrapTo (max (x.toNat : Int) y.toNat) w = max x.toNat y.toNat := by
  rcases Nat.le_total x.toNat y.toNat with h | h
  · rw [max_eq_right (Int.ofNat_le.mpr h), max_eq_right h, wrapTo_toNat]
  · rw [max_eq_left (Int.ofNat_le.mpr h), max_eq_left h, wrapTo_toNat]

theorem wrapTo_min_toInt {w : Nat} (x y : BitVec w) :
    wrapTo (min x.toInt y.toInt) w = (if x.slt y then x else y).toNat := by
  rw [BitVec.slt_eq_decide, ← wrapTo_toInt]
  by_cases h : x.toInt < y.toInt
  · rw [min_eq_left h.le, decide_eq_true h, if_pos rfl]
  · rw [min_eq_right (not_lt.mp h), decide_eq_false h, if_neg Bool.false_ne_true]

theorem wrapTo_max_toInt {w : Nat} (x y : BitVec w) :
    wrapTo (max x.toInt y.toInt) w = (if x.slt y then y else x).toNat := by
  rw [BitVec.slt_eq_decide, ← wrapTo_toInt]
  by_cases h : x.toInt < y.toInt
  · rw [max_eq_right h.le, decide_eq_true h, if_pos rfl]
  · rw [max_eq_left (not_lt.mp h), decide_eq_false h, if_neg Bool.false_ne_true]

/-- The value that a word holds in the four types of the scalar atomics. -/
theorem intVal_u64 (x : BitVec 64) : intVal 0xC x.toNat = (x.toNat : Int) :=
  congrArg Nat.cast (Nat.mod_eq_of_lt x.isLt)
theorem intVal_u32 (x : BitVec 32) : intVal 0xB x.toNat = (x.toNat : Int) :=
  congrArg Nat.cast (Nat.mod_eq_of_lt x.isLt)
theorem intVal_s64 (x : BitVec 64) : intVal 8 x.toNat = x.toInt :=
  (sext_eq_toInt x.toNat 63).trans (congrArg BitVec.toInt (ofNat_toNat_self x))
theorem intVal_s32 (x : BitVec 32) : intVal 7 x.toNat = x.toInt :=
  (sext_eq_toInt x.toNat 31).trans (congrArg BitVec.toInt (ofNat_toNat_self x))

section Apply

variable (ty : BitVec 4) (size old : Nat) (v c : BitVec 64)

/-- Without `.ab` and `.sat` the integer operations wrap the exact result (R202). -/
theorem apply_add : ({ mode := { op := .add, ty := ty }, size := size, val := v, cmp := c } : Rmw).apply old
    = some (wrapTo (intVal ty.toNat old + intVal ty.toNat v.toNat) (tyBits ty.toNat)) := rfl
theorem apply_min : ({ mode := { op := .min, ty := ty }, size := size, val := v, cmp := c } : Rmw).apply old
    = some (wrapTo (min (intVal ty.toNat old) (intVal ty.toNat v.toNat)) (tyBits ty.toNat)) := rfl
theorem apply_max : ({ mode := { op := .max, ty := ty }, size := size, val := v, cmp := c } : Rmw).apply old
    = some (wrapTo (max (intVal ty.toNat old) (intVal ty.toNat v.toNat)) (tyBits ty.toNat)) := rfl
theorem apply_and : ({ mode := { op := .and, ty := ty }, size := size, val := v, cmp := c } : Rmw).apply old
    = some (old &&& v.toNat) := rfl
theorem apply_or : ({ mode := { op := .or, ty := ty }, size := size, val := v, cmp := c } : Rmw).apply old
    = some (old ||| v.toNat) := rfl
theorem apply_xor : ({ mode := { op := .xor, ty := ty }, size := size, val := v, cmp := c } : Rmw).apply old
    = some (old ^^^ v.toNat) := rfl
theorem apply_exch : ({ mode := { op := .exch, ty := ty }, size := size, val := v, cmp := c } : Rmw).apply old
    = some v.toNat := rfl
theorem apply_cas : ({ mode := { op := .cas, ty := ty }, size := size, val := v, cmp := c } : Rmw).apply old
    = if old = c.toNat then some v.toNat else none := rfl

end Apply

theorem atomicArithmetic : Claims.AtomicArithmetic := by
  intro old b c o p q
  have hp : (p.zeroExtend 64).toNat = p.toNat := BitVec.toNat_setWidth_of_le (by decide)
  have hq : (q.zeroExtend 64).toNat = q.toNat := BitVec.toNat_setWidth_of_le (by decide)
  have hs64 : (8 : BitVec 4).toNat = 8 ∧ tyBits 8 = 64 := ⟨rfl, rfl⟩
  have hs32 : (7 : BitVec 4).toNat = 7 ∧ tyBits 7 = 32 := ⟨rfl, rfl⟩
  have hu64 : (0xC : BitVec 4).toNat = 0xC ∧ tyBits 0xC = 64 := ⟨rfl, rfl⟩
  have hu32 : (0xB : BitVec 4).toNat = 0xB ∧ tyBits 0xB = 32 := ⟨rfl, rfl⟩
  simp only [apply_add, apply_min, apply_max, apply_and, apply_or, apply_xor, apply_exch, apply_cas, hp, hq, hs64, hs32, hu64,
    hu32, intVal_s64, intVal_s32, intVal_u64, intVal_u32, wrapTo_add_toNat, wrapTo_min_toNat, wrapTo_max_toNat,
    wrapTo_min_toInt, wrapTo_max_toInt, BitVec.toNat_and, BitVec.toNat_or, BitVec.toNat_xor, BitVec.toNat_inj, and_self]

/-- Settles O18: the operation is queued as it stands, and its arithmetic is that of words of its width. -/
theorem scalarAtomics : Obligations.ScalarAtomics := ⟨scalarAtomics_claim, atomicArithmetic⟩

end Sys2Proof.Laws
end

section
/-!
Laws. Submissions and `launch` (R195, R375, R377).
-/

namespace Sys2Proof.Machine

/-- The status of a submission to queue `n` (R375). -/
def State.submitStatus (s : State) (n : Nat) (x : Desc) (serves user : Bool) : Nat :=
  if !serves then 2 else if !s.descOk n x user then 3 else if 256 ≤ (s.queueAt n).pend then 1 else 0

/-- The grid of an accepted submission. -/
def State.submittedGrid (s : State) (n : Nat) (x : Desc) : Grid :=
  { alive := true, queue := n, words := x.words, tag := (s.queueAt n).tag, world := (s.queueAt n).world, ngroups := x.ngroups }

/-- The state with a submission counted and, when it is accepted, its grid queued; its status is still to be stored. -/
def State.submitted (s : State) (n : Nat) (x : Desc) (status : Nat) : State :=
  let q := s.queueAt n
  let s' := s.putQueue n { q with subno := q.subno + 1 }
  if status = 0 then
    let g := { (s'.putGrid s.nextId (s.submittedGrid n x)) with nextId := s.nextId + 1 }
    { g.putQueue n { (g.queueAt n) with work := q.work ++ [{ grid := s.nextId }] } with roundDue := true }
  else s'

end Sys2Proof.Machine

namespace Sys2Proof.Laws

open Sys2Proof Sys2Proof.Machine

variable {s : State} {n : Nat} {x : Desc} {serves user : Bool}

/-! ### A submission -/

theorem submit_eq : ∃ k v, s.submit n x serves user
    = ((s.submitted n x (s.submitStatus n x serves user)).putWord k v, s.submitStatus n x serves user) :=
  ⟨_, _, rfl⟩

theorem submitted_teams (status : Nat) :
    (s.submitted n x status).teams = s.teams ∧ (s.submitted n x status).cur = s.cur := by
  unfold State.submitted
  dsimp only
  by_cases h : status = 0
  · rw [if_pos h]
    exact ⟨rfl, rfl⟩
  · rw [if_neg h]
    exact ⟨rfl, rfl⟩

theorem submitted_team (status : Nat) : (s.submitted n x status).team = s.team := by
  obtain ⟨hteams, hcur⟩ := submitted_teams (s := s) (n := n) (x := x) status
  rw [State.team, State.teamAt, hteams, hcur]
  rfl

theorem submitted_subno (status : Nat) : ((s.submitted n x status).queueAt n).subno = (s.queueAt n).subno + 1 := by
  by_cases h : status = 0
  · subst h
    exact (congrArg Queue.subno (Store.get_set_same _ _ _ _)).trans (congrArg Queue.subno (queueAt_putQueue s n _))
  · unfold State.submitted
    dsimp only
    rw [if_neg h]
    exact congrArg Queue.subno (queueAt_putQueue s n _)

/-- An accepted grid stands at the end of its queue. -/
theorem submitted_work : ((s.submitted n x 0).queueAt n).work = (s.queueAt n).work ++ [{ grid := s.nextId }] :=
  congrArg Queue.work (Store.get_set_same _ _ _ _)

theorem submitted_grid : (s.submitted n x 0).gridAt s.nextId = s.submittedGrid n x := by
  unfold State.submitted
  dsimp only
  rw [if_pos rfl]
  exact Store.get_set_same ({} : Grid) s.grids s.nextId (s.submittedGrid n x)

/-- A refused submission leaves the queue and the grids. -/
theorem submitted_refused {status : Nat} (h : status ≠ 0) :
    ((s.submitted n x status).queueAt n).work = (s.queueAt n).work ∧ (s.submitted n x status).grids = s.grids := by
  unfold State.submitted
  dsimp only
  rw [if_neg h]
  exact ⟨(congrArg Queue.work (queueAt_putQueue s n _)).trans rfl, rfl⟩

/-- A word that the device writes leaves the queues and the grids, and a team that is not parked. -/
theorem frame_putWord (k v : Nat) : (s.putWord k v).queues = s.queues ∧ (s.putWord k v).grids = s.grids
    ∧ (s.putWord k v).cur = s.cur := by
  obtain ⟨p, y, ts, q, d, he, -, -⟩ := perform_eq s (spread (keysFrom k 8) v) true
  refine ⟨?_, ?_, ?_⟩ <;> rw [State.putWord, he]

theorem queueAt_putWord (k v : Nat) : (s.putWord k v).queueAt n = s.queueAt n :=
  congrArg (fun m => Store.get ({} : Queue) m n) (frame_putWord k v).1

theorem gridAt_putWord (k v g : Nat) : (s.putWord k v).gridAt g = s.gridAt g :=
  congrArg (fun m => Store.get ({} : Grid) m g) (frame_putWord k v).2.1

theorem team_putWord (k v : Nat) (h : s.team.park = none) : (s.putWord k v).team = s.team :=
  (congrArg (s.putWord k v).teamAt (frame_putWord k v).2.2).trans ((perform_woken s _ true s.cur).same h)

/-- What a submission leaves, when the team is not parked: its number, the grid of an accepted one, and the rest as it was. -/
theorem submit_spec (hpark : s.team.park = none) : ∃ s', s.submit n x serves user = (s', s.submitStatus n x serves user)
    ∧ s'.team = s.team ∧ (s'.queueAt n).subno = (s.queueAt n).subno + 1
    ∧ (s.submitStatus n x serves user = 0 → (s'.queueAt n).work = (s.queueAt n).work ++ [{ grid := s.nextId }]
        ∧ s'.gridAt s.nextId = s.submittedGrid n x)
    ∧ (s.submitStatus n x serves user ≠ 0 → (s'.queueAt n).work = (s.queueAt n).work ∧ s'.grids = s.grids) := by
  obtain ⟨k, v, hsub⟩ := submit_eq (s := s) (n := n) (x := x) (serves := serves) (user := user)
  generalize s.submitStatus n x serves user = status at *
  refine ⟨_, hsub, ?_, ?_, ?_, ?_⟩
  · rw [team_putWord k v (by rwa [submitted_team]), submitted_team]
  · rw [queueAt_putWord, submitted_subno]
  · rintro rfl
    rw [queueAt_putWord, gridAt_putWord]
    exact ⟨submitted_work, submitted_grid⟩
  · rw [queueAt_putWord, (frame_putWord k v).2.1]
    exact submitted_refused

/-- The status that `launch` finds is that of R375, read in order. -/
theorem submitStatus_eq {q : Queue} (hq : s.queueAt n = q) (tag : BitVec 16) :
    s.submitStatus n x (q.en && q.tag != 0 && q.tag == tag) user
      = if q.en = false ∨ q.tag = 0 ∨ q.tag ≠ tag then 2 else if s.descOk n x user = false then 3
        else if 256 ≤ q.pend then 1 else 0 := by
  have hserves : (!(q.en && q.tag != 0 && q.tag == tag)) = true ↔ q.en = false ∨ q.tag = 0 ∨ q.tag ≠ tag := by
    simp [or_assoc]
  rw [State.submitStatus, hq]
  simp only [hserves, Bool.not_eq_true']

/-! ### The instruction -/

/-- A descriptor that passes its checks, with nothing under way, is submitted. -/
theorem exec_launch {d a : BitVec 6} {head keys : List Nat} (halign : (s.team.reg a).toNat % 64 = 0)
    (hhead : s.check s.team true needR 0 (s.team.reg a).toNat 0xC0 = { keys := head })
    (hkeys : s.check s.team true needR 0 (s.team.reg a).toNat (0xC0 + 24 * min 16 (fld (s.load s.team (head.take 8)) 23 5))
      = { keys := keys })
    (hwait : s.mustWait s.team keys = false) (hfence : s.fenceWait true 9 = none)
    (hpoison : keys.any s.poisoned = false) (hreach : keys.any s.unreachable = false) :
    exec (.launch d a) s =
      let x := s.loadDesc keys (24 + 3 * min 16 (fld (s.load s.team (head.take 8)) 23 5))
      let q := s.queueAt x.queue
      let r := s.submit x.queue x (q.en && q.tag != 0 && q.tag == s.team.pstat.tag) (s.team.pstat.pl == 0)
      .next (r.1.upd fun t => (t.setReg d (BitVec.ofNat 64 r.2)).advance) := by
  change execLaunch d a s = _
  unfold execLaunch
  dsimp only
  rw [if_neg (not_not_intro halign), hhead]
  dsimp only [worst]
  rw [hkeys]
  dsimp only [worst]
  rw [hwait, if_neg Bool.false_ne_true, hfence]
  dsimp only
  rw [loadPoisoned_of_none hpoison, if_neg Bool.false_ne_true, hreach, if_neg Bool.false_ne_true]
  rfl

/-- Settles O24: `launch` is a submission of the descriptor that it has loaded. -/
theorem launches : Obligations.Launches := by
  intro s d a head keys t n halign hhead hkeys hwait hquiet hpoison hreach hpark x q status
  have hexec := exec_launch (d := d) halign hhead hkeys hwait
    (fenceWait_of_quiet (rel := true) (scope := 9) hquiet) hpoison hreach
  have hstatus : s.submitStatus x.queue x (q.en && q.tag != 0 && q.tag == t.pstat.tag) (t.pstat.pl == 0) = status :=
    submitStatus_eq rfl t.pstat.tag
  obtain ⟨s', hsub, hteam, hsubno, haccepted, hrefused⟩ := submit_spec (n := x.queue) (x := x)
    (serves := q.en && q.tag != 0 && q.tag == t.pstat.tag) (user := t.pstat.pl == 0) hpark
  rw [hstatus] at hsub haccepted hrefused
  refine ⟨_, hexec.trans (congrArg (fun r : State × Nat => Host.Outcome.next
    (r.1.upd fun t => (t.setReg d (BitVec.ofNat 64 r.2)).advance)) hsub), ?_, hsubno, fun h0 => ?_, hrefused⟩
  · rw [State.team_upd, hteam, setReg_advance]
  · obtain ⟨hwork, hgrid⟩ := haccepted h0
    exact ⟨hwork, congrArg Grid.words hgrid, congrArg Grid.tag hgrid, congrArg Grid.placed hgrid⟩

end Sys2Proof.Laws
end

section
/-!
Laws. The instructions on the translation buffer (R191 to R194).
-/

namespace Sys2Proof.Machine

/-- What R191 refuses in an entry, in the words of its fields. -/
def TlbEntry.malformed (e : TlbEntry) : Prop :=
  e.w0.extractLsb' 6 10 ≠ 0#10 ∨ e.w1.extractLsb' 52 12 ≠ 0#12 ∨ e.w1.extractLsb' 0 16 ≠ 0#16
    ∨ e.w0.extractLsb' 4 2 = 3#2 ∨ e.w0.toNat / 2 ^ 56 ∉ [0, 255]
    ∨ e.w0.toNat / 2 ^ 16 * 2 ^ 16 % 2 ^ e.shift ≠ 0 ∨ e.w1.toNat % 2 ^ e.shift ≠ 0
    ∨ (e.w0.getLsbD 0 = true ∧ ∃ p ∈ e.frames, region p = .outside)

/-- The entry that `tlbw` writes. -/
def Team.entry (t : Team) (a b : BitVec 6) : TlbEntry :=
  { w0 := t.reg a, w1 := t.reg b, tag := t.pstat.tag, world := t.pstat.world }

/-- The slots of its quarter that are the team's own. -/
def State.ownSlots (s : State) : List Nat :=
  (List.range 512).filter fun i => (s.slotCause s.team.pstat.tag s.team.pstat.world s.team.gq i).isNone

end Sys2Proof.Machine

namespace Sys2Proof.Laws

open Sys2Proof Sys2Proof.Machine

variable {s : State} {d a b : BitVec 6} {c slot word : Nat} {e : TlbEntry}

/-! ### The entry -/

theorem fld_eq_zero (x : Word) (lo len : Nat) : fld x.toNat lo len = 0 ↔ x.extractLsb' lo len = 0#len := by
  rw [fld_toNat, BitVec.toNat_eq]
  rfl

theorem canonical_word (x : Word) : canonical x.toNat = true ↔ x.toNat / 2 ^ 56 ∈ [0, 255] := by
  have hx := x.isLt
  rw [canonical_eq_true, Nat.mod_eq_of_lt (by omega), List.mem_cons, List.mem_singleton]

theorem mapped_iff (e : TlbEntry) : (!e.w0.getLsbD 0 || e.frames.all fun p => region p != .outside) = true
    ↔ ¬ (e.w0.getLsbD 0 = true ∧ ∃ p ∈ e.frames, region p = .outside) := by
  cases e.w0.getLsbD 0 <;> simp

/-- An entry passes the checks of its own fields unless R191 refuses it. -/
theorem formOk_iff (e : TlbEntry) : e.formOk = true ↔ ¬ e.malformed := by
  have hsize : fld e.w0.toNat 4 2 ≠ 3 ↔ e.w0.extractLsb' 4 2 ≠ 3#2 := by
    rw [fld_toNat, Ne, Ne, ← BitVec.toNat_inj]
    rfl
  simp only [TlbEntry.formOk, TlbEntry.malformed, Bool.and_eq_true, decide_eq_true_eq, fld_eq_zero, hsize, canonical_word,
    mapped_iff, not_or, not_not, ne_eq, and_assoc]

theorem hits_invalid (e : TlbEntry) (tag : BitVec 16) (world : BitVec 8) (va : Nat) : e.invalid.hits tag world va = false := by
  have hv : e.invalid.w0.getLsbD 0 = false := by simp [TlbEntry.invalid]
  rw [TlbEntry.hits, hv]
  rfl

/-- The one frame of a valid 64 KiB entry. -/
theorem framesCause_small (tag : BitVec 16) (world : BitVec 8) (hv : e.w0.getLsbD 0 = true)
    (hsize : e.w0.extractLsb' 4 2 = 0#2) : s.framesCause tag world e
      = (s.frameCause tag world e.w0 ((e.w1.extractLsb' 16 36).toNat * 2 ^ 16)).map
          fun c => (c, (e.w1.extractLsb' 16 36).toNat * 2 ^ 16) := by
  have hframes : e.frames = [(e.w1.extractLsb' 16 36).toNat * 2 ^ 16] := by
    rw [TlbEntry.frames, TlbEntry.shift, if_pos ((fld_eq_zero _ _ _).mpr hsize), fld_toNat, Nat.sub_self, pow_zero,
      List.range_one, List.map_singleton, Nat.zero_mul, Nat.add_zero]
  unfold State.framesCause
  rw [hv, hframes]
  generalize (e.w1.extractLsb' 16 36).toNat * 2 ^ 16 = p
  cases h : s.frameCause tag world e.w0 p with
  | none => simp [h]
  | some c => by_cases hc : c = cOwner <;> simp [h, hc]

theorem frameCause_owner {tag : BitVec 16} {world : BitVec 8} {w0 : Word} {p : Nat} (hp : region p = .near ∨ region p = .far)
    (h : (s.owner 2 (p / 2 ^ 16)).tag ≠ tag) : s.frameCause tag world w0 p = some cOwner := by
  unfold State.frameCause
  rcases hp with hp | hp <;> rw [hp] <;> exact if_pos h

theorem frameCause_world {tag : BitVec 16} {world : BitVec 8} {w0 : Word} {p : Nat} (hp : region p = .near ∨ region p = .far)
    (h : (s.owner 2 (p / 2 ^ 16)).tag = tag) (hw : (s.owner 2 (p / 2 ^ 16)).world ≠ world) :
    s.frameCause tag world w0 p = some cWorld := by
  unfold State.frameCause
  rcases hp with hp | hp <;> rw [hp] <;> exact (if_neg (not_not_intro h)).trans (if_pos hw)

/-! ### The replacement instant -/

/-- Whether what was translated is performed depends on the queues and operations of the teams, the channels, and the lines. -/
theorem replaceDone_congr {s' : State} (hsdq : ∀ id, (s'.teamAt id).sdq = (s.teamAt id).sdq)
    (hpend : ∀ id, (s'.teamAt id).pend = (s.teamAt id).pend) (hch : s'.channels = s.channels) (hred : s'.redbuf = s.redbuf)
    (r : Replace) : s'.replaceDone r = s.replaceDone r := by
  simp only [State.replaceDone, Team.op?, State.channel, hsdq, hpend, hch, hred]

theorem teamAt_setTeam_field {α : Type} (f : Team → α) {u : Team} (h : f u = f s.team) (id : Nat) :
    f ((s.setTeam u).teamAt id) = f (s.teamAt id) := by
  rw [State.setTeam, State.putTeam, State.teamAt]
  dsimp only
  rw [Store.get_set]
  split
  · next hid => exact h.trans (congrArg (fun i => f (s.teamAt i)) hid.symm)
  · rfl

/-- With nothing under way through the old contents the slots change, and the instruction completes. -/
theorem replaceSlots_eq {new : List (Nat × TlbEntry)} (hrep : s.team.replace = none) (hq : s.team.laneq = [])
    (hgoing : s.team.pastPoint = false) (hdone : s.replaceDone (s.replaced (new.map Prod.fst)) = true) :
    s.replaceSlots word new
      = { s with tlb := Store.setAll {} s.tlb (new.map fun (x : Nat × TlbEntry) => (512 * s.team.gq + x.1, x.2)) }.setTeam
          { s.team with pc := s.team.pc + 4 } := by
  have hnone : s.team.going = none := Option.isSome_eq_false_iff.mp hgoing |> Option.isNone_iff_eq_none.mp
  have hteam : { s.team with replace := none, going := none } = s.team := by rw [← hrep, ← hnone]
  unfold State.replaceSlots
  dsimp only
  rw [hq, if_neg (by decide), State.endReplace, replaceDone_congr (s := s), hdone, if_pos rfl]
  · rw [State.upd, State.team_setTeam, setTeam_twice]
    refine congrArg _ ?_
    conv_rhs => rw [← hteam]
    rfl
  · exact teamAt_setTeam_field (s := { s with tlb := _ }) Team.sdq rfl
  · exact teamAt_setTeam_field (s := { s with tlb := _ }) Team.pend rfl
  · rfl
  · rfl

/-! ### The instructions -/

theorem tlbOp_user (hpl : s.team.pstat.pl = 0#2) (f : Team → State) : s.tlbOp word f = s.priv word := if_pos hpl

theorem tlbOp_tenant (hpl : s.team.pstat.pl ≠ 0#2) (hrep : s.team.replace = none) (f : Team → State) :
    s.tlbOp word f = f s.team := by
  rw [State.tlbOp, if_neg hpl, hrep]

theorem ofNat_reg (t : Team) (r : BitVec 6) : BitVec.ofNat 64 (t.reg r).toNat = t.reg r := ofNat_toNat_self _

section Tenant

variable (hpl : s.team.pstat.pl ≠ 0#2) (hrep : s.team.replace = none)
include hpl hrep

theorem exec_tlbw_malformed (h : 512 ≤ (s.team.reg d).toNat ∨ (s.team.entry a b).malformed) :
    exec (.tlbw d a b) s = .next (s.illegal (encode (.tlbw d a b))) := by
  change Host.Outcome.next (s.tlbOp _ _) = _
  rw [tlbOp_tenant hpl hrep]
  have hform : (!(s.team.entry a b).formOk) = true ↔ (s.team.entry a b).malformed := by
    rw [Bool.not_eq_true', Bool.eq_false_iff, Ne, formOk_iff, not_not]
  exact congrArg Host.Outcome.next (if_pos (h.imp_right hform.mpr))

/-- A well-formed entry for a slot that exists: its owner is tested, then the frames, and then it is written. -/
theorem exec_tlbw_wellFormed (hslot : (s.team.reg d).toNat < 512) (h : ¬ (s.team.entry a b).malformed) :
    (∀ c, s.slotCause s.team.pstat.tag s.team.pstat.world s.team.gq (s.team.reg d).toNat = some c →
      exec (.tlbw d a b) s = .next (s.trap c (s.team.reg d)))
    ∧ (s.slotCause s.team.pstat.tag s.team.pstat.world s.team.gq (s.team.reg d).toNat = none →
      (∀ c p, s.framesCause s.team.pstat.tag s.team.pstat.world (s.team.entry a b) = some (c, p) →
        exec (.tlbw d a b) s = .next (s.trap c (BitVec.ofNat 64 p)))
      ∧ (s.framesCause s.team.pstat.tag s.team.pstat.world (s.team.entry a b) = none →
        exec (.tlbw d a b) s
          = .next (s.replaceSlots (encode (.tlbw d a b)) [((s.team.reg d).toNat, s.team.entry a b)]))) := by
  have hform : ¬ (512 ≤ (s.team.reg d).toNat ∨ (!(s.team.entry a b).formOk) = true) := by
    rw [(formOk_iff _).mpr h]
    simpa using hslot
  have hexec : exec (.tlbw d a b) s
      = .next (match s.slotCause s.team.pstat.tag s.team.pstat.world s.team.gq (s.team.reg d).toNat with
        | some c => s.trap c (BitVec.ofNat 64 (s.team.reg d).toNat)
        | none => match s.framesCause s.team.pstat.tag s.team.pstat.world (s.team.entry a b) with
          | some (c, p) => s.trap c (BitVec.ofNat 64 p)
          | none => s.replaceSlots (encode (.tlbw d a b)) [((s.team.reg d).toNat, s.team.entry a b)]) := by
    change Host.Outcome.next (s.tlbOp _ _) = _
    rw [tlbOp_tenant hpl hrep]
    exact congrArg Host.Outcome.next (if_neg hform)
  rw [hexec, ofNat_reg]
  refine ⟨fun c hc => by rw [hc], fun hc => ⟨fun c p hp => by rw [hc, hp], fun hp => by rw [hc, hp]⟩⟩

theorem exec_tlbi_missing (h : 512 ≤ (s.team.reg a).toNat) (hne : (s.team.reg a).toNat ≠ 2 ^ 63) :
    exec (.tlbi a) s = .next (s.illegal (encode (.tlbi a))) := by
  change Host.Outcome.next (s.tlbOp _ _) = _
  rw [tlbOp_tenant hpl hrep]
  dsimp only
  by_cases hbit : (s.team.reg a).toNat / 2 ^ 63 = 1
  · rw [if_pos hbit, if_pos hne]
  · rw [if_neg hbit, if_pos h]

theorem exec_tlbi_all (h : s.team.reg a = 0x8000000000000000#64) :
    exec (.tlbi a) s = .next (s.replaceSlots (encode (.tlbi a))
      (s.ownSlots.map fun i => (i, (Store.get {} s.tlb (512 * s.team.gq + i) : TlbEntry).invalid))) := by
  change Host.Outcome.next (s.tlbOp _ _) = _
  rw [tlbOp_tenant hpl hrep]
  dsimp only
  rw [h, if_pos (by decide), if_neg (by decide)]
  rfl

theorem exec_tlbi_slot (h : (s.team.reg a).toNat < 512) :
    (∀ c, s.slotCause s.team.pstat.tag s.team.pstat.world s.team.gq (s.team.reg a).toNat = some c →
      exec (.tlbi a) s = .next (s.trap c (s.team.reg a)))
    ∧ (s.slotCause s.team.pstat.tag s.team.pstat.world s.team.gq (s.team.reg a).toNat = none →
      exec (.tlbi a) s = .next (s.replaceSlots (encode (.tlbi a)) [((s.team.reg a).toNat,
        (Store.get {} s.tlb (512 * s.team.gq + (s.team.reg a).toNat) : TlbEntry).invalid)])) := by
  have hexec : exec (.tlbi a) s
      = .next (match s.slotCause s.team.pstat.tag s.team.pstat.world s.team.gq (s.team.reg a).toNat with
        | some c => s.trap c (BitVec.ofNat 64 (s.team.reg a).toNat)
        | none => s.replaceSlots (encode (.tlbi a)) [((s.team.reg a).toNat,
            (Store.get {} s.tlb (512 * s.team.gq + (s.team.reg a).toNat) : TlbEntry).invalid)]) := by
    change Host.Outcome.next (s.tlbOp _ _) = _
    rw [tlbOp_tenant hpl hrep]
    exact congrArg Host.Outcome.next ((if_neg (by omega)).trans (if_neg (by omega)))
  rw [hexec, ofNat_reg]
  exact ⟨fun c hc => by rw [hc], fun hc => by rw [hc]⟩

omit hrep in
theorem tlbRead_missing {g : TlbEntry → Word} (h : 512 ≤ (s.team.reg a).toNat) : s.tlbRead word d a g = s.illegal word :=
  (if_neg hpl).trans (if_pos h)

omit hrep in
theorem tlbRead_slot {g : TlbEntry → Word} (h : (s.team.reg a).toNat < 512) :
    (∀ c, s.slotCause s.team.pstat.tag s.team.pstat.world s.team.gq (s.team.reg a).toNat = some c →
      s.tlbRead word d a g = s.trap c (s.team.reg a))
    ∧ (s.slotCause s.team.pstat.tag s.team.pstat.world s.team.gq (s.team.reg a).toNat = none →
      s.tlbRead word d a g
        = s.setTeam (s.team.wrote d (g (Store.get {} s.tlb (512 * s.team.gq + (s.team.reg a).toNat))) 4)) := by
  unfold State.tlbRead
  dsimp only
  rw [if_neg hpl, if_neg (Nat.not_le.mpr h), ofNat_reg]
  refine ⟨fun c hc => by rw [hc], fun hc => ?_⟩
  rw [hc, ← setReg_advance]

end Tenant

/-! ### The statements -/

/-- What a completed replacement leaves. -/
theorem gives_replaceSlots {i : Instr} {new : List (Nat × TlbEntry)} (h : exec i s = .next (s.replaceSlots word new))
    (hrep : s.team.replace = none) (hq : s.team.laneq = []) (hgoing : s.team.pastPoint = false)
    (hdone : s.replaceDone (s.replaced (new.map Prod.fst)) = true) :
    ∃ s', exec i s = .next s' ∧ s'.team = { s.team with pc := s.team.pc + 4 } ∧ s'.mem = s.mem
      ∧ s'.tlb = Store.setAll {} s.tlb (new.map fun (x : Nat × TlbEntry) => (512 * s.team.gq + x.1, x.2)) :=
  ⟨_, h.trans (congrArg Host.Outcome.next (replaceSlots_eq hrep hq hgoing hdone)), State.team_setTeam _ _, rfl, rfl⟩

/-- One slot is written, and no other. -/
theorem gives_replaceSlot {i : Instr} (h : exec i s = .next (s.replaceSlots word [(slot, e)]))
    (hrep : s.team.replace = none) (hq : s.team.laneq = []) (hgoing : s.team.pastPoint = false)
    (hdone : s.replaceDone (s.replaced [slot]) = true) :
    ∃ s', exec i s = .next s' ∧ s'.team = { s.team with pc := s.team.pc + 4 } ∧ s'.mem = s.mem
      ∧ Store.get {} s'.tlb (512 * s.team.gq + slot) = e
      ∧ ∀ k, k ≠ 512 * s.team.gq + slot → (Store.get {} s'.tlb k : TlbEntry) = Store.get {} s.tlb k := by
  obtain ⟨s', hexec, hteam, hmem, htlb⟩ := gives_replaceSlots h hrep hq hgoing hdone
  refine ⟨s', hexec, hteam, hmem, ?_, fun k hk => ?_⟩
  · rw [htlb]
    exact Store.get_set_same _ _ _ _
  · rw [htlb]
    exact Store.get_set_other _ _ _ hk

theorem mem_ownSlots {i : Nat} : i ∈ s.ownSlots ↔ i < 512
    ∧ s.slotCause s.team.pstat.tag s.team.pstat.world s.team.gq i = none := by
  rw [State.ownSlots, List.mem_filter, List.mem_range, Option.isNone_iff_eq_none]

/-- Every slot of the team is cleared, and no other. -/
theorem gives_replaceOwn {i : Instr}
    (h : exec i s = .next (s.replaceSlots word
      (s.ownSlots.map fun i => (i, (Store.get {} s.tlb (512 * s.team.gq + i) : TlbEntry).invalid))))
    (hrep : s.team.replace = none) (hq : s.team.laneq = []) (hgoing : s.team.pastPoint = false)
    (hdone : s.replaceDone (s.replaced s.ownSlots) = true) :
    ∃ s', exec i s = .next s' ∧ s'.team = { s.team with pc := s.team.pc + 4 } ∧ s'.mem = s.mem
      ∧ (∀ i ∈ s.ownSlots, Store.get {} s'.tlb (512 * s.team.gq + i)
          = (Store.get {} s.tlb (512 * s.team.gq + i) : TlbEntry).invalid)
      ∧ ∀ k, (∀ i ∈ s.ownSlots, k ≠ 512 * s.team.gq + i) →
          (Store.get {} s'.tlb k : TlbEntry) = Store.get {} s.tlb k := by
  have hfst : (s.ownSlots.map fun i => (i, (Store.get {} s.tlb (512 * s.team.gq + i) : TlbEntry).invalid)).map Prod.fst
      = s.ownSlots := by
    rw [List.map_map]
    exact List.map_id _
  obtain ⟨s', hexec, hteam, hmem, htlb⟩ := gives_replaceSlots h hrep hq hgoing
    ((congrArg (fun l => s.replaceDone (s.replaced l)) hfst).trans hdone)
  rw [List.map_map] at htlb
  refine ⟨s', hexec, hteam, hmem, fun i hi => ?_, fun k hk => ?_⟩
  · rw [htlb]
    refine get_setAll_mem _ _ ?_ (List.mem_map.mpr ⟨i, hi, rfl⟩)
    rw [List.map_map]
    refine (List.nodup_range.filter _).map fun x y hxy => ?_
    exact Nat.add_left_cancel hxy
  · rw [htlb]
    refine Store.get_setAll_other _ _ _ _ fun p hp => ?_
    obtain ⟨i, hi, rfl⟩ := List.mem_map.mp hp
    exact (hk i hi).symm

theorem translationEntries : Claims.TranslationEntries := by
  intro s d a b t slot at' e old hpl hrep
  refine ⟨fun hslot hform hown hframes hq hgoing hdone => ?_, fun hat hown hq hgoing hdone => ?_,
    fun ha hq hgoing hdone => ?_, fun hat hown => ⟨?_, ?_⟩⟩
  · obtain ⟨-, hwrites⟩ := exec_tlbw_wellFormed hpl hrep hslot ((formOk_iff (t.entry a b)).mp hform)
    exact gives_replaceSlot ((hwrites hown).2 hframes) hrep hq hgoing hdone
  · obtain ⟨s', hexec, hteam, hmem, hnew, hother⟩ :=
      gives_replaceSlot ((exec_tlbi_slot hpl hrep hat).2 hown) hrep hq hgoing hdone
    exact ⟨s', hexec, hteam, hmem, fun tag world va => by rw [hnew, hits_invalid], hother⟩
  · obtain ⟨s', hexec, hteam, hmem, hnew, hother⟩ := gives_replaceOwn (exec_tlbi_all hpl hrep ha) hrep hq hgoing
      (hdone _ fun i hi => mem_ownSlots.mp hi)
    exact ⟨s', hexec, hteam, hmem, fun i hi tag world va => by rw [hnew i (mem_ownSlots.mpr hi), hits_invalid],
      fun k hk => hother k fun i hi => hk i (mem_ownSlots.mp hi)⟩
  · exact gives_of_eq (congrArg Host.Outcome.next ((tlbRead_slot hpl hat).2 hown)) rfl
  · exact gives_of_eq (congrArg Host.Outcome.next ((tlbRead_slot hpl hat).2 hown)) rfl

theorem translationTraps : Claims.TranslationTraps := by
  intro s d a b c t word e malformed
  refine ⟨fun hpl hrep => ⟨fun h => exec_tlbw_malformed hpl hrep h, fun hslot hform => ?_⟩, fun hpl => ?_,
    fun hpl hrep h => ?_, fun hpl hrep h hlt => ?_, fun hpl hrep hslot hcause => ?_⟩
  · obtain ⟨hown, hnone⟩ := exec_tlbw_wellFormed hpl hrep hslot hform
    refine ⟨hown c, fun hcause => ⟨(hnone hcause).1 c, fun hv hsize hp => ⟨fun htag => ?_, fun htag hworld => ?_⟩⟩⟩
    · refine (hnone hcause).1 cOwner _ ((framesCause_small t.pstat.tag t.pstat.world hv hsize).trans ?_)
      exact congrArg _ (frameCause_owner hp htag)
    · refine (hnone hcause).1 cWorld _ ((framesCause_small t.pstat.tag t.pstat.world hv hsize).trans ?_)
      exact congrArg _ (frameCause_world hp htag hworld)
  · have hread (word : Nat) (g : TlbEntry → Word) : s.tlbRead word d a g = s.priv word := if_pos hpl
    refine List.forall_mem_cons.mpr ⟨congrArg _ (tlbOp_user hpl _), List.forall_mem_cons.mpr ⟨congrArg _ (tlbOp_user hpl _),
      List.forall_mem_cons.mpr ⟨congrArg _ (hread _ _), List.forall_mem_singleton.mpr (congrArg _ (hread _ _))⟩⟩⟩
  · have h : 2 ^ 63 < (s.team.reg a).toNat := h
    have hbig : 512 ≤ (s.team.reg a).toNat := by omega
    have hne : (s.team.reg a).toNat ≠ 2 ^ 63 := by omega
    exact List.forall_mem_cons.mpr ⟨exec_tlbi_missing hpl hrep hbig hne,
      List.forall_mem_cons.mpr ⟨congrArg _ (tlbRead_missing hpl hbig),
        List.forall_mem_singleton.mpr (congrArg _ (tlbRead_missing hpl hbig))⟩⟩
  · exact List.forall_mem_cons.mpr ⟨exec_tlbi_missing hpl hrep h hlt.ne,
      List.forall_mem_cons.mpr ⟨congrArg _ (tlbRead_missing hpl h),
        List.forall_mem_singleton.mpr (congrArg _ (tlbRead_missing hpl h))⟩⟩
  · exact List.forall_mem_cons.mpr ⟨(exec_tlbi_slot hpl hrep hslot).1 c hcause,
      List.forall_mem_cons.mpr ⟨congrArg _ ((tlbRead_slot hpl hslot).1 c hcause),
        List.forall_mem_singleton.mpr (congrArg _ ((tlbRead_slot hpl hslot).1 c hcause))⟩⟩

/-- Settles O26: the checks in their order, and the replacement instant when nothing is under way. -/
theorem translationBuffer : Obligations.TranslationBuffer := ⟨translationEntries, translationTraps⟩

end Sys2Proof.Laws
end

section
/-!
Laws. The end of a team, and `mark` (R196, R199, R263, R265, R427).
-/

namespace Sys2Proof.Machine

/-- What happens beside the teams: no command leaves or enters a sequencer, no team changes its place or its part in life, and
one that has exited stays as it was. -/
structure State.Beside (s s' : State) : Prop where
  seqs   : s'.seqs = s.seqs
  life   : ∀ id, (s'.teamAt id).life = (s.teamAt id).life
  gq     : ∀ id, (s'.teamAt id).gq = (s.teamAt id).gq
  exited : ∀ id, (s.teamAt id).life = .exited → s'.teamAt id = s.teamAt id

/-- The same, and the groups are as they were. -/
structure State.Aside (s s' : State) : Prop extends s.Beside s' where
  groups : s'.groups = s.groups

/-- A team that has become Exited; a sequencer that still runs commands of it keeps its lane registers. -/
def Team.gone (t : Team) (keep : Bool) : Team :=
  { t with life := .exited, v := if keep then t.v else [], laneq := [], park := none, barWait := none, esc := none,
           escTrap := none, trapReq := none, async := [], saveReq := none, saveStopped := false, deadline := none,
           halted := false, haltReq := false, bpHalt := false, counting := false }

/-- Every barrier of a group is to report a departure. -/
def Group.departed (g : Group) : Group :=
  { g with bars := (List.range 16).foldl (fun bs n =>
      Store.set {} bs n { (Store.get {} bs n : Barrier) with departed := true }) g.bars }

/-- A team has become Exited, and the barriers of its group know it; none of them has been tried yet. -/
def State.exitMarked (s : State) (id : Nat) (pc : Word) (seq : Nat) (lidx : BitVec 32) : State :=
  let t := s.teamAt id
  let s := if s.traces t.core t.pstat.tag 8 then s.traceOut t.core (s.traceRecord t 8 pc seq lidx 0) else s
  let s := s.putTeam id (t.gone (s.commanding id))
  let s := s.freeSack t
  let s := s.sendLines fun l => l.teams.contains id
  s.putGroup t.group (s.groupAt t.group).departed

/-- Every barrier of these groups is tried. -/
def State.tryBarriers (s : State) (gids : List Nat) : State :=
  gids.foldl (fun s gid => (List.range 16).foldl (fun s n => s.tryBarrier gid n) s) s

/-- A group that is over ends. -/
def State.concluded (s : State) (gid : Nat) : State := (if s.groupOver gid then s.endGroup gid else s).noteSaved gid

/-- A team of the group is expected at its barrier n and has not arrived. -/
structure State.Missing (s : State) (gid n m : Nat) : Prop where
  member   : m ∈ (s.groupAt gid).members
  expected : s.expected m = true
  absent   : ∀ g, m ∉ ((s.groupAt g).bar n).arrived

end Sys2Proof.Machine

namespace Sys2Proof.Laws

open Sys2Proof Sys2Proof.Machine

variable {s s' s'' : State}

/-! ### Composition -/

theorem Beside.refl (s : State) : s.Beside s := ⟨rfl, fun _ => rfl, fun _ => rfl, fun _ _ => rfl⟩

theorem Beside.trans (h : s.Beside s') (g : s'.Beside s'') : s.Beside s'' where
  seqs := g.seqs.trans h.seqs
  life id := (g.life id).trans (h.life id)
  gq id := (g.gq id).trans (h.gq id)
  exited id hid := (g.exited id ((h.life id).trans hid)).trans (h.exited id hid)

theorem Aside.refl (s : State) : s.Aside s := ⟨Beside.refl s, rfl⟩

theorem Aside.trans (h : s.Aside s') (g : s'.Aside s'') : s.Aside s'' :=
  ⟨Beside.trans h.toBeside g.toBeside, g.groups.trans h.groups⟩

theorem aside_of_eq (hteams : s'.teams = s.teams) (hseqs : s'.seqs = s.seqs) (hgroups : s'.groups = s.groups) : s.Aside s' := by
  have hteam (id : Nat) : s'.teamAt id = s.teamAt id := congrArg (fun m => Store.get ({} : Team) m id) hteams
  exact ⟨⟨hseqs, fun id => by rw [hteam], fun id => by rw [hteam], fun id _ => hteam id⟩, hgroups⟩

theorem aside_foldl {α : Type} {f : State → α → State} (hf : ∀ (s : State) a, s.Aside (f s a)) (l : List α) (s : State) :
    s.Aside (l.foldl f s) := by
  induction l generalizing s with
  | nil => exact Aside.refl s
  | cons a l ih => exact Aside.trans (hf s a) (ih _)

theorem beside_foldl {α : Type} {f : State → α → State} (hf : ∀ (s : State) a, s.Beside (f s a)) (l : List α) (s : State) :
    s.Beside (l.foldl f s) := by
  induction l generalizing s with
  | nil => exact Beside.refl s
  | cons a l ih => exact Beside.trans (hf s a) (ih _)

theorem commanding_of_beside (h : s.Beside s') (id : Nat) : s'.commanding id = s.commanding id := by
  rw [State.commanding, State.sequencer, h.gq, h.seqs]
  rfl

theorem expected_of_beside (h : s.Beside s') (id : Nat) : s'.expected id = s.expected id := by
  rw [State.expected, h.life]
  rfl

/-! ### What happens beside the teams -/

theorem setReg_role (t : Team) (d : BitVec 6) (x : Word) : (t.setReg d x).life = t.life ∧ (t.setReg d x).gq = t.gq := by
  refine ⟨Team.setReg_life t d x, ?_⟩
  rw [Team.gq, Team.setReg_core, Team.setReg_quarter]
  rfl

theorem stepDone_role (t : Team) : t.stepDone.life = t.life ∧ t.stepDone.gq = t.gq := by
  unfold Team.stepDone
  dsimp only
  split
  · exact ⟨rfl, rfl⟩
  · exact ⟨rfl, rfl⟩

theorem stepped_role (t : Team) (d : BitVec 6) (x : Word) :
    (t.setReg d x).stepDone.life = t.life ∧ (t.setReg d x).stepDone.gq = t.gq := by
  obtain ⟨hlife, hgq⟩ := stepDone_role (t.setReg d x)
  obtain ⟨hlife', hgq'⟩ := setReg_role t d x
  exact ⟨hlife.trans hlife', hgq.trans hgq'⟩

theorem wakeWatch_role (t : Team) (secs : List Nat) : (t.wakeWatch secs).life = t.life ∧ (t.wakeWatch secs).gq = t.gq := by
  unfold Team.wakeWatch
  split
  · split
    · exact stepped_role t _ _
    · exact ⟨rfl, rfl⟩
  · exact ⟨rfl, rfl⟩

/-- A change of a resident team that keeps its place and its life. -/
theorem aside_putTeam {id : Nat} {u : Team} (hres : (s.teamAt id).life = .resident) (hlife : u.life = (s.teamAt id).life)
    (hgq : u.gq = (s.teamAt id).gq) : s.Aside (s.putTeam id u) := by
  have hteam (j : Nat) : (s.putTeam id u).teamAt j = if j = id then u else s.teamAt j := Store.get_set _ _ _ _ _
  refine ⟨⟨rfl, fun j => ?_, fun j => ?_, fun j hj => ?_⟩, rfl⟩
  · rw [hteam]
    split
    · next h => rw [hlife, h]
    · rfl
  · rw [hteam]
    split
    · next h => rw [hgq, h]
    · rfl
  · rw [hteam]
    split
    · next h =>
      rw [h, hres] at hj
      cases hj
    · rfl

theorem aside_wakeWatchers (keys : List Nat) : s.Aside (s.wakeWatchers keys) := by
  unfold State.wakeWatchers
  refine aside_foldl (fun s x => ?_) _ s
  dsimp only
  split
  · next h =>
    split
    · exact Aside.refl s
    · obtain ⟨hlife, hgq⟩ := wakeWatch_role (s.teamAt x.1) ((keys.map sectorOf).eraseDups)
      exact aside_putTeam h.1 hlife hgq
  · exact Aside.refl s

theorem aside_putPost (i : Nat) (x : PostEntry) : s.Aside (s.putPost i x) := by
  obtain ⟨d, hd⟩ := putPost_eq s i x
  rw [hd]
  exact aside_of_eq rfl rfl rfl

theorem aside_perform (bs : List (Nat × Byte)) (forwarded : Bool) : s.Aside (s.perform bs forwarded) := by
  unfold State.perform
  dsimp only
  have hcure : s.Aside (((s.setBytes (s.atHomes bs)).freshTags ((s.atHomes bs).map Prod.fst)).curePoison (s.atHomes bs)) := by
    obtain ⟨p, hp⟩ := curePoison_eq ((s.setBytes (s.atHomes bs)).freshTags ((s.atHomes bs).map Prod.fst)) (s.atHomes bs)
    rw [hp]
    exact aside_of_eq rfl rfl rfl
  have hwake := Aside.trans hcure (aside_wakeWatchers (bs.map Prod.fst))
  split
  · refine Aside.trans hwake ?_
    obtain ⟨q, d, hq⟩ := forwardWrite_eq ((((s.setBytes (s.atHomes bs)).freshTags ((s.atHomes bs).map Prod.fst)).curePoison
      (s.atHomes bs)).wakeWatchers (bs.map Prod.fst)) bs
    exact hq ▸ aside_of_eq rfl rfl rfl
  · exact hwake

theorem aside_putWord (k v : Nat) : s.Aside (s.putWord k v) := aside_perform _ _

theorem aside_recordLost (tag : Nat) (r : LostItem) : s.Aside (s.recordLost tag r) := by
  unfold State.recordLost
  split
  · exact Aside.refl s
  · dsimp only
    split
    · exact Aside.trans (aside_perform _ true) (aside_of_eq rfl rfl rfl)
    · exact aside_putWord _ _

theorem aside_traceOut (core : Nat) (bs : List Byte) : s.Aside (s.traceOut core bs) := by
  unfold State.traceOut
  dsimp only
  split
  · exact Aside.trans (aside_of_eq (s' := s.putDbg core _) rfl rfl rfl) (aside_perform _ true)
  · exact aside_of_eq rfl rfl rfl

theorem aside_freeSack (t : Team) : s.Aside (s.freeSack t) := by
  unfold State.freeSack
  split
  · exact Aside.refl s
  · refine aside_foldl (fun s i => ?_) _ s
    dsimp only
    split
    · exact aside_of_eq rfl rfl rfl
    · exact Aside.refl s

theorem aside_closeCards (t : Team) : s.Aside (s.closeCards t) := by
  unfold State.closeCards
  refine aside_foldl (fun s x => ?_) _ s
  dsimp only
  split
  · exact aside_putPost _ _
  · exact Aside.refl s

theorem aside_storeDone (g : Grid) : s.Aside (s.storeDone g) := by
  unfold State.storeDone
  dsimp only
  split
  · exact Aside.refl s
  · split
    · exact aside_putWord _ _
    · exact aside_recordLost _ _

theorem aside_endGrid (gid : Nat) : s.Aside (s.endGrid gid) := by
  unfold State.endGrid
  dsimp only
  split
  · exact Aside.refl s
  · split
    · exact aside_closeCards _
    · exact Aside.trans (aside_of_eq (s' := s.putGrid gid _) rfl rfl rfl) (aside_storeDone _)

theorem aside_freeTiles (gid q : Nat) : s.Aside (s.freeTiles gid q) := by
  unfold State.freeTiles
  refine aside_foldl (fun s i => ?_) _ s
  dsimp only
  split
  · exact aside_of_eq rfl rfl rfl
  · exact Aside.refl s

theorem aside_noteSaved (gid : Nat) : s.Aside (s.noteSaved gid) := by
  unfold State.noteSaved
  dsimp only
  split
  · exact Aside.refl s
  · exact aside_of_eq rfl rfl rfl

/-! ### A phase that completes (R264) -/

theorem depart_role (t : Team) (n : Nat) (x : Word) : (t.depart n x).life = t.life ∧ (t.depart n x).gq = t.gq := by
  unfold Team.depart
  split
  · split
    · exact ⟨rfl, rfl⟩
    · split
      · exact ⟨rfl, rfl⟩
      · exact stepped_role t _ _
  · exact ⟨rfl, rfl⟩

theorem beside_departAll {ids : List Nat} {n : Nat} {x : Word} (h : ∀ id ∈ ids, s.expected id = true) :
    s.Beside (s.departAll ids n x) := by
  have hseqs : (s.departAll ids n x).seqs = s.seqs := by
    obtain ⟨y, hy⟩ := departAll_eq s ids n x
    rw [hy]
  refine ⟨hseqs, fun id => ?_, fun id => ?_, fun id hid => ?_⟩
  · rw [teamAt_departAll]
    split
    · exact (depart_role _ n x).1
    · rfl
  · rw [teamAt_departAll]
    split
    · exact (depart_role _ n x).2
    · rfl
  · rw [teamAt_departAll, if_neg fun hmem => ?_]
    have hexp := h id hmem
    rw [State.expected, hid] at hexp
    exact absurd hexp (by decide)

theorem bar_putBar_other {g : Group} {n k : Nat} (b : Barrier) (h : k ≠ n) : (g.putBar n b).bar k = g.bar k :=
  Store.get_set_other _ _ _ h

section Cleared

variable {gs : List Nat} {n g : Nat}

theorem groupAt_clearBars_other (h : g ∉ gs) : (s.clearBars gs n).groupAt g = s.groupAt g := by
  unfold State.clearBars
  refine List.foldlRecOn (motive := fun s' : State => s'.groupAt g = s.groupAt g) gs _ rfl fun s' hs j hj => ?_
  have hne : g ≠ j := fun hg => h (hg.symm ▸ hj)
  exact (Store.get_set_other ({} : Group) _ _ hne).trans hs

/-- New barriers leave the other barriers, the members and the life of every group. -/
theorem groupAt_clearBars : ((s.clearBars gs n).groupAt g).members = (s.groupAt g).members
    ∧ ∀ k, k ≠ n → ((s.clearBars gs n).groupAt g).bar k = (s.groupAt g).bar k := by
  unfold State.clearBars
  refine List.foldlRecOn (motive := fun s' : State => (s'.groupAt g).members = (s.groupAt g).members
    ∧ ∀ k, k ≠ n → (s'.groupAt g).bar k = (s.groupAt g).bar k) gs _ ⟨rfl, fun _ _ => rfl⟩ fun s' hs j _ => ?_
  rw [State.groupAt, State.putGroup, Store.get_set]
  split
  · next h =>
    subst h
    refine ⟨hs.1, fun k hk => ?_⟩
    exact (bar_putBar_other _ hk).trans (hs.2 k hk)
  · exact hs

end Cleared

/-- A trial of a barrier changes nothing, or completes a phase: its barriers start anew, and teams that wait depart. No team of
the expected set is missing then. -/
theorem tryBarrier_cases (s : State) (gid n : Nat) : s.tryBarrier gid n = s ∨ ∃ gs ids x,
    s.tryBarrier gid n = (s.clearBars gs n).departAll ids n x ∧ (∀ id ∈ ids, s.expected id = true)
    ∧ ∀ g ∈ gs, ∀ m ∈ (s.groupAt g).members, s.expected m = true → ∃ j, m ∈ ((s.groupAt j).bar n).arrived := by
  unfold State.tryBarrier
  split
  · exact .inl rfl
  · next gang _ =>
    dsimp only
    split
    · next hall =>
      refine .inr ⟨_, _, _, rfl, fun id hid => ?_, fun g hg m hm hexp => ?_⟩
      · have hexp := (List.mem_filter.mp hid).2
        obtain ⟨y, hy⟩ := clearBars_eq s (s.barGroups gid gang) n
        change (s.clearBars (s.barGroups gid gang) n).expected id = true at hexp
        rw [hy] at hexp
        exact hexp
      · have harr := List.all_eq_true.mp hall m (List.mem_filter.mpr ⟨List.mem_flatMap.mpr ⟨g, hg, hm⟩, hexp⟩)
        obtain ⟨j, -, hj⟩ := List.mem_flatMap.mp (List.contains_iff_mem.mp harr)
        exact ⟨j, hj⟩
    · exact .inl rfl

theorem tryBarrier_beside (s : State) (gid n : Nat) : s.Beside (s.tryBarrier gid n) := by
  rcases tryBarrier_cases s gid n with h | ⟨gs, ids, x, h, hexp, -⟩
  · rw [h]
    exact Beside.refl s
  · obtain ⟨y, hy⟩ := clearBars_eq s gs n
    rw [h, hy]
    exact Beside.trans (s' := { s with groups := y }) ⟨rfl, fun _ => rfl, fun _ => rfl, fun _ _ => rfl⟩
      (beside_departAll hexp)

theorem groupAt_departAll (ids : List Nat) (n : Nat) (x : Word) (g : Nat) : (s.departAll ids n x).groupAt g = s.groupAt g := by
  obtain ⟨y, hy⟩ := departAll_eq s ids n x
  rw [hy]
  rfl

theorem members_tryBarrier (s : State) (gid n g : Nat) :
    ((s.tryBarrier gid n).groupAt g).members = (s.groupAt g).members := by
  rcases tryBarrier_cases s gid n with h | ⟨gs, ids, x, h, -⟩
  · rw [h]
  · rw [h, groupAt_departAll, groupAt_clearBars.1]

/-- A barrier that still waits for a team of its group is not cleared, and the team is still missing there. -/
theorem missing_tryBarrier {gid n m : Nat} (h : s.Missing gid n m) (g k : Nat) :
    (s.tryBarrier g k).Missing gid n m ∧ ((s.tryBarrier g k).groupAt gid).bar n = (s.groupAt gid).bar n := by
  obtain ⟨hmember, hexp, habsent⟩ := h
  have hexp' : (s.tryBarrier g k).expected m = true := (expected_of_beside (tryBarrier_beside s g k) m).trans hexp
  have hmember' : m ∈ ((s.tryBarrier g k).groupAt gid).members := members_tryBarrier s g k gid ▸ hmember
  rcases tryBarrier_cases s g k with h | ⟨gs, ids, x, h, -, hfull⟩
  · rw [h]
    exact ⟨⟨hmember, hexp, habsent⟩, rfl⟩
  have hbar (j : Nat) : ((s.tryBarrier g k).groupAt j).bar n = ((s.clearBars gs k).groupAt j).bar n := by
    rw [h, groupAt_departAll]
  refine ⟨⟨hmember', hexp', fun j => ?_⟩, ?_⟩
  · rw [hbar]
    by_cases hk : n = k
    · subst hk
      by_cases hj : j ∈ gs
      · rw [bar_clearBars hj]
        exact List.not_mem_nil
      · rw [groupAt_clearBars_other hj]
        exact habsent j
    · rw [groupAt_clearBars.2 n hk]
      exact habsent j
  · rw [hbar]
    by_cases hk : n = k
    · subst hk
      refine congrArg (Group.bar · n) (groupAt_clearBars_other fun hg => ?_)
      obtain ⟨j, hj⟩ := hfull gid hg m hmember hexp
      exact habsent j hj
    · exact groupAt_clearBars.2 n hk

theorem tryBarriers_beside (s : State) (gids : List Nat) : s.Beside (s.tryBarriers gids) :=
  beside_foldl (fun s gid => beside_foldl (fun s n => tryBarrier_beside s gid n) _ s) _ s

/-- What every trial of a barrier keeps, the trials of many keep. -/
theorem tryBarriers_induction {p : State → Prop} (hp : ∀ s : State, p s → ∀ gid n, p (s.tryBarrier gid n)) (gids : List Nat)
    (h : p s) : p (s.tryBarriers gids) :=
  List.foldlRecOn (motive := p) gids _ h fun _ hs gid _ =>
    List.foldlRecOn (motive := p) (List.range 16) _ hs fun s hs n _ => hp s hs gid n

theorem members_tryBarriers (s : State) (gids : List Nat) (g : Nat) :
    ((s.tryBarriers gids).groupAt g).members = (s.groupAt g).members :=
  tryBarriers_induction (p := fun s' => (s'.groupAt g).members = (s.groupAt g).members)
    (fun s' h gid n => (members_tryBarrier s' gid n g).trans h) gids rfl

theorem bar_tryBarriers_of_missing {gid n m : Nat} (h : s.Missing gid n m) (gids : List Nat) :
    ((s.tryBarriers gids).groupAt gid).bar n = (s.groupAt gid).bar n :=
  (tryBarriers_induction (p := fun s' => s'.Missing gid n m ∧ (s'.groupAt gid).bar n = (s.groupAt gid).bar n)
    (fun s' hs g k => by
      obtain ⟨hmissing, hbar⟩ := missing_tryBarrier hs.1 g k
      exact ⟨hmissing, hbar.trans hs.2⟩) gids ⟨h, rfl⟩).2

/-! ### The end of a team (R48, R199, R263, R265) -/

theorem members_departed (g : Group) : g.departed.members = g.members := by
  unfold Group.departed
  dsimp only

/-- The barriers below 16 report a departure, and are otherwise as they were. -/
theorem bar_departed (g : Group) (n : Nat) :
    g.departed.bar n = if n < 16 then { g.bar n with departed := true } else g.bar n := by
  have hfold (l : List Nat) (bs : List (Nat × Barrier)) :
      Store.get {} (l.foldl (fun bs n => Store.set {} bs n { (Store.get {} bs n : Barrier) with departed := true }) bs) n
        = if n ∈ l then { (Store.get {} bs n : Barrier) with departed := true } else Store.get {} bs n := by
    induction l generalizing bs with
    | nil => rfl
    | cons k l ih =>
      rw [List.foldl_cons, ih, Store.get_set]
      by_cases hk : n = k
      · subst hk
        simp
      · simp [hk]
  unfold Group.departed Group.bar
  rw [hfold]
  simp only [List.mem_range]

theorem exitTeam_eq (s : State) (id : Nat) (pc : Word) (seq : Nat) (lidx : BitVec 32) :
    s.exitTeam id pc seq lidx =
      ((s.exitMarked id pc seq lidx).tryBarriers ((s.exitMarked id pc seq lidx).gangOf (s.teamAt id).group)).concluded
        (s.teamAt id).group := rfl

section Marked

variable (s : State) (id : Nat) (pc : Word) (seq : Nat) (lidx : BitVec 32)

/-- The team is Exited; the place and the life of the others, their commands and all groups are as they were, but that the
barriers of the team's group report the departure. -/
theorem exitMarked_spec : (s.exitMarked id pc seq lidx).teamAt id = (s.teamAt id).gone (s.commanding id)
    ∧ (∀ j, j ≠ id → ((s.exitMarked id pc seq lidx).teamAt j).life = (s.teamAt j).life)
    ∧ (∀ j, (s.exitMarked id pc seq lidx).commanding j = s.commanding j)
    ∧ ∀ g, (s.exitMarked id pc seq lidx).groupAt g
        = if g = (s.teamAt id).group then (s.groupAt g).departed else s.groupAt g := by
  unfold State.exitMarked
  extract_lets t s₁ s₂ s₃ s₄
  have h₁ : s.Aside s₁ := by
    by_cases htr : s.traces t.core t.pstat.tag 8 = true
    · have hs₁ : s₁ = s.traceOut t.core (s.traceRecord t 8 pc seq lidx 0) := if_pos htr
      rw [hs₁]
      exact aside_traceOut _ _
    · have hs₁ : s₁ = s := if_neg htr
      rw [hs₁]
      exact Aside.refl s
  have h₄ : s₂.Aside s₄ := Aside.trans (aside_freeSack t) (aside_of_eq rfl rfl rfl)
  have hgone : s₂.teamAt id = t.gone (s.commanding id) :=
    (State.teamAt_putTeam _ _ _).trans (congrArg t.gone (commanding_of_beside h₁.toBeside id))
  have hother (j : Nat) (hj : j ≠ id) : s₂.teamAt j = s₁.teamAt j := State.teamAt_putTeam_other _ _ hj
  have hgq (j : Nat) : (s₂.teamAt j).gq = (s.teamAt j).gq := by
    by_cases hj : j = id
    · subst hj
      rw [hgone]
      rfl
    · rw [hother j hj, h₁.gq]
  have hgroups : s₄.groups = s.groups := h₄.groups.trans h₁.groups
  refine ⟨?_, fun j hj => ?_, fun j => ?_, fun g => ?_⟩
  · refine (h₄.exited id ?_).trans hgone
    rw [hgone]
    rfl
  · refine (h₄.life j).trans ?_
    rw [hother j hj, h₁.life]
  · refine (commanding_of_beside h₄.toBeside j).trans ?_
    rw [State.commanding, State.sequencer, hgq]
    exact congrArg (fun m => (Store.get ([] : List MatCmd) m (s.teamAt j).gq).any fun c => c.team == j) h₁.seqs
  · have hat (k : Nat) : s₄.groupAt k = s.groupAt k := congrArg (fun m => Store.get ({} : Group) m k) hgroups
    rw [State.groupAt, State.putGroup, Store.get_set]
    split
    · next h => rw [hat, h]
    · exact hat g

end Marked

/-- A group that ends is no longer alive; its barriers stay. -/
theorem endGroup_spec (s : State) (gid : Nat) : s.Beside (s.endGroup gid)
    ∧ (s.endGroup gid).groupAt gid = { s.groupAt gid with alive := false, quarters := [] } := by
  unfold State.endGroup
  extract_lets g s₁ r r' s₂
  have hfree : s.Beside s₁ := by
    refine Beside.trans (aside_foldl (fun s q => aside_freeTiles gid q) g.quarters s).toBeside ?_
    exact ⟨rfl, fun _ => rfl, fun _ => rfl, fun _ _ => rfl⟩
  have hat : s₂.groupAt gid = { g with alive := false, quarters := [] } := Store.get_set_same _ _ _ _
  have hend {s' : State} (h : s₂.Aside s') : s.Beside s' ∧ s'.groupAt gid = { g with alive := false, quarters := [] } :=
    ⟨Beside.trans (Beside.trans hfree (aside_of_eq (s := s₁) (s' := s₂) rfl rfl rfl).toBeside) h.toBeside,
      (congrArg (fun m => Store.get ({} : Group) m gid) h.groups).trans hat⟩
  split
  · exact hend (Aside.trans (aside_of_eq (s' := s₂.putGrid g.grid _) rfl rfl rfl) (aside_endGrid _))
  · exact hend (aside_of_eq rfl rfl rfl)

/-- A group that is over is no longer alive; its barriers, and what is beside it, stay. -/
theorem concluded_spec (s : State) (gid : Nat) : s.Beside (s.concluded gid)
    ∧ (∀ n, ((s.concluded gid).groupAt gid).bar n = (s.groupAt gid).bar n)
    ∧ (s.groupOver gid = true → ((s.concluded gid).groupAt gid).alive = false) := by
  have hat (s : State) : (s.noteSaved gid).groupAt gid = s.groupAt gid :=
    congrArg (fun m => Store.get ({} : Group) m gid) (aside_noteSaved gid).groups
  obtain ⟨hbeside, hend⟩ := endGroup_spec s gid
  unfold State.concluded
  rw [hat]
  by_cases hover : s.groupOver gid = true
  · rw [if_pos hover, hend]
    exact ⟨Beside.trans hbeside (aside_noteSaved gid).toBeside, fun _ => rfl, fun _ => rfl⟩
  · rw [if_neg hover]
    exact ⟨(aside_noteSaved gid).toBeside, fun _ => rfl, fun h => absurd h hover⟩

section Exit

variable {s : State} {id : Nat} {pc : Word} {seq : Nat} {lidx : BitVec 32}

theorem teamAt_exitTeam : (s.exitTeam id pc seq lidx).teamAt id = (s.teamAt id).gone (s.commanding id) := by
  obtain ⟨hgone, -⟩ := exitMarked_spec s id pc seq lidx
  rw [exitTeam_eq]
  refine ((Beside.trans (tryBarriers_beside _ _) (concluded_spec _ _).1).exited id ?_).trans hgone
  rw [hgone]
  rfl

/-- Every barrier at which another team of the group is missing will report the departure. -/
theorem departed_exitTeam {n m : Nat} (hn : n < 16) (hm : m ≠ id) (hmissing : s.Missing (s.teamAt id).group n m) :
    (((s.exitTeam id pc seq lidx).groupAt (s.teamAt id).group).bar n).departed = true := by
  obtain ⟨-, hlife, -, hgroup⟩ := exitMarked_spec s id pc seq lidx
  have hbar : (s.exitMarked id pc seq lidx).groupAt (s.teamAt id).group = (s.groupAt (s.teamAt id).group).departed :=
    (hgroup _).trans (if_pos rfl)
  have hmarked : (s.exitMarked id pc seq lidx).Missing (s.teamAt id).group n m := by
    refine ⟨?_, ?_, fun g => ?_⟩
    · rw [hbar, members_departed]
      exact hmissing.member
    · rw [State.expected, hlife m hm]
      exact hmissing.expected
    · rw [hgroup]
      split
      · rw [bar_departed, if_pos hn]
        exact hmissing.absent g
      · exact hmissing.absent g
  rw [exitTeam_eq, (concluded_spec _ _).2.1, bar_tryBarriers_of_missing hmarked, hbar, bar_departed, if_pos hn]

/-- The group of a last team ends, once no sequencer runs a command of its teams. -/
theorem alive_exitTeam (hidle : ∀ m ∈ (s.groupAt (s.teamAt id).group).members, s.commanding m = false)
    (hover : ∀ m ∈ (s.groupAt (s.teamAt id).group).members, m = id ∨ (s.teamAt m).life = .exited) :
    ((s.exitTeam id pc seq lidx).groupAt (s.teamAt id).group).alive = false := by
  obtain ⟨hgone, hlife, hcmd, hgroup⟩ := exitMarked_spec s id pc seq lidx
  have htry := tryBarriers_beside (s.exitMarked id pc seq lidx) ((s.exitMarked id pc seq lidx).gangOf (s.teamAt id).group)
  rw [exitTeam_eq]
  refine (concluded_spec _ _).2.2 (List.all_eq_true.mpr fun m hm => ?_)
  rw [members_tryBarriers, hgroup, if_pos rfl, members_departed] at hm
  have hexited : ((s.exitMarked id pc seq lidx).teamAt m).life = .exited := by
    by_cases hid : m = id
    · rw [hid, hgone]
      rfl
    · exact (hlife m hid).trans ((hover m hm).resolve_left hid)
  rw [htry.life, hexited, commanding_of_beside htry, hcmd, hidle m hm]
  rfl

end Exit

/-! ### The instructions -/

theorem exec_halt (horphan : s.orphanToken s.team = none) (htok : s.team.tokensZero = true) (hquiet : s.quiet true true false) :
    exec .halt s = .next (s.exitTeam s.cur s.team.pc s.team.seqctr.toNat 0xFFFFFFFF#32) := by
  obtain ⟨hq, hsdq, -, hred, -⟩ := hquiet
  change execHalt s = _
  unfold execHalt
  dsimp only
  rw [horphan]
  dsimp only
  rw [hq, htok, hsdq rfl, hred rfl]
  rfl

theorem haltEnds : Claims.HaltEnds := by
  intro s t _ horphan htok hquiet
  refine ⟨_, exec_halt horphan htok hquiet, ?_, fun hcmd => ?_, ?_, ?_,
    fun n m hn hm hne hexp habsent => departed_exitTeam hn hne ⟨hm, hexp, habsent⟩,
    fun hidle hover _ => alive_exitTeam hidle hover⟩
  · rw [teamAt_exitTeam]
    rfl
  · rw [teamAt_exitTeam, hcmd]
    rfl
  · rw [teamAt_exitTeam]
    rfl
  · rw [teamAt_exitTeam]
    rfl

theorem marks : Claims.Marks := by
  intro s a t
  refine ⟨fun h => ?_, fun h => ?_⟩
  · refine gives_of_eq (congrArg Host.Outcome.next (?_ : _ = s.setTeam s.team.advance)) rfl
    rw [traceTeam_of_not h]
    rfl
  · refine gives_of_eq (congrArg Host.Outcome.next ((congrArg (State.upd · Team.advance) (if_pos h)).trans ?_)) rfl
    rw [State.upd, State.team_setTeam, setTeam_twice]
    rfl

/-- Settles O27: a barrier that misses a team is not cleared by the end of another one; a group ends with its last team. -/
theorem haltAndMark : Obligations.HaltAndMark := ⟨haltEnds, marks⟩

end Sys2Proof.Laws
end
